-- ==== Sys2Proof/Word.lean ====
section
/-! DEFINITION. The plainest types of the model: link bytes, samples, levels, and tables of a fixed number of like
records. A table is a `Vector`; its three operations reduce in Lean's kernel. -/

namespace Sys2Proof

/-- A byte on a link (chapter 9) or in a frame (chapter 12). -/
abbrev Byte := BitVec 8

/-- A 16-bit two's complement sample of a highway (R119). -/
abbrev Sample := BitVec 16

/-- A number of one byte, 0 to 255: levels (introduction, section 6), counts and volumes. -/
abbrev Level := Fin 256

/-- A fixed number of like records. -/
abbrev Table (n : Nat) (α : Type) := Vector α n

/-- The entry of a table at an index. -/
def Table.look {n : Nat} {α : Type} (t : Table n α) (i : Fin n) : α := t[i.val]'i.isLt

/-- The table with one entry replaced. -/
def Table.put {n : Nat} {α : Type} (t : Table n α) (i : Fin n) (a : α) : Table n α := t.set i.val a i.isLt

/-- The table whose entry at `i` is `f i`. -/
def Table.build {n : Nat} {α : Type} (f : Fin n → α) : Table n α := ⟨⟨List.ofFn f⟩, by simp⟩

/-- The table that holds `a` everywhere. -/
def Table.fill {n : Nat} {α : Type} (a : α) : Table n α := Table.build fun _ => a

/-- The first element that satisfies `q`, with the list that is left when it is taken out: how a block takes the oldest
waiting message about its subject. -/
def takeFirst {α : Type} (q : α → Bool) : List α → Option (α × List α)
  | [] => none
  | a :: l => if q a then some (a, l) else (takeFirst q l).map fun r => (r.1, a :: r.2)

end Sys2Proof
end

