-- ==== Sys2Proof/Config.lean ====
section
/-! DEFINITION. The numbers that the manual fixes for this part. The manual leaves no value of an executed command open, so
there is no free value here (NOTES.md, Assumptions, says where the model chose between readings). -/

namespace Sys2Proof.Config

/-- First byte of the idle fill pair (chapter 9, section 9.1). -/
def syncA : Byte := 0x96#8
/-- Second byte of the idle fill pair. -/
def syncB : Byte := 0x69#8
/-- Introduces a control code or a stuffed byte. -/
def esc : Byte := 0xD3#8
/-- ESC OPEN starts a frame. -/
def codeOpen : Byte := 0x01#8
/-- ESC CLOSE ends a frame. -/
def codeClose : Byte := 0x02#8
/-- ESC ABORT abandons a frame. -/
def codeAbort : Byte := 0x03#8
/-- Added by exclusive-or to a stuffed byte. -/
def stuffBit : Byte := 0x20#8
/-- Polynomial of the frame check (R158). -/
def checkPoly : BitVec 16 := 0x1021#16
/-- Start value of the frame check (R158). -/
def checkStart : BitVec 16 := 0xFFFF#16
/-- Greatest frame, tag to check (R157). -/
def maxFrame : Nat := 64
/-- Kind of an event frame (R177). -/
def kindEventFrame : Byte := 0xE0#8
/-- Kind of a test frame (R177). -/
def kindTestFrame : Byte := 0xE1#8
/-- Room of a request queue (R158). -/
def requestRoom : Nat := 4
/-- Room of an event queue (R168). -/
def eventRoom : Nat := 32
/-- Most records of one event frame or fetch (R169). -/
def eventBatch : Nat := 8
/-- Count of the link loss timer, 8 ms units (R160). -/
def lossCount : Nat := 32
/-- Count of the link up timer, 8 ms units (R161). -/
def upCount : Nat := 8
/-- Entries of the pool (R97). -/
def poolSize : Nat := 1536
/-- Most entries of one mix list (R97). -/
def listLimit : Nat := 16
/-- Most entries of one coverage list (R133). -/
def coverageRoom : Nat := 4
/-- Most lines attached to one group (R56). -/
def attachRoom : Nat := 8
/-- Most steps of one run (R149). -/
def runLimit : Nat := 32
/-- Most frames a clip counter counts (R121). -/
def clipLimit : Nat := 65535
/-- Ticks of 8 ms in one tick of 1 s (R2). -/
def ticksPerSecond : Nat := 125
/-- Cycle of the ALERT generator in audio frames (R125). -/
def alertCycle : Nat := 4800
/-- Cycle of the ATTENTION generator in audio frames (R126). -/
def attentionCycle : Nat := 120000
/-- Vendor code of Norwelt, part number and revision (R184). -/
def identity : List Byte := [0x3A#8, 0x71#8, 0x12#8, 0xD0#8, 0x01#8]

end Sys2Proof.Config
end

