-- ==== Sys2Proof/Syntax.lean ====
section
/-! DEFINITION. The numbers of the part (R1) and its commands: one constructor of `Instr` for each row of
spec/opcode_table.json. A command names the agent that acts and the message it takes; what the message says (the operands
of a request, a claim, a direction) stands in `State`, where the sender has put it. -/

namespace Sys2Proof

/-- Position 0 to 15 (R1). -/
abbrev Pos := Fin 16
/-- Port 0 to 16; port 16 is the management link (R1). -/
abbrev Port := Fin 17
/-- Line 0 to 63 (R1). -/
abbrev Line := Fin 64
/-- Group 0 to 15 (R1). -/
abbrev Grp := Fin 16
/-- Intercom call record 0 to 7 (R1). -/
abbrev CallNo := Fin 8
/-- Tap 0 to 15 (R1). -/
abbrev TapNo := Fin 16
/-- Step 0 to 255 (R1). -/
abbrev StepNo := Fin 256
/-- Mix source 0 to 113 (R1). -/
abbrev Src := Fin 114
/-- Mix leg 0 to 207 (R1). -/
abbrev Leg := Fin 208
/-- Speaker of a position; 0 stands for S1 and 5 for S6 (R1). -/
abbrev Spk := Fin 6

/-- The two handsets of a position (R1). -/
inductive Handset where
  | A
  | B
  deriving DecidableEq, Repr

/-- Who sends a request: the controller on a port, or the running sequence of a position (R38, R149). -/
inductive Requester where
  | port (n : Port)
  | run (p : Pos)
  deriving DecidableEq, Repr

/-- The two blocks that own connections PTB asks for (R35): LCU for lines, GFU for groups and calls. -/
inductive Owner where
  | lcu
  | gfu
  deriving DecidableEq, Repr

/-- The blocks that give event records to EVU (introduction, section 4.1). -/
inductive Block where
  | lki
  | ptb
  | lcu
  | gfu
  | cmx
  | rtu
  | squ
  deriving DecidableEq, Repr

/-- The subject of a change notice (R99). `bars` is the one notice of an APPEARANCE_BAR, naming the lines and the positions
of the records whose flag changed. -/
inductive Subject where
  | leg (k : Leg)
  | line (l : Line)
  | position (p : Pos)
  | group (g : Grp)
  | tap (r : TapNo)
  | bars (ls : List Line) (ps : List Pos)
  deriving DecidableEq, Repr

/-- The commands of the part: one constructor for each row of spec/opcode_table.json, in the table's order.
DESIGN CHOICE: notes/assumptions/1.md. -/
inductive Instr where
  /-- POWER_ON_RESET, with the far-seize and recorder-present inputs as seen at the end of the reset (R26, R134). -/
  | powerOnReset (far : Vector Bool 64) (present : Vector Bool 16)
  /-- FAR_SEIZE_CHANGE: the far-seize input of a line takes a new value. -/
  | farSeizeChange (l : Line) (on : Bool)
  | qualifyExpiry (l : Line)
  | answerExpiry (l : Line)
  | ringOutExpiry (l : Line)
  | holdRecallExpiry (l : Line)
  | guardExpiry (l : Line)
  /-- TAKE_LINE of a port's oldest frame, or of the step a run has submitted. -/
  | takeLine (r : Requester)
  | takeLineAtLcu (p : Pos) (h : Handset)
  | reservationAnswer (p : Pos) (h : Handset)
  | coverageReservation
  | coverageRelease
  | finalClaim (o : Owner) (p : Pos) (h : Handset)
  | returnNotice (o : Owner) (p : Pos) (h : Handset)
  | releaseNotice (o : Owner) (p : Pos) (h : Handset)
  | release (r : Requester)
  | releaseAtOwner (o : Owner) (p : Pos) (h : Handset)
  | hold (r : Requester)
  | holdAtLcu (p : Pos) (h : Handset)
  | setPrivacy (r : Requester)
  | mute (n : Port)
  | signalLine (r : Requester)
  | assignSpeaker (r : Requester)
  | speakerQuestion (o : Owner) (p : Pos) (k : Spk)
  | assignmentAnswer (o : Owner) (p : Pos)
  | removalNotice (o : Owner) (p : Pos)
  | setVolume (r : Requester)
  | queryLine (n : Port)
  | queryPosition (n : Port)
  | talkReport (l : Line)
  | lineConfig (n : Port)
  | lineServiceOut (n : Port)
  | lineServiceIn (n : Port)
  | appearanceSet (n : Port)
  | appearanceBar (n : Port)
  | positionConfig (n : Port)
  | positionDownAtPtb (p : Pos)
  | positionDownAtLcu (p : Pos)
  | positionDownAtGfu (p : Pos)
  | positionDownAtSqu (p : Pos)
  | positionDownAtEvu (n : Port)
  | standingUpNotice (p : Pos)
  | groupConfig (n : Port)
  | joinGroup (r : Requester)
  | joinGroupAtGfu (p : Pos) (h : Handset)
  | hootAttach (n : Port)
  | attachQuestion (l : Line)
  | attachAnswer (l : Line)
  | attachOutcome (l : Line)
  | hootDetach (n : Port)
  | hootLineRemoval (l : Line)
  | listenOn
  | listenOff
  | callConfig (n : Port)
  | callPosition (r : Requester)
  | callPositionAtGfu (p : Pos) (h : Handset)
  | answerCall (n : Port)
  | answerCallAtGfu (p : Pos) (h : Handset)
  | declineCall (n : Port)
  | callAlertExpiry (c : CallNo)
  | queryGroup (n : Port)
  | floorRequest (r : Requester)
  | floorRelease (r : Requester)
  | holdTimerExpiry (g : Grp)
  | pinFloor (n : Port)
  | unpin (n : Port)
  | voxActiveReport (p : Pos)
  | voxQuietReport (p : Pos)
  | changeNotice (q : Subject)
  | derivationStart
  | listInstall
  /-- AUDIO_FRAME, with the samples of the inward position highway and of the inward line highway (R119). -/
  | audioFrame (mics : Vector Sample 48) (receives : Vector Sample 64)
  | legLevel (n : Port)
  | queryLeg (n : Port)
  | detectorConfig (n : Port)
  | querySource (n : Port)
  | tapSet (n : Port)
  | tapDisable (n : Port)
  | tapEnable (n : Port)
  | tapLock (n : Port)
  | tapUnlock (n : Port)
  | tapFix (n : Port)
  | queryTap (n : Port)
  /-- RECORDER_PRESENT_CHANGE: recorder-present input `r` takes a new value. -/
  | recorderPresentChange (r : TapNo) (present : Bool)
  | stepWrite (n : Port)
  | stepRead (n : Port)
  | runSequence (n : Port)
  | stepOutcome (p : Pos)
  | pauseExpiry (p : Pos)
  | abortSequence (n : Port)
  /-- SYNC_FOUND, with the bit position at which the pair was found (R156). -/
  | syncFound (n : Port) (align : Fin 8)
  /-- RECEIVER_HUNT, with the bytes taken at the alignment that is lost; on a LOCAL_LOOP port these and those of the next three
  are the bytes of its own transmitter as they come back, damaged or not (R163, R164). -/
  | receiverHunt (n : Port) (bytes : List Byte)
  /-- FRAME_CLOSE, with the stuffed bytes taken between OPEN and CLOSE. -/
  | frameClose (n : Port) (bytes : List Byte)
  /-- FRAME_ABORT, with the stuffed bytes taken between OPEN and ABORT. -/
  | frameAbort (n : Port) (bytes : List Byte)
  /-- FRAME_ERROR, with the bytes taken after OPEN up to the byte that makes the error, that byte included. -/
  | frameError (n : Port) (bytes : List Byte)
  | linkLossTimerExpiry (n : Port)
  | linkUpTimerExpiry (n : Port)
  | replySend (n : Port)
  | eventFrame (n : Port)
  | testFrameSend (n : Port)
  | unknownRequest (n : Port)
  /-- RECORD_PLACEMENT of the oldest record that a block has given. -/
  | recordPlacement (b : Block)
  | statusRead (n : Port)
  | portMode (n : Port)
  | testFrame (n : Port)
  | eventSetup (n : Port)
  | fetchEvents (n : Port)
  | summary (n : Port)
  | portReset (n : Port)
  | resetArm (n : Port)
  | resetExecute (n : Port)
  | softResetAtPtb
  | softResetAtLcu
  | softResetAtGfu
  | softResetAtCmx
  | softResetAtRtu
  | softResetAtSqu
  | softResetCompletion
  | identify (n : Port)
  | frameOpen (n : Port)
  | frameSent (n : Port)
  deriving DecidableEq, Repr

end Sys2Proof
end

