-- ==== Sys2Proof/Decode.lean ====
section
/-! DEFINITION. Reading what comes from outside: the table's words (the table gives no row any bits), the request kinds
(R167, R178, R180), and the link's bytes (R155 to R158): stuffing, the frame check and the receiver's tables. -/

namespace Sys2Proof

/-- The command that a word of the table spells. No row of spec/opcode_table.json gives bits, so no word spells one.
DESIGN CHOICE: notes/assumptions/33.md. -/
def decodeTableWord (_nbits _w : Nat) : Option Instr := none

/-! ## Requests -/

/-- The kinds of request of the part, in the order of R178. -/
inductive ReqKind where
  | takeLine | release | hold | setPrivacy | mute | signalLine | assignSpeaker | joinGroup | callPosition | answerCall
  | declineCall | floorRequest | floorRelease | runSequence | abortSequence
  | setVolume | queryLine | queryPosition | queryGroup | statusRead | eventSetup | fetchEvents | summary | portReset
  | lineConfig | lineService | appearanceSet | appearanceBar | positionConfig | groupConfig | hootAttach | hootDetach
  | callConfig | pinFloor | unpin | legLevel | queryLeg | detectorConfig | querySource | tapSet | tapEnable | tapDisable
  | tapLock | tapUnlock | tapFix | queryTap | stepWrite | stepRead | portMode | testFrame | resetArm | resetExecute
  | identify
  deriving DecidableEq, Repr

/-- The requests that positions alone may send, from code 10H (R167, R178). -/
def positionKinds : List ReqKind :=
  [.takeLine, .release, .hold, .setPrivacy, .mute, .signalLine, .assignSpeaker, .joinGroup, .callPosition, .answerCall,
   .declineCall, .floorRequest, .floorRelease, .runSequence, .abortSequence]

/-- The requests that positions and the manager may send, from code 20H (R167, R178). -/
def bothKinds : List ReqKind :=
  [.setVolume, .queryLine, .queryPosition, .queryGroup, .statusRead, .eventSetup, .fetchEvents, .summary, .portReset]

/-- The requests that the manager alone may send, from code 40H (R167, R178). -/
def managerKinds : List ReqKind :=
  [.lineConfig, .lineService, .appearanceSet, .appearanceBar, .positionConfig, .groupConfig, .hootAttach, .hootDetach,
   .callConfig, .pinFloor, .unpin, .legLevel, .queryLeg, .detectorConfig, .querySource, .tapSet, .tapEnable, .tapDisable,
   .tapLock, .tapUnlock, .tapFix, .queryTap, .stepWrite, .stepRead, .portMode, .testFrame, .resetArm, .resetExecute,
   .identify]

/-- The request that a kind byte names, if any (R178). -/
def reqKindOf (b : Byte) : Option ReqKind :=
  if b.toNat < 0x10 then none
  else if b.toNat < 0x20 then positionKinds[b.toNat - 0x10]?
  else if b.toNat < 0x40 then bothKinds[b.toNat - 0x20]?
  else managerKinds[b.toNat - 0x40]?

/-- The kind byte of a request (R178). -/
def ReqKind.code (k : ReqKind) : Byte :=
  if k ∈ positionKinds then BitVec.ofNat 8 (0x10 + positionKinds.idxOf k)
  else if k ∈ bothKinds then BitVec.ofNat 8 (0x20 + bothKinds.idxOf k)
  else BitVec.ofNat 8 (0x40 + managerKinds.idxOf k)

/-- Whether a port may send a request: check 2 of R166, by the classes of R167. -/
def ReqKind.permitted (k : ReqKind) (n : Port) : Bool :=
  if k ∈ positionKinds then n.val != 16 else if k ∈ bothKinds then true else n.val == 16

/-- Whether a body has a length that its kind calls for: check 3 of R166, by the layouts of R180. -/
def ReqKind.lengthOk (k : ReqKind) (len : Nat) : Bool :=
  match k with
  | .abortSequence | .fetchEvents | .summary | .resetArm | .resetExecute | .identify => len == 0
  | .release | .hold | .signalLine | .declineCall | .floorRelease | .runSequence | .queryLine | .statusRead | .portReset
  | .callConfig | .unpin | .querySource | .tapEnable | .tapDisable | .tapLock | .tapUnlock | .tapFix | .queryTap
  | .stepRead => len == 1
  | .takeLine | .setPrivacy | .mute | .joinGroup | .answerCall | .floorRequest | .queryPosition | .queryGroup
  | .lineService | .hootAttach | .hootDetach | .pinFloor | .legLevel | .queryLeg | .portMode => len == 2
  | .assignSpeaker | .callPosition | .setVolume | .eventSetup | .appearanceSet => len == 3
  | .appearanceBar => len == 4
  | .detectorConfig | .tapSet => len == 6
  | .groupConfig => len == 7
  | .stepWrite => len == 9
  | .positionConfig => len == 10
  | .lineConfig => len == 15
  | .testFrame => 1 ≤ len && len ≤ 60

/-! ## Frames -/

/-- A frame without its check bytes: tag, kind and body (R177). -/
structure Frame where
  tag : Byte
  kind : Byte
  body : List Byte
  deriving DecidableEq, Repr

/-- One bit into the check register (R158). -/
def checkBit (reg : BitVec 16) (bit : Bool) : BitVec 16 :=
  if reg.msb != bit then (reg <<< 1) ^^^ Config.checkPoly else reg <<< 1

/-- One byte into the check register, most significant bit first (R158). -/
def checkByte (reg : BitVec 16) (b : Byte) : BitVec 16 :=
  [7, 6, 5, 4, 3, 2, 1, 0].foldl (fun r i => checkBit r (b.getLsbD i)) reg

/-- The check over a list of bytes (R158). -/
def frameCheck (bytes : List Byte) : BitVec 16 := bytes.foldl checkByte Config.checkStart

/-- A 16-bit number as two bytes, high byte first (chapter 12). -/
def twoBytes (w : BitVec 16) : List Byte := [w.extractLsb' 8 8, w.extractLsb' 0 8]

/-- The bytes of a frame from tag to check, unstuffed (R177). -/
def Frame.bytes (f : Frame) : List Byte :=
  let data := f.tag :: f.kind :: f.body
  data ++ twoBytes (frameCheck data)

/-- Whether a byte is one that is sent stuffed (R155). -/
def isMark (b : Byte) : Bool := b == Config.syncA || b == Config.syncB || b == Config.esc

/-- Stuffing of one byte (R155). -/
def stuffByte (b : Byte) : List Byte := if isMark b then [Config.esc, b ^^^ Config.stuffBit] else [b]

/-- The idle fill pair (R155). -/
def fillPair : List Byte := [Config.syncA, Config.syncB]

/-- The end of a frame on the link: CLOSE, then the idle fill pair that stands before the next OPEN (R155). -/
def closeFill : List Byte := [Config.esc, Config.codeClose] ++ fillPair

/-- The end of a frame that is aborted: ABORT, then idle fill (R155). -/
def abortFill : List Byte := [Config.esc, Config.codeAbort] ++ fillPair

/-- The bytes on the link from OPEN to the last check byte (R155). -/
def Frame.wire (f : Frame) : List Byte := Config.esc :: Config.codeOpen :: f.bytes.flatMap stuffByte

/-! ## The receiver -/

/-- The three states of a receiver (R156). -/
inductive RxState where
  | hunt
  | synced
  | inFrame
  deriving DecidableEq, Repr

/-- A receiver: its state, a SYNC_A or ESC whose next byte is awaited, and the frame buffer (R156, R157). -/
structure Rx where
  state : RxState
  held : Option Byte
  buffer : List Byte
  deriving DecidableEq, Repr

/-- What a receiver reports of a byte it has taken. -/
inductive RxEvent where
  /-- The receiver has gone to HUNT. -/
  | lost
  /-- The receiver has gone to IN_FRAME. -/
  | opened
  /-- A frame has ended by CLOSE; the buffer goes to its checks (R158). -/
  | closed (buffer : List Byte)
  /-- A frame has ended by ABORT. -/
  | aborted
  /-- A frame has ended by a frame error (R157). -/
  | failed
  deriving DecidableEq, Repr

/-- A receiver in HUNT. -/
def Rx.hunting : Rx := { state := .hunt, held := none, buffer := [] }

/-- A receiver in SYNCED between bytes that belong together. -/
def Rx.insync : Rx := { state := .synced, held := none, buffer := [] }

/-- A receiver in SYNCED that has taken SYNC_A and waits for the SYNC_B of its pair (R156, R157). -/
def Rx.inPair (x : Rx) : Bool := x.state == .synced && x.held == some Config.syncA

/-- A byte taken in SYNCED (the table of R156). -/
def Rx.takeSynced (x : Rx) (b : Byte) : Rx × List RxEvent :=
  match x.held with
  | none =>
    if b == Config.syncA || b == Config.esc then ({ x with held := some b }, []) else (Rx.hunting, [.lost])
  | some a =>
    if a == Config.syncA && b == Config.syncB then (Rx.insync, [])
    else if a == Config.esc && b == Config.codeOpen then ({ state := .inFrame, held := none, buffer := [] }, [.opened])
    else (Rx.hunting, [.lost])

/-- A data byte appended to the buffer, or a frame error where the buffer is full (R157). -/
def Rx.append (x : Rx) (b : Byte) : Rx × List RxEvent :=
  if x.buffer.length < Config.maxFrame then ({ x with held := none, buffer := x.buffer ++ [b] }, [])
  else (Rx.insync, [.failed])

/-- A byte taken in IN_FRAME (the table of R157). -/
def Rx.takeInFrame (x : Rx) (b : Byte) : Rx × List RxEvent :=
  match x.held with
  | none =>
    if b == Config.esc then ({ x with held := some b }, [])
    else if isMark b then
      let y := Rx.takeSynced Rx.insync b
      (y.1, .failed :: y.2)
    else x.append b
  | some _ =>
    if isMark (b ^^^ Config.stuffBit) then x.append (b ^^^ Config.stuffBit)
    else if b == Config.codeClose then (Rx.insync, [.closed x.buffer])
    else if b == Config.codeAbort then (Rx.insync, [.aborted])
    else (Rx.insync, [.failed])

/-- A byte taken by a receiver. In HUNT a receiver has no byte alignment and takes no byte; it leaves HUNT by SYNC_FOUND
alone (R156). -/
def Rx.take (x : Rx) (b : Byte) : Rx × List RxEvent :=
  match x.state with
  | .hunt => (x, [])
  | .synced => x.takeSynced b
  | .inFrame => x.takeInFrame b

/-- The receiver and everything it reports after a run of bytes. -/
def Rx.takeAll (x : Rx) : List Byte → Rx × List RxEvent
  | [] => (x, [])
  | b :: bs =>
    let y := x.take b
    let z := y.1.takeAll bs
    (z.1, y.2 ++ z.2)

/-- The receiver after the first bytes that make it report something, with what it reports of the last of them and the bytes
that follow; absent where the bytes make it report nothing. -/
def Rx.takeUntil (x : Rx) : List Byte → Option (Rx × List RxEvent × List Byte)
  | [] => none
  | b :: bs =>
    let y := x.take b
    if y.2.isEmpty then y.1.takeUntil bs else some (y.1, y.2, bs)

/-- The receiver right after OPEN. -/
def Rx.opened : Rx := { state := .inFrame, held := none, buffer := [] }

/-- The tag, kind and body of a buffer of at least four bytes, without its check bytes (R177). -/
def frameOfBuffer (buf : List Byte) : Frame :=
  { tag := buf.getD 0 0, kind := buf.getD 1 0, body := (buf.drop 2).take (buf.length - 4) }

end Sys2Proof
end

