-- ==== Sys2Proof/Machine/State.lean ====
section
/-! DEFINITION. The state of the part as plain data: the records of the eight blocks, the messages on the paths between
them (introduction, section 4.2), the timebase, and the queue of waiting commands. -/

namespace Sys2Proof.Machine

/-- No meaning faults: the manual names no condition under which the part stops. -/
inductive Fault where
  /-- Raised by no meaning. Safe: a machine that never stops in it. -/
  | none
  deriving DecidableEq, Repr

/-- No meaning refuses: every row of the table has its effect. -/
inductive Refusal where
  /-- Raised by `exec` alone, for a row that has no meaning yet; no row is in this case. Safe. -/
  | notModelled (mnemonic : String)
  deriving DecidableEq, Repr

/-! ## Common pieces -/

/-- A timer: absent while stopped, else the ticks that are left (R2). -/
abbrev Timer := Option Nat

/-- A set of positions. -/
abbrev PosSet := Table 16 Bool

/-- One thing for each handset of a position. -/
structure Pair (α : Type) where
  a : α
  b : α
  deriving DecidableEq, Repr

/-- The thing of one handset. -/
def Pair.of {α : Type} (x : Pair α) (h : Handset) : α :=
  match h with
  | .A => x.a
  | .B => x.b

/-- The pair with the thing of one handset replaced. -/
def Pair.set {α : Type} (x : Pair α) (h : Handset) (v : α) : Pair α :=
  match h with
  | .A => { x with a := v }
  | .B => { x with b := v }

/-- The result codes, in the order of R178. -/
inductive Code where
  | accepted | handsetBusy | outOfService | badKind | noAppearance | listenOnly | barred | lineBusy | isPrivate | lineFull
  | notRecorded | notConnected | shared | notRingdown | notMember | groupFull | groupBusy | already | micBusy | notWaiting
  | calleeDown | calleeBusy | noResource | busy | notRunning | stepInUse | tapLocked | tapBusy | tapInUse | badTap
  | badValue | notPermitted | unknownRequest
  deriving DecidableEq, Repr

/-- Which of a position's two senders made a request: the turret on its link, or its running sequence (R153). -/
inductive Via where
  | link
  | run
  deriving DecidableEq, Repr

/-! ## Line Control Unit (chapters 1 and 2) -/

/-- Kind of a line (R3). -/
inductive LineKind where
  | unused | ringdown | automatic | hoot
  deriving DecidableEq, Repr

/-- Call state of a line, in the code order of R179 (R3). -/
inductive LineState where
  | outOfService | idle | incoming | outgoing | connected | held | releasing | attached
  deriving DecidableEq, Repr

/-- Direction of a call (R3). -/
inductive Direction where
  | incoming | outgoing
  deriving DecidableEq, Repr

/-- The configuration that LINE_CONFIG carries (R4). -/
structure LineConfig where
  kind : LineKind
  bridgeLimit : Nat
  answerPrivate : Bool
  recordRequired : Bool
  receiveLevel : Level
  bridgeLevel : Level
  sendLevel : Level
  idleSample : Sample
  qualifyCount : Level
  answerCount : Level
  ringOutCount : Level
  recallCount : Level
  guardCount : Level
  deriving DecidableEq, Repr

/-- An entry of a connected list (R3). `covered` says that RTU granted a reservation for the handset on this line, which
LCU releases at the leaving (R11). DEDUCED: notes/assumptions/16.md. -/
structure Conn where
  pos : Pos
  hs : Handset
  covered : Bool
  deriving DecidableEq, Repr

/-- A line record (R3), with the talk flag (R53), the hold that LCU keeps during an attachment (R62), and the mark of a
line that a soft reset has put in IDLE (R27). -/
structure LineRec where
  cfg : LineConfig
  hoot : Option Grp
  state : LineState
  raw : Bool
  qualified : Bool
  candidate : Option Bool
  qualifyTimer : Timer
  stateTimer : Timer
  nearSeize : Bool
  ringOut : Bool
  direction : Option Direction
  privacy : Bool
  connected : List Conn
  owner : Option Pos
  talk : Bool
  attachHold : Bool
  resetIdle : Bool
  deriving DecidableEq, Repr

/-- Mode of an appearance, in the code order of R179 (R28). -/
inductive AppMode where
  | none | full | listen
  deriving DecidableEq, Repr

/-- An appearance record (R28). -/
structure Appearance where
  mode : AppMode
  barred : Bool
  deriving DecidableEq, Repr

/-- A take that waits at LCU for RTU's answer (R10), with the direction asked for. `ended` is present once the take has been
refused by R51 and only its grant is still to be released; it says whether a soft reset ended it.
DEDUCED: notes/assumptions/15.md. -/
structure Waiting where
  pos : Pos
  hs : Handset
  via : Via
  line : Line
  direction : Direction
  ended : Option Bool
  deriving DecidableEq, Repr

/-- The records of LCU. -/
structure Lcu where
  lines : Table 64 LineRec
  apps : Table 64 (Table 16 Appearance)
  waiting : List Waiting
  deriving DecidableEq, Repr

/-! ## Position Table (chapter 2) -/

/-- The claim of a handset (R31). A pending claim says which request it belongs to (R35).
DEDUCED: notes/assumptions/13.md. -/
inductive Claim where
  | none
  | pending (via : Via)
  | line (l : Line)
  | group (g : Grp)
  | call (c : CallNo)
  deriving DecidableEq, Repr

/-- What a speaker carries (R31). -/
inductive Target where
  | none
  | line (l : Line)
  | group (g : Grp)
  deriving DecidableEq, Repr

/-- An assignment waiting mark that is ON (R31), with what PTB must know of the time since it asked: whether the position
has gone DOWN (R65) and whether PTB has taken a soft reset (R175). DEDUCED: notes/assumptions/15.md. -/
structure Asking where
  via : Via
  sawDown : Bool
  sawReset : Bool
  deriving DecidableEq, Repr

/-- The settings that POSITION_CONFIG carries, in the order of R33. -/
structure Settings where
  alertSpeaker : Spk
  sidetone : Level
  handsetDuck : Level
  talkingDuck : Level
  alertLevel : Level
  attentionLevel : Level
  floorLevel : Fin 4
  fair : Bool
  vox : Bool
  deriving DecidableEq, Repr

/-- A position record (R31). -/
structure PosRec where
  up : Bool
  claim : Pair Claim
  mute : Pair Bool
  assign : Table 6 Target
  asking : Table 6 (Option Asking)
  volume : Table 6 Level
  settings : Settings
  deriving DecidableEq, Repr

/-- The records of PTB. -/
structure Ptb where
  positions : Table 16 PosRec
  deriving DecidableEq, Repr

/-! ## Group and Floor Unit (chapters 3 and 4) -/

/-- Kind of a group (R56). -/
inductive GroupKind where
  | unused | intercom | hoot
  deriving DecidableEq, Repr

/-- Origin of an engagement (R76). -/
inductive Origin where
  | explicit | vox
  deriving DecidableEq, Repr

/-- The holder of a floor (R76). -/
structure Holder where
  pos : Pos
  level : Fin 4
  latched : Bool
  pinned : Bool
  origin : Origin
  deriving DecidableEq, Repr

/-- An entry of a wait queue or of a deferred list (R76). -/
structure Waiter where
  pos : Pos
  level : Fin 4
  latched : Bool
  origin : Origin
  deriving DecidableEq, Repr

/-- An entry of an open talker list (R76). -/
structure Talker where
  pos : Pos
  origin : Origin
  deriving DecidableEq, Repr

/-- A floor record (R76). -/
structure Floor where
  holder : Option Holder
  wait : List Waiter
  deferred : List Waiter
  served : PosSet
  talkers : List Talker
  holdTimer : Timer
  deriving DecidableEq, Repr

/-- A group record (R56); `openMode` is ON for OPEN and OFF for MANAGED. -/
structure GroupRec where
  kind : GroupKind
  allow : PosSet
  talkLevel : Level
  joined : List (Pos × Handset)
  openMode : Bool
  holdLimit : Level
  attached : List Line
  listening : PosSet
  floor : Floor
  deriving DecidableEq, Repr

/-- An intercom call record (R67): FREE, ALERTING with its alert timer, or ACTIVE. -/
inductive CallRec where
  | free
  | alerting (pos : Pos) (hs : Handset) (callee : Pos) (voice : Bool) (timer : Timer)
  | active (pos : Pos) (hs : Handset) (callee : Pos) (calleeHs : Handset) (voice : Bool)
  deriving DecidableEq, Repr

/-- The records of GFU: groups, calls, the call alert count (R67), the standing images and the UPs that have overtaken their
position-down notice (R56): for each position, how many UPs GFU keeps, each for the notice that it follows. -/
structure Gfu where
  groups : Table 16 GroupRec
  calls : Table 8 CallRec
  alertCount : Level
  up : PosSet
  keptUp : Table 16 Nat
  deriving DecidableEq, Repr

/-! ## Conference Mixer (chapters 5 and 6) -/

/-- An entry of a mix list (R97). -/
structure MixEntry where
  src : Src
  level : Level
  gated : Bool
  deriving DecidableEq, Repr

/-- One leg: its installed list and idle value (R97), leg level (R123), clip counter (R121) and the output sample of the
last audio frame (R119). -/
structure LegRec where
  list : List MixEntry
  idle : Sample
  level : Level
  clip : Nat
  out : Sample
  deriving DecidableEq, Repr

/-- State of an activity detector (R127). -/
inductive Activity where
  | quiet | active | hanging
  deriving DecidableEq, Repr

/-- An activity detector (R127). -/
structure Detector where
  envelope : Nat
  state : Activity
  hang : Nat
  deriving DecidableEq, Repr

/-- A configuration set of the detectors (R129). -/
structure DetectorSet where
  on : Nat
  off : Nat
  hang : Level
  deriving DecidableEq, Repr

/-- The derivation in progress: its leg, the derived list before truncation and the idle value, computed from the state as
it stood at the start (R100). -/
structure Derivation where
  leg : Leg
  list : List MixEntry
  idle : Sample
  deriving DecidableEq, Repr

/-- The records of CMX. -/
structure Cmx where
  legs : Table 208 LegRec
  free : Nat
  awaited : Table 208 Bool
  truncated : Table 208 Bool
  inProgress : Option Derivation
  detectors : Table 112 Detector
  micSet : DetectorSet
  lineSet : DetectorSet
  alertCount : Nat
  attentionCount : Nat
  deriving DecidableEq, Repr

/-! ## Record Tap Unit (chapter 7) -/

/-- Target of a tap (R133). -/
inductive TapTarget where
  | none
  | handset (p : Pos) (h : Handset)
  | line (l : Line)
  | group (g : Grp)
  deriving DecidableEq, Repr

/-- Lock of a tap (R133). -/
inductive Lock where
  | opened | locked | fixed
  deriving DecidableEq, Repr

/-- An entry of a coverage list (R133). -/
structure Cover where
  pos : Pos
  hs : Handset
  line : Line
  deriving DecidableEq, Repr

/-- A tap record (R133). -/
structure TapRec where
  target : TapTarget
  receive : Bool
  send : Bool
  incoming : Bool
  outgoing : Bool
  enabled : Bool
  lock : Lock
  coverage : List Cover
  present : Bool
  deriving DecidableEq, Repr

/-- The records of RTU: the taps and the recording fault marks of the handsets (R133). -/
structure Rtu where
  taps : Table 16 TapRec
  faults : Table 16 (Pair Bool)
  deriving DecidableEq, Repr

/-! ## Sequence Unit (chapter 8) -/

/-- Action of a step (R144): none, a pause, or the request it makes. -/
inductive Action where
  | none
  | pause
  | request (k : ReqKind)
  deriving DecidableEq, Repr

/-- The three operand bytes of a step (R144, R182). -/
structure Operands where
  op1 : Byte
  op2 : Byte
  op3 : Byte
  deriving DecidableEq, Repr

/-- A step record (R144); `next` is absent for END. -/
structure StepRec where
  action : Action
  operands : Operands
  notify : Bool
  next : Option StepNo
  mask : PosSet
  deriving DecidableEq, Repr

/-- State of a run record with the fields present in it (R147). -/
inductive RunState where
  | idle
  | waiting (next first : StepNo) (abort : Bool)
  | pausing (next first : StepNo) (timer : Timer)
  | draining
  deriving DecidableEq, Repr

/-- A run record (R147). -/
structure RunRec where
  state : RunState
  done : Nat
  deriving DecidableEq, Repr

/-- The records of SQU. -/
structure Squ where
  steps : Table 256 StepRec
  runs : Table 16 RunRec
  deriving DecidableEq, Repr

/-! ## Event Unit (chapter 10) -/

/-- The event classes, in the code order of R179. -/
inductive EventClass where
  | line | floor | call | sequence | system
  deriving DecidableEq, Repr

/-- Reasons of LINE_STATE (R25). -/
inductive StateReason where
  | none | answered | missed | abandoned
  deriving DecidableEq, Repr

/-- Reasons of a forced release (R11, R61, R71 to R74). -/
inductive ReleaseReason where
  | noAnswer | farCleared | removed | declined | callEnded
  deriving DecidableEq, Repr

/-- Reasons of FLOOR_LOST (R95). -/
inductive LostReason where
  | preempted | handedOver | timedOut | unpinned | modeChanged | left | removed
  deriving DecidableEq, Repr

/-- What ends a run with SEQ_STOPPED (R150). -/
inductive StopReason where
  | code (c : Code)
  | badStep | tooLong | aborted
  deriving DecidableEq, Repr

/-- The outcome of a loop test (R164). -/
inductive LoopOutcome where
  | good | frameError | checkError
  deriving DecidableEq, Repr

/-- The event records (R183). -/
inductive Event where
  | lineState (l : Line) (s : LineState) (count : Nat) (reason : StateReason) (privacy : Bool)
  | farStatus (l : Line) (on : Bool)
  | farSignal (l : Line)
  | ringDone (l : Line)
  | holdRecall (l : Line)
  | handsetReleased (l : Line) (h : Handset) (r : ReleaseReason)
  | speakerOffLine (l : Line) (k : Spk) (r : ReleaseReason)
  | speakerOffGroup (g : Grp) (k : Spk) (r : ReleaseReason)
  | talkOn (l : Line)
  | talkOff (l : Line)
  | recordingFault (l : Line) (h : Handset) (r : TapNo) (on : Bool)
  | floorGranted (g : Grp) (level : Fin 4) (latched pinned : Bool)
  | floorWait (g : Grp) (level : Fin 4)
  | floorDeferred (g : Grp) (level : Fin 4)
  | floorLost (g : Grp) (r : LostReason)
  | floorHolder (g : Grp) (p : Option Pos)
  | groupState (g : Grp) (count : Nat) (p : Pos) (left : Bool)
  | groupReleased (g : Grp) (h : Handset) (r : ReleaseReason)
  | callAlert (c : CallNo) (p : Pos) (h : Handset) (voice : Bool)
  | callAnswered (c : CallNo) (p : Pos) (h : Handset)
  | callReleased (c : CallNo) (h : Handset) (r : ReleaseReason)
  | callWithdrawn (c : CallNo) (r : ReleaseReason)
  | seqStep (k : StepNo) (a : Action) (done : Nat)
  | seqStopped (k : StepNo) (r : StopReason) (done : Nat)
  | seqDone (first : StepNo) (done : Nat)
  | positionUp (p : Pos)
  | positionDown (p : Pos)
  | linkUp (n : Port)
  | loopResult (n : Port) (o : LoopOutcome)
  | mixShort (k : Leg) (derived kept : Nat) (pool : Bool)
  | recorderLost (r : TapNo)
  | recorderRestored (r : TapNo)
  | systemReset
  | summary (c : EventClass)
  deriving DecidableEq, Repr

/-- What EVU holds for one port (R168). -/
structure EventPort where
  queue : List Event
  masked : Table 5 Bool
  marks : Table 5 Bool
  poll : Bool
  up : Bool
  deriving DecidableEq, Repr

/-- The records of EVU. -/
structure Evu where
  ports : Table 17 EventPort
  deriving DecidableEq, Repr

/-! ## Link Interface (chapters 9 and 11) -/

/-- Mode of a port (R163). -/
inductive PortMode where
  | normal | localLoop | remoteEcho
  deriving DecidableEq, Repr

/-- What the transmitter of a port is sending. -/
inductive TxKind where
  | reply | events | test
  deriving DecidableEq, Repr

/-- A frame the transmitter has begun (R155). DESIGN CHOICE: notes/assumptions/32.md. -/
structure TxFrame where
  what : TxKind
  frame : Frame
  deriving DecidableEq, Repr

/-- An outstanding loop test (R164): its body, and whether its frame has been sent. -/
structure LoopTest where
  body : List Byte
  sent : Bool
  deriving DecidableEq, Repr

/-- The request in flight of a port (R166): its tag and kind, and whether the port has gone DOWN since the dispatcher took it,
so that its reply is discarded. -/
structure InFlight where
  tag : Byte
  kind : Byte
  lost : Bool
  deriving DecidableEq, Repr

/-- One port of LKI (chapter 9). `linkOut` is the model's own: the bytes that the port's last step put on its outgoing
link. `loop` holds what the transmitter of a LOCAL_LOOP port has sent of its test frame and its receiver has not yet taken, as it
was sent; what comes back of it may be damaged (R163, R164). DESIGN CHOICE: notes/assumptions/9.md. -/
structure PortRec where
  rx : Rx
  align : Option (Fin 8)
  tx : Option TxFrame
  linkOut : List Byte
  loop : List Byte
  reply : Option Frame
  up : Bool
  mode : PortMode
  queue : List Frame
  inFlight : Option InFlight
  frameError : Bool
  checkError : Bool
  overrun : Bool
  lossTimer : Timer
  upTimer : Timer
  test : Option LoopTest
  deriving DecidableEq, Repr

/-- A soft reset in progress: which of the six owners have taken it (R174). -/
structure ResetProgress where
  ptb : Bool
  lcu : Bool
  gfu : Bool
  cmx : Bool
  rtu : Bool
  squ : Bool
  deriving DecidableEq, Repr

/-- The records of LKI: the ports, the reset arm state (R173), the soft reset in progress (R174) and the power-on flag
(R176). -/
structure Lki where
  ports : Table 17 PortRec
  armed : Bool
  softReset : Option ResetProgress
  powerOn : Bool
  deriving DecidableEq, Repr

/-! ## The paths between the blocks (introduction, section 4.2) -/

/-- A record that a block has given EVU and EVU has not yet taken (R168). -/
structure Given where
  block : Block
  port : Port
  event : Event
  deriving DecidableEq, Repr

/-- A message of LCU or GFU to PTB: the outcome of a connecting request (R35), a release notice (R36), the answer to a
speaker assignment (R64), or a removal notice (R37, R59). An answer's `early` says that its owner gave it before its own soft
reset and after PTB's (R175). DEDUCED: notes/assumptions/52.md. -/
inductive ToPtb where
  | outcome (p : Pos) (h : Handset) (via : Via) (result : Claim ⊕ Code)
  | released (p : Pos) (h : Handset) (claim : Claim)
  | answer (p : Pos) (k : Spk) (target : Target) (refusal : Option Code) (early : Bool)
  | remove (p : Pos) (target : Target)
  deriving DecidableEq, Repr

/-- A message of PTB to LCU or GFU: a forwarded request, a return notice (R35) or a speaker question (R64). -/
inductive ToOwner where
  | take (p : Pos) (h : Handset) (via : Via) (l : Line)
  | join (p : Pos) (h : Handset) (via : Via) (g : Grp)
  | call (p : Pos) (h : Handset) (via : Via) (callee : Byte) (voice : Bool)
  | answer (p : Pos) (h : Handset) (via : Via) (c : CallNo)
  | release (p : Pos) (h : Handset) (via : Via) (claim : Claim)
  | hold (p : Pos) (h : Handset) (via : Via) (l : Line)
  | giveBack (p : Pos) (h : Handset) (claim : Claim)
  | speaker (p : Pos) (k : Spk) (target : Target)
  deriving DecidableEq, Repr

/-- A listening notice of PTB to GFU (R66), marked when it belongs to a soft reset (R77). -/
structure Listening where
  pos : Pos
  grp : Grp
  on : Bool
  ofReset : Bool
  deriving DecidableEq, Repr

/-- A message of LCU to RTU (R138, R139). -/
inductive ToRtu where
  | reserve (p : Pos) (h : Handset) (l : Line) (d : Direction)
  | release (p : Pos) (h : Handset) (l : Line) (ofReset : Bool)
  deriving DecidableEq, Repr

/-- RTU's answer to a reservation (R138). -/
structure RtuAnswer where
  pos : Pos
  hs : Handset
  granted : Bool
  deriving DecidableEq, Repr

/-- A message of GFU to LCU about an attachment (R62): the question, or the outcome. -/
inductive AttachToLcu where
  | question (l : Line) (g : Grp)
  | outcome (l : Line) (attached : Option Grp)
  deriving DecidableEq, Repr

/-- A message of LCU to GFU about a hoot line: the answer to the question, with the line's state, kind and attached group
(R62), or the notice that the line has gone out of service (R63). -/
inductive AttachToGfu where
  | answer (l : Line) (g : Grp) (state : LineState) (kind : LineKind) (hoot : Option Grp)
  | removal (l : Line) (g : Grp)
  deriving DecidableEq, Repr

/-- A step that SQU has submitted to its owner and the owner has not yet taken (R149). -/
structure Submission where
  kind : ReqKind
  operands : Operands
  deriving DecidableEq, Repr

/-- The messages that are on their way between blocks, each list oldest first. -/
structure Chan where
  given : List Given
  notices : List Subject
  fromLcu : List ToPtb
  fromGfu : List ToPtb
  toLcu : List ToOwner
  toGfu : List ToOwner
  listening : List Listening
  ups : List Pos
  downPtb : List Pos
  downLcu : List Pos
  downGfu : List Pos
  downSqu : List Pos
  downEvu : List Port
  toRtu : List ToRtu
  fromRtu : List RtuAnswer
  attachToLcu : List AttachToLcu
  attachToGfu : List AttachToGfu
  talk : List (Line × Bool)
  vox : List (Pos × Bool)
  submitted : Table 16 (Option Submission)
  outcomes : Table 16 (Option Code)
  deriving DecidableEq, Repr

/-! ## The machine -/

/-- The state of the part, and the queue of the commands that wait, first in, first out. `ticks` is the free-running
timebase of R2, counted in 8 ms ticks within one second. -/
structure State where
  lki : Lki
  ptb : Ptb
  lcu : Lcu
  gfu : Gfu
  cmx : Cmx
  rtu : Rtu
  squ : Squ
  evu : Evu
  chan : Chan
  ticks : Nat
  pending : List Instr
  deriving DecidableEq, Repr

/-! ## Power-on reset -/

/-- The defaults of R4. -/
def LineConfig.reset : LineConfig :=
  { kind := .unused, bridgeLimit := 4, answerPrivate := true, recordRequired := false, receiveLevel := 128,
    bridgeLevel := 128, sendLevel := 128, idleSample := 0, qualifyCount := 5, answerCount := 30, ringOutCount := 125,
    recallCount := 60, guardCount := 5 }

/-- A line record after power-on reset, given its far-seize input (R26). -/
def LineRec.reset (far : Bool) : LineRec :=
  { cfg := LineConfig.reset, hoot := none, state := .outOfService, raw := far, qualified := false,
    candidate := if far then some true else none, qualifyTimer := if far then some 5 else none, stateTimer := none,
    nearSeize := false, ringOut := false, direction := none, privacy := false, connected := [], owner := none,
    talk := false, attachHold := false, resetIdle := false }

/-- LCU after power-on reset (R26, R28). -/
def Lcu.reset (far : Vector Bool 64) : Lcu :=
  { lines := Table.build fun l => LineRec.reset (Table.look far l),
    apps := Table.fill (Table.fill { mode := .none, barred := true }), waiting := [] }

/-- The settings after power-on reset (R32). -/
def Settings.reset : Settings :=
  { alertSpeaker := 5, sidetone := 16, handsetDuck := 48, talkingDuck := 0, alertLevel := 64, attentionLevel := 32,
    floorLevel := 0, fair := false, vox := false }

/-- A position record after power-on reset (R32). -/
def PosRec.reset : PosRec :=
  { up := false, claim := ⟨.none, .none⟩, mute := ⟨false, false⟩, assign := Table.fill .none, asking := Table.fill none,
    volume := Table.fill 96, settings := Settings.reset }

/-- PTB after power-on reset (R32). -/
def Ptb.reset : Ptb := { positions := Table.fill PosRec.reset }

/-- An empty floor record (R77). -/
def Floor.empty : Floor :=
  { holder := none, wait := [], deferred := [], served := Table.fill false, talkers := [], holdTimer := none }

/-- A group record after power-on reset (R57). -/
def GroupRec.reset : GroupRec :=
  { kind := .unused, allow := Table.fill false, talkLevel := 128, joined := [], openMode := false, holdLimit := 0,
    attached := [], listening := Table.fill false, floor := Floor.empty }

/-- GFU after power-on reset (R56, R57, R67). -/
def Gfu.reset : Gfu :=
  { groups := Table.fill GroupRec.reset, calls := Table.fill .free, alertCount := 20, up := Table.fill false,
    keptUp := Table.fill 0 }

/-- A detector after power-on reset (R132). -/
def Detector.reset : Detector := { envelope := 0, state := .quiet, hang := 0 }

/-- The defaults of a detector set (R129). -/
def DetectorSet.reset : DetectorSet := { on := 1000, off := 500, hang := 25 }

/-- CMX after power-on reset (R98, R132). DESIGN CHOICE: notes/assumptions/8.md. -/
def Cmx.reset : Cmx :=
  { legs := Table.fill { list := [], idle := 0, level := 128, clip := 0, out := 0 }, free := Config.poolSize,
    awaited := Table.fill false, truncated := Table.fill false, inProgress := none,
    detectors := Table.fill Detector.reset, micSet := DetectorSet.reset, lineSet := DetectorSet.reset, alertCount := 0,
    attentionCount := 0 }

/-- RTU after power-on reset, given the recorder-present inputs (R134). -/
def Rtu.reset (present : Vector Bool 16) : Rtu :=
  { taps := Table.build fun r =>
      { target := .none, receive := false, send := false, incoming := false, outgoing := false, enabled := false,
        lock := .opened, coverage := [], present := Table.look present r },
    faults := Table.fill ⟨false, false⟩ }

/-- A step record after power-on reset (R144). -/
def StepRec.reset : StepRec :=
  { action := .none, operands := ⟨0, 0, 0⟩, notify := false, next := none, mask := Table.fill false }

/-- SQU after power-on reset (R144, R147). -/
def Squ.reset : Squ := { steps := Table.fill StepRec.reset, runs := Table.fill ⟨.idle, 0⟩ }

/-- EVU after power-on reset (R168). -/
def Evu.reset : Evu :=
  { ports := Table.fill
      { queue := [], masked := Table.fill false, marks := Table.fill false, poll := false, up := false } }

/-- A port after power-on reset (R165). -/
def PortRec.reset : PortRec :=
  { rx := Rx.hunting, align := none, tx := none, linkOut := fillPair, loop := [], reply := none, up := false,
    mode := .normal, queue := [], inFlight := none, frameError := false, checkError := false, overrun := false,
    lossTimer := none, upTimer := none, test := none }

/-- LKI after power-on reset (R165, R173, R176). -/
def Lki.reset : Lki := { ports := Table.fill PortRec.reset, armed := false, softReset := none, powerOn := true }

/-- The paths with nothing on them. -/
def Chan.reset : Chan :=
  { given := [], notices := [], fromLcu := [], fromGfu := [], toLcu := [], toGfu := [], listening := [], ups := [],
    downPtb := [], downLcu := [], downGfu := [], downSqu := [], downEvu := [], toRtu := [], fromRtu := [],
    attachToLcu := [], attachToGfu := [], talk := [], vox := [], submitted := Table.fill none,
    outcomes := Table.fill none }

/-- The part after power-on reset, given its inputs at the end of the reset and the commands that wait. -/
def State.poweredOn (far : Vector Bool 64) (present : Vector Bool 16) (pending : List Instr) : State :=
  { lki := Lki.reset, ptb := Ptb.reset, lcu := Lcu.reset far, gfu := Gfu.reset, cmx := Cmx.reset,
    rtu := Rtu.reset present, squ := Squ.reset, evu := Evu.reset, chan := Chan.reset, ticks := 0, pending := pending }

/-- The machine right after power-on reset, with every far-seize input OFF and every recorder present.
DESIGN CHOICE: notes/assumptions/7.md. -/
def State.reset : State := State.poweredOn (Table.fill false) (Table.fill true) []

end Sys2Proof.Machine
end

