-- ==== Sys2Proof/Machine/Formats.lean ====
section
/-! DEFINITION. The codes of fields, results and event records in bytes (chapter 12: R178, R179, R181, R183). -/

namespace Sys2Proof.Machine

/-- A number as one byte. -/
def byteOf (n : Nat) : Byte := BitVec.ofNat 8 n

/-- The byte of an absent optional field (R179). -/
def absentByte : Byte := 0xFF#8

/-- ON or OFF, or a flag, as a byte (R179). -/
def onByte (b : Bool) : Byte := if b then 1 else 0

/-- A handset as a byte (R179). -/
def handsetByte (h : Handset) : Byte := match h with
  | .A => 0
  | .B => 1

/-- A speaker as a byte, 01H to 06H (R179). -/
def speakerByte (k : Spk) : Byte := byteOf (k.val + 1)

/-- A number that may be absent (R179). -/
def optByte {n : Nat} (o : Option (Fin n)) : Byte := match o with
  | none => absentByte
  | some i => byteOf i.val

/-- A handset that may be absent (R179). -/
def optHandsetByte (o : Option Handset) : Byte := match o with
  | none => absentByte
  | some h => handsetByte h

/-- The result codes in code order from 00H (R178). -/
def codeOrder : List Code :=
  [.accepted, .handsetBusy, .outOfService, .badKind, .noAppearance, .listenOnly, .barred, .lineBusy, .isPrivate, .lineFull,
   .notRecorded, .notConnected, .shared, .notRingdown, .notMember, .groupFull, .groupBusy, .already, .micBusy,
   .notWaiting, .calleeDown, .calleeBusy, .noResource, .busy, .notRunning, .stepInUse, .tapLocked, .tapBusy, .tapInUse,
   .badTap, .badValue, .notPermitted, .unknownRequest]

/-- A result code as a byte (R178). -/
def Code.byte (c : Code) : Byte := byteOf (codeOrder.idxOf c)

/-- Line state (R179). -/
def LineState.byte (s : LineState) : Byte := match s with
  | .outOfService => 0 | .idle => 1 | .incoming => 2 | .outgoing => 3
  | .connected => 4 | .held => 5 | .releasing => 6 | .attached => 7

/-- Line kind (R179). -/
def LineKind.byte (k : LineKind) : Byte := match k with
  | .unused => 0 | .ringdown => 1 | .automatic => 2 | .hoot => 3

/-- Direction, FFH when absent (R179). -/
def directionByte (d : Option Direction) : Byte := match d with
  | none => absentByte
  | some .incoming => 0
  | some .outgoing => 1

/-- A far-seize value that may be absent, such as the qualify candidate (R179). -/
def optOnByte (o : Option Bool) : Byte := match o with
  | none => absentByte
  | some b => onByte b

/-- Appearance mode (R179). -/
def AppMode.byte (m : AppMode) : Byte := match m with
  | .none => 0 | .full => 1 | .listen => 2

/-- Group kind (R179). -/
def GroupKind.byte (k : GroupKind) : Byte := match k with
  | .unused => 0 | .intercom => 1 | .hoot => 2

/-- Origin (R179). -/
def Origin.byte (o : Origin) : Byte := match o with
  | .explicit => 0 | .vox => 1

/-- A claim: its form and its number, FFH where the form has none (R179, R181). -/
def Claim.bytes (c : Claim) : List Byte := match c with
  | .none => [0, absentByte]
  | .pending _ => [1, absentByte]
  | .line l => [2, byteOf l.val]
  | .group g => [3, byteOf g.val]
  | .call c => [4, byteOf c.val]

/-- A speaker assignment: its form and its number (R179, R181). -/
def Target.bytes (t : Target) : List Byte := match t with
  | .none => [0, absentByte]
  | .line l => [1, byteOf l.val]
  | .group g => [2, byteOf g.val]

/-- The target of a tap, laid out as bytes 1 to 3 of TAP_SET, unused bytes 00H (R179, R181). -/
def TapTarget.bytes (t : TapTarget) : List Byte := match t with
  | .none => [0, 0, 0]
  | .handset p h => [1, byteOf p.val, handsetByte h]
  | .line l => [2, byteOf l.val, 0]
  | .group g => [3, byteOf g.val, 0]

/-- Lock (R179). -/
def Lock.byte (l : Lock) : Byte := match l with
  | .opened => 0 | .locked => 1 | .fixed => 2

/-- Detector state (R179). -/
def Activity.byte (a : Activity) : Byte := match a with
  | .quiet => 0 | .active => 1 | .hanging => 2

/-- Receiver state (R179). -/
def rxByte (x : RxState) : Byte := match x with
  | .hunt => 0 | .synced => 1 | .inFrame => 2

/-- Port mode (R179). -/
def PortMode.byte (m : PortMode) : Byte := match m with
  | .normal => 0 | .localLoop => 1 | .remoteEcho => 2

/-- The bits of a list of flags, the first in bit 0. -/
def bitsByte (l : List Bool) : Byte :=
  byteOf (l.foldr (fun b n => 2 * n + (if b then 1 else 0)) 0)

/-- A set of positions: positions 8 to 15 in the first byte, 0 to 7 in the second (R179). -/
def posSetBytes (q : PosSet) : List Byte :=
  [bitsByte (q.toList.drop 8), bitsByte (q.toList.take 8)]

/-- The positions of a set in position order. -/
def posList (q : PosSet) : List Pos := (List.finRange 16).filter fun p => q.look p

/-- A set of legs as a map of 26 bytes, leg 0 in bit 0 of the first byte (R179). -/
def legMap (q : Table 208 Bool) : List Byte :=
  (List.range 26).map fun i => bitsByte ((q.toList.drop (8 * i)).take 8)

/-- A number of two bytes, high byte first (R180, R181). -/
def wordBytes (n : Nat) : List Byte := twoBytes (BitVec.ofNat 16 n)

/-- A timer as a reply shows it (R179). -/
def timerByte (t : Timer) : Byte := onByte t.isSome

/-- Reason of LINE_STATE (R179). -/
def StateReason.byte (r : StateReason) : Byte := match r with
  | .none => 0 | .answered => 1 | .missed => 2 | .abandoned => 3

/-- Reason of a release (R179). -/
def ReleaseReason.byte (r : ReleaseReason) : Byte := match r with
  | .noAnswer => 1 | .farCleared => 2 | .removed => 3 | .declined => 4 | .callEnded => 5

/-- Reason of FLOOR_LOST (R179). -/
def LostReason.byte (r : LostReason) : Byte := match r with
  | .preempted => 1 | .handedOver => 2 | .timedOut => 3 | .unpinned => 4 | .modeChanged => 5 | .left => 6 | .removed => 7

/-- Result code or stop reason of SEQ_STOPPED (R178). -/
def StopReason.byte (r : StopReason) : Byte := match r with
  | .code c => c.byte
  | .badStep => 0xF0 | .tooLong => 0xF1 | .aborted => 0xF2

/-- Action byte of a step (R182). -/
def Action.byte (a : Action) : Byte := match a with
  | .none => 0
  | .pause => 1
  | .request k => k.code

/-- Event class (R179). -/
def EventClass.index (c : EventClass) : Fin 5 := match c with
  | .line => 0 | .floor => 1 | .call => 2 | .sequence => 3 | .system => 4

/-- The class of an event record; SUMMARY records belong to none (chapter 10, section 10.2). -/
def Event.class (e : Event) : Option EventClass := match e with
  | .lineState .. | .farStatus .. | .farSignal .. | .ringDone .. | .holdRecall .. | .handsetReleased .. | .speakerOffLine ..
  | .talkOn .. | .talkOff .. | .recordingFault .. => some .line
  | .floorGranted .. | .floorWait .. | .floorDeferred .. | .floorLost .. | .floorHolder .. | .speakerOffGroup .. =>
    some .floor
  | .groupState .. | .groupReleased .. | .callAlert .. | .callAnswered .. | .callReleased .. | .callWithdrawn .. =>
    some .call
  | .seqStep .. | .seqStopped .. | .seqDone .. => some .sequence
  | .positionUp .. | .positionDown .. | .linkUp .. | .loopResult .. | .mixShort .. | .recorderLost ..
  | .recorderRestored .. | .systemReset => some .system
  | .summary _ => none

/-- The five bytes of an event record, unused bytes 00H (R179, R183). -/
def Event.bytes (e : Event) : List Byte := match e with
  | .lineState l s n r pr =>
    [0x01, byteOf l.val, s.byte, byteOf n, r.byte ||| (if pr then 0x10 else 0)]
  | .farStatus l on => [0x02, byteOf l.val, onByte on, 0, 0]
  | .farSignal l => [0x03, byteOf l.val, 0, 0, 0]
  | .ringDone l => [0x04, byteOf l.val, 0, 0, 0]
  | .holdRecall l => [0x05, byteOf l.val, 0, 0, 0]
  | .handsetReleased l h r => [0x06, byteOf l.val, handsetByte h, r.byte, 0]
  | .speakerOffLine l k r => [0x07, byteOf l.val, speakerByte k, 0, r.byte]
  | .speakerOffGroup g k r => [0x07, byteOf g.val, speakerByte k, 1, r.byte]
  | .talkOn l => [0x08, byteOf l.val, 0, 0, 0]
  | .talkOff l => [0x09, byteOf l.val, 0, 0, 0]
  | .recordingFault l h r on => [0x0A, byteOf l.val, handsetByte h, byteOf r.val, onByte on]
  | .floorGranted g lv la pin => [0x10, byteOf g.val, byteOf lv.val, onByte la, onByte pin]
  | .floorWait g lv => [0x11, byteOf g.val, byteOf lv.val, 0, 0]
  | .floorDeferred g lv => [0x12, byteOf g.val, byteOf lv.val, 0, 0]
  | .floorLost g r => [0x13, byteOf g.val, r.byte, 0, 0]
  | .floorHolder g p => [0x14, byteOf g.val, optByte p, 0, 0]
  | .groupState g n p lf => [0x20, byteOf g.val, byteOf n, byteOf p.val, onByte lf]
  | .groupReleased g h r => [0x21, byteOf g.val, handsetByte h, r.byte, 0]
  | .callAlert c p h v => [0x22, byteOf c.val, byteOf p.val, handsetByte h, onByte v]
  | .callAnswered c p h => [0x23, byteOf c.val, byteOf p.val, handsetByte h, 0]
  | .callReleased c h r => [0x24, byteOf c.val, handsetByte h, r.byte, 0]
  | .callWithdrawn c r => [0x25, byteOf c.val, r.byte, 0, 0]
  | .seqStep k a n => [0x30, byteOf k.val, a.byte, byteOf n, 0]
  | .seqStopped k r n => [0x31, byteOf k.val, r.byte, byteOf n, 0]
  | .seqDone k n => [0x32, byteOf k.val, byteOf n, 0, 0]
  | .positionUp p => [0x40, byteOf p.val, 0, 0, 0]
  | .positionDown p => [0x41, byteOf p.val, 0, 0, 0]
  | .linkUp n => [0x42, byteOf n.val, 0, 0, 0]
  | .loopResult n o =>
    [0x43, byteOf n.val, (match o with | .good => 0 | .frameError => 1 | .checkError => 2), 0, 0]
  | .mixShort k d kept pool => [0x44, byteOf k.val, byteOf d, byteOf kept, if pool then 0 else 1]
  | .recorderLost r => [0x45, byteOf r.val, 0, 0, 0]
  | .recorderRestored r => [0x46, byteOf r.val, 0, 0, 0]
  | .systemReset => [0x47, 0, 0, 0, 0]
  | .summary c => [0x50, byteOf c.index.val, 0, 0, 0]

end Sys2Proof.Machine
end

