-- ==== Sys2Proof/Machine/Operands.lean ====
section
/-! DEFINITION. Reading the operands of a request from its body bytes (R179, R180, R182). A field whose byte is none of its
codes reads as absent, and its owner refuses it. -/

namespace Sys2Proof.Machine

/-- The byte at a place of a body. -/
def byteAt (body : List Byte) (i : Nat) : Byte := body.getD i 0

/-- A number below `n`, absent above its range. -/
def numOf (n : Nat) (b : Byte) : Option (Fin n) := if h : b.toNat < n then some ⟨b.toNat, h⟩ else none

/-- A byte as a number 0 to 255. -/
def levelOf (b : Byte) : Level := b.toFin

/-- A handset byte (R179). -/
def handsetOf (b : Byte) : Option Handset := if b = 0 then some .A else if b = 1 then some .B else none

/-- An ON or OFF byte that is refused outside its codes (R179). -/
def onOffOf (b : Byte) : Option Bool := if b = 0 then some false else if b = 1 then some true else none

/-- A flag byte, of which bit 0 alone is read (R179). -/
def flagOf (b : Byte) : Bool := b.getLsbD 0

/-- A speaker byte, 01H to 06H (R179). -/
def speakerOf (b : Byte) : Option Spk := if b = 0 then none else numOf 6 (b - 1)

/-- The target of ASSIGN_SPEAKER (R180). -/
def targetOf (form num : Byte) : Option Target :=
  if form = 0 then some .none
  else if form = 1 then (numOf 64 num).map .line
  else if form = 2 then (numOf 16 num).map .group
  else none

/-- The target of TAP_SET (R180). -/
def tapTargetOf (form num hs : Byte) : Option TapTarget :=
  if form = 0 then some .none
  else if form = 1 then (numOf 16 num).bind fun p => (handsetOf hs).map fun h => .handset p h
  else if form = 2 then (numOf 64 num).map .line
  else if form = 3 then (numOf 16 num).map .group
  else none

/-- A set of positions from its two bytes (R179). -/
def posSetOf (hi lo : Byte) : PosSet :=
  Table.build fun p => if p.val < 8 then lo.getLsbD p.val else hi.getLsbD (p.val - 8)

/-- A number of two bytes, high byte first (R180). -/
def wordOf (hi lo : Byte) : BitVec 16 := hi ++ lo

/-- Line kind (R179). -/
def lineKindOf (b : Byte) : Option LineKind :=
  if b = 0 then some .unused else if b = 1 then some .ringdown else if b = 2 then some .automatic
  else if b = 3 then some .hoot else none

/-- Appearance mode (R179). -/
def appModeOf (b : Byte) : Option AppMode :=
  if b = 0 then some .none else if b = 1 then some .full else if b = 2 then some .listen else none

/-- Group kind (R179). -/
def groupKindOf (b : Byte) : Option GroupKind :=
  if b = 0 then some .unused else if b = 1 then some .intercom else if b = 2 then some .hoot else none

/-- Port mode (R179). -/
def portModeOf (b : Byte) : Option PortMode :=
  if b = 0 then some .normal else if b = 1 then some .localLoop else if b = 2 then some .remoteEcho else none

/-- The requests that a step may make (R144). -/
def stepKinds : List ReqKind :=
  [.takeLine, .release, .hold, .signalLine, .setPrivacy, .assignSpeaker, .setVolume, .joinGroup, .floorRequest,
   .floorRelease, .callPosition]

/-- The action of a step record (R182). -/
def actionOf (b : Byte) : Option Action :=
  if b = 0 then some .none
  else if b = 1 then some .pause
  else match reqKindOf b with
    | some k => if k ∈ stepKinds then some (.request k) else none
    | none => none

/-- The operand bytes of a step as a body. -/
def Operands.bytes (o : Operands) : List Byte := [o.op1, o.op2, o.op3]

/-- A count clamped to at least 1 (R5, R67). -/
def atLeastOne (l : Level) : Level := if l = 0 then 1 else l

/-- A bridge limit clamped to 1 to 4 (R5). -/
def clampBridge (b : Byte) : Nat := if b = 0 then 1 else if 4 < b.toNat then 4 else b.toNat

/-- The configuration that a LINE_CONFIG body carries after its line byte, with the clamping of R5, absent when a coded
field holds none of its codes. -/
def lineConfigOf (body : List Byte) : Option LineConfig :=
  match lineKindOf (byteAt body 1), onOffOf (byteAt body 3), onOffOf (byteAt body 4) with
  | some kind, some answerPrivate, some recordRequired =>
    some { kind, bridgeLimit := clampBridge (byteAt body 2), answerPrivate, recordRequired
           receiveLevel := levelOf (byteAt body 5), bridgeLevel := levelOf (byteAt body 6)
           sendLevel := levelOf (byteAt body 7), idleSample := wordOf (byteAt body 8) (byteAt body 9)
           qualifyCount := atLeastOne (levelOf (byteAt body 10)), answerCount := atLeastOne (levelOf (byteAt body 11))
           ringOutCount := levelOf (byteAt body 12), recallCount := levelOf (byteAt body 13)
           guardCount := levelOf (byteAt body 14) }
  | _, _, _ => none

/-- The settings that a POSITION_CONFIG body carries after its position byte, absent when the alert speaker or the floor
level is out of range (R33). DEDUCED: notes/assumptions/22.md. -/
def settingsOf (body : List Byte) : Option Settings :=
  match speakerOf (byteAt body 1), numOf 4 (byteAt body 7) with
  | some alertSpeaker, some floorLevel =>
    some { alertSpeaker, sidetone := levelOf (byteAt body 2), handsetDuck := levelOf (byteAt body 3)
           talkingDuck := levelOf (byteAt body 4), alertLevel := levelOf (byteAt body 5)
           attentionLevel := levelOf (byteAt body 6), floorLevel, fair := flagOf (byteAt body 8)
           vox := flagOf (byteAt body 9) }
  | _, _ => none

/-- The step record of a STEP_WRITE body after its step byte, absent when the action is none of R144's (R182). -/
def stepOf (body : List Byte) : Option StepRec :=
  (actionOf (byteAt body 1)).map fun action =>
    { action, operands := ⟨byteAt body 2, byteAt body 3, byteAt body 4⟩, notify := (byteAt body 5).getLsbD 0
      next := if (byteAt body 5).getLsbD 1 then none else some (byteAt body 6).toFin
      mask := posSetOf (byteAt body 7) (byteAt body 8) }

end Sys2Proof.Machine
end

