-- ==== Sys2Proof/Machine/Ops.lean ====
section
/-! DEFINITION. The operations that the meanings share: reading and replacing one record, sending messages between blocks,
taking a request from a port or from a run, and answering it. -/

namespace Sys2Proof.Machine

/-! ## Numbers -/

/-- The port of a position (R1). -/
def portOf (p : Pos) : Port := p.castSucc

/-- The management port (R1). -/
def mgmt : Port := 16

/-- The position of a port, absent for port 16 (R1). -/
def posOf (n : Port) : Option Pos := if h : n.val < 16 then some ⟨n.val, h⟩ else none

/-- The position that a requester acts for (R38). -/
def requesterPos (r : Requester) : Option Pos := match r with
  | .port n => posOf n
  | .run p => some p

/-- Which of a position's senders a requester is (R153). -/
def requesterVia (r : Requester) : Via := match r with
  | .port _ => .link
  | .run _ => .run

/-- The requester for a position and a sender. -/
def requesterOf (p : Pos) (v : Via) : Requester := match v with
  | .link => .port (portOf p)
  | .run => .run p

/-! ## Messages between the blocks -/

/-- What a block sends while it takes one thing. -/
structure Sends where
  given : List Given := []
  notices : List Subject := []
  fromLcu : List ToPtb := []
  fromGfu : List ToPtb := []
  toLcu : List ToOwner := []
  toGfu : List ToOwner := []
  toRtu : List ToRtu := []
  listening : List Listening := []
  deriving DecidableEq, Repr

/-- One thing sent after another. -/
def Sends.and (a b : Sends) : Sends :=
  { given := a.given ++ b.given, notices := a.notices ++ b.notices, fromLcu := a.fromLcu ++ b.fromLcu,
    fromGfu := a.fromGfu ++ b.fromGfu, toLcu := a.toLcu ++ b.toLcu, toGfu := a.toGfu ++ b.toGfu, toRtu := a.toRtu ++ b.toRtu,
    listening := a.listening ++ b.listening }

/-- Several things sent in order. -/
def Sends.all (l : List Sends) : Sends := l.foldr Sends.and {}

/-- An event record given to EVU for one port. -/
def record (b : Block) (n : Port) (e : Event) : Sends := { given := [⟨b, n, e⟩] }

/-- The same event record given for several positions, in the order of the list. -/
def records (b : Block) (ps : List Pos) (e : Event) : Sends := { given := ps.map fun p => ⟨b, portOf p, e⟩ }

/-- A change notice to CMX. -/
def notice (q : Subject) : Sends := { notices := [q] }

/-- The paths with more on them. -/
def Chan.add (c : Chan) (o : Sends) : Chan :=
  { c with
    given := c.given ++ o.given, notices := c.notices ++ o.notices, fromLcu := c.fromLcu ++ o.fromLcu
    fromGfu := c.fromGfu ++ o.fromGfu, toLcu := c.toLcu ++ o.toLcu, toGfu := c.toGfu ++ o.toGfu, toRtu := c.toRtu ++ o.toRtu
    listening := c.listening ++ o.listening }

/-- The state after a block has sent something. -/
def State.emit (s : State) (o : Sends) : State := { s with chan := s.chan.add o }

/-! ## One record at a time -/

/-- The record of a port at LKI. -/
def State.port (s : State) (n : Port) : PortRec := s.lki.ports.look n
/-- The state with one port record replaced. -/
def State.setPort (s : State) (n : Port) (r : PortRec) : State :=
  { s with lki := { s.lki with ports := s.lki.ports.put n r } }
/-- The record of a position at PTB. -/
def State.pos (s : State) (p : Pos) : PosRec := s.ptb.positions.look p
/-- The state with one position record replaced. -/
def State.setPos (s : State) (p : Pos) (r : PosRec) : State :=
  { s with ptb := { s.ptb with positions := s.ptb.positions.put p r } }
/-- The record of a line at LCU. -/
def State.line (s : State) (l : Line) : LineRec := s.lcu.lines.look l
/-- The state with one line record replaced. -/
def State.setLine (s : State) (l : Line) (r : LineRec) : State :=
  { s with lcu := { s.lcu with lines := s.lcu.lines.put l r } }
/-- The appearances of a line. -/
def State.row (s : State) (l : Line) : Table 16 Appearance := s.lcu.apps.look l
/-- The record of a group at GFU. -/
def State.group (s : State) (g : Grp) : GroupRec := s.gfu.groups.look g
/-- The state with one group record replaced. -/
def State.setGroup (s : State) (g : Grp) (r : GroupRec) : State :=
  { s with gfu := { s.gfu with groups := s.gfu.groups.put g r } }
/-- The record of an intercom call at GFU. -/
def State.call (s : State) (c : CallNo) : CallRec := s.gfu.calls.look c
/-- The state with one call record replaced. -/
def State.setCall (s : State) (c : CallNo) (r : CallRec) : State :=
  { s with gfu := { s.gfu with calls := s.gfu.calls.put c r } }
/-- The record of a tap at RTU. -/
def State.tap (s : State) (r : TapNo) : TapRec := s.rtu.taps.look r
/-- The state with one tap record replaced. -/
def State.setTap (s : State) (r : TapNo) (t : TapRec) : State :=
  { s with rtu := { s.rtu with taps := s.rtu.taps.put r t } }
/-- The run record of a position at SQU. -/
def State.runOf (s : State) (p : Pos) : RunRec := s.squ.runs.look p
/-- The state with one run record replaced. -/
def State.setRun (s : State) (p : Pos) (r : RunRec) : State :=
  { s with squ := { s.squ with runs := s.squ.runs.put p r } }
/-- What EVU holds for a port. -/
def State.events (s : State) (n : Port) : EventPort := s.evu.ports.look n
/-- The state with what EVU holds for one port replaced. -/
def State.setEvents (s : State) (n : Port) (e : EventPort) : State :=
  { s with evu := { s.evu with ports := s.evu.ports.put n e } }
/-- The leg record of a leg at CMX. -/
def State.leg (s : State) (k : Leg) : LegRec := s.cmx.legs.look k
/-- The state with one leg record replaced. -/
def State.setLeg (s : State) (k : Leg) (r : LegRec) : State :=
  { s with cmx := { s.cmx with legs := s.cmx.legs.put k r } }
/-- The state with other messages on the paths. -/
def State.setChan (s : State) (c : Chan) : State := { s with chan := c }

/-! ## Timers -/

/-- Whether a timer has run out: its ticks have passed and its owner has yet to take the expiry (R2). A timer that is
started again or stopped meanwhile has not (R82). DEDUCED: notes/assumptions/5.md. -/
def Timer.ran (t : Timer) : Bool := t == some 0

/-! ## The port dispatcher (R166) -/

/-- The frame that the dispatcher of a port would take next, if it is one that `ok` admits. The dispatcher takes a frame
when no request is in flight and no reply waits at the transmitter (R162: at most one reply waits).
DEDUCED: notes/assumptions/10.md. -/
def State.awaits (s : State) (n : Port) (ok : Frame → Bool) : Option Frame :=
  if (s.port n).inFlight.isNone && (s.port n).reply.isNone then
    match (s.port n).queue with
    | [] => none
    | f :: _ => if ok f then some f else none
  else none

/-- The dispatcher takes the oldest frame: it leaves the queue and becomes the request in flight (R166). On port 16 the
arm state moves: RESET_ARM arms, anything else disarms (R173). DEDUCED: notes/assumptions/23.md. -/
def State.takeFrame (s : State) (n : Port) (f : Frame) : State :=
  { s with lki := { s.lki with
      ports := s.lki.ports.put n
        { s.port n with queue := (s.port n).queue.tail, inFlight := some ⟨f.tag, f.kind, false⟩ }
      armed := if n = mgmt then f.kind == ReqKind.resetArm.code else s.lki.armed } }

/-- The outcome of a request given to its sender. For a port the dispatcher builds the reply, with the request's tag and
kind, and hands it to the transmitter, which discards it on a DOWN port, and the reply of a request that was in flight when the
port went DOWN although the port is UP again (R162, R166). DEDUCED: notes/assumptions/37.md. For a run the outcome goes to
SQU (R149). -/
def State.answer (s : State) (r : Requester) (c : Code) (body : List Byte := []) : State :=
  match r with
  | .port n =>
    match (s.port n).inFlight with
    | none => s
    | some q =>
      s.setPort n { s.port n with
        inFlight := none
        reply :=
          if (s.port n).up && !q.lost then some { tag := q.tag, kind := q.kind, body := c.byte :: body }
          else (s.port n).reply }
  | .run p => { s with chan := { s.chan with outcomes := s.chan.outcomes.put p (some c) } }

/-- One request of a port: the dispatcher takes the oldest frame if it is a request of this kind, makes checks 2 and 3 of
R166, and hands the body to the owner, which takes a well-formed one only where `ok` holds of it. Where the next frame is
another, or none can be taken, this is not the step that the part takes and nothing happens.
DEDUCED: notes/assumptions/11.md. -/
def State.dispatchIf (s : State) (k : ReqKind) (n : Port) (ok : List Byte → Bool)
    (own : List Byte → State → State) : State :=
  match s.awaits n fun f =>
      reqKindOf f.kind == some k && (ok f.body || !(k.permitted n && k.lengthOk f.body.length)) with
  | none => s
  | some f =>
    if !k.permitted n then (s.takeFrame n f).answer (.port n) .notPermitted
    else if !k.lengthOk f.body.length then (s.takeFrame n f).answer (.port n) .badValue
    else own f.body (s.takeFrame n f)

/-- One request of a port, whatever its body. -/
def State.dispatch (s : State) (k : ReqKind) (n : Port) (own : List Byte → State → State) : State :=
  s.dispatchIf k n (fun _ => true) own

/-- One step that a run has submitted, taken by its owner if it is a request of this kind (R149). -/
def State.takeStep (s : State) (k : ReqKind) (p : Pos) (own : List Byte → State → State) : State :=
  match s.chan.submitted.look p with
  | none => s
  | some q =>
    if q.kind = k then
      own q.operands.bytes { s with chan := { s.chan with submitted := s.chan.submitted.put p none } }
    else s

/-- A request of a position, sent on its port or by its running sequence; the owner is told the position and which of the
two senders it was (R38, R149). -/
def State.request (s : State) (k : ReqKind) (r : Requester) (own : Pos → Via → List Byte → State → State) : State :=
  match r with
  | .port n => s.dispatch k n fun body t => match posOf n with
    | some p => own p .link body t
    | none => t
  | .run p => s.takeStep k p fun body t => own p .run body t

/-- The answer to a position's request. -/
def State.reply (s : State) (p : Pos) (v : Via) (c : Code) : State := s.answer (requesterOf p v) c

end Sys2Proof.Machine
end

