-- ==== Sys2Proof/Machine/LineLogic.lean ====
section
/-! DEFINITION. What LCU does with one line record (chapter 1, and the parts of chapter 2 that act on a line): the state
machine of a line, the joining and leaving of handsets, and the records that each change gives. Each function takes a line
with its number and its appearances and answers the new line with what LCU sends. -/

namespace Sys2Proof.Machine

/-- A line after LCU has taken something, and what LCU sends meanwhile. -/
structure LineFx where
  line : LineRec
  out : Sends := {}
  deriving DecidableEq, Repr

/-! ## Who hears of a line -/

/-- The positions that hold a FULL or LISTEN appearance, barred or not: the recipients of LINE_STATE (R25). -/
def viewers (row : Table 16 Appearance) : List Pos :=
  (List.finRange 16).filter fun p => decide ((row.look p).mode ≠ .none)

/-- The positions that hold a FULL appearance, barred or not (R21). -/
def fullViewers (row : Table 16 Appearance) : List Pos :=
  (List.finRange 16).filter fun p => decide ((row.look p).mode = .full)

/-- The positions with at least one handset in the connected list, each once, in position order (R14). -/
def connectedPositions (l : LineRec) : List Pos :=
  (List.finRange 16).filter fun p => l.connected.any fun c => c.pos == p

/-- Whether a position has a handset in the connected list. -/
def LineRec.has (l : LineRec) (p : Pos) : Bool := l.connected.any fun c => c.pos == p

/-- The entry of a handset in the connected list, if it stands there. -/
def LineRec.entry (l : LineRec) (p : Pos) (h : Handset) : Option Conn :=
  l.connected.find? fun c => c.pos == p && c.hs == h

/-- The hold owner, or every FULL appearance when there is none (R21). -/
def holdHearers (row : Table 16 Appearance) (l : LineRec) : List Pos :=
  match l.owner with
  | some p => [p]
  | none => fullViewers row

/-! ## One event of a line and its LINE_STATE -/

/-- Whether an event of a line calls for LINE_STATE: state, connected count or privacy changed (R25). -/
def stateShown (old new : LineRec) : Bool :=
  decide (old.state ≠ new.state ∨ old.connected.length ≠ new.connected.length ∨ old.privacy ≠ new.privacy)

/-- Whether something that a mix depends on changed in a line: its state, connected list or direction.
DESIGN CHOICE: notes/assumptions/18.md. -/
def mixTouched (old new : LineRec) : Bool :=
  decide (old.state ≠ new.state ∨ old.connected ≠ new.connected ∨ old.direction ≠ new.direction)

/-- One event of a line: what it sent itself, then one LINE_STATE to every viewer if the line shows a change (R25), and one
LINE notice to CMX if a mix depends on what changed. -/
def lineEvent (num : Line) (row : Table 16 Appearance) (old : LineRec) (fx : LineFx) (why : StateReason) : LineFx :=
  let new := fx.line
  { line := new
    out := (fx.out.and
        (if stateShown old new then
          records .lcu (viewers row) (.lineState num new.state new.connected.length why new.privacy)
        else {})).and
      (if mixTouched old new then notice (.line num) else {}) }

/-! ## Transitions -/

/-- A started timer (R2, R9). -/
def startTimer (n : Level) : Timer := some n.val

/-- Into INCOMING: the answer timer runs on a RINGDOWN line and no timer on an AUTOMATIC one (R9, R12, R17). -/
def toIncoming (l : LineRec) : LineRec :=
  { l with
    state := .incoming, nearSeize := false, ringOut := false
    stateTimer := if l.cfg.kind = .ringdown then startTimer l.cfg.answerCount else none }

/-- Into IDLE, with the values that R12 lists. -/
def toIdle (l : LineRec) : LineRec :=
  { l with
    state := .idle, nearSeize := false, ringOut := false, stateTimer := none, direction := none, privacy := false
    connected := [], owner := none }

/-- The guard has ended: INCOMING if the qualified far seize is ON, else IDLE (R16, R20). -/
def guardEnd (l : LineRec) : LineRec :=
  if l.qualified then
    toIncoming { l with direction := none, privacy := false, connected := [], owner := none }
  else toIdle l

/-- Into RELEASING: the guard timer is started, ring out goes OFF, near seize stays ON (R14, R18, R19). -/
def toReleasing (l : LineRec) : LineRec :=
  { l with
    state := .releasing, nearSeize := true, ringOut := false, stateTimer := startTimer l.cfg.guardCount
    connected := [], owner := none }

/-- Into OUT_OF_SERVICE, with the effects of R23. -/
def toOutOfService (l : LineRec) : LineRec := { toIdle l with state := .outOfService, hoot := none }

/-- A line that has entered RELEASING with a guard count of 0 takes the guard expiry at once (R9).
DEDUCED: notes/assumptions/6.md. -/
def settleGuard (num : Line) (row : Table 16 Appearance) (old : LineRec) (fx : LineFx) : LineFx :=
  if old.state ≠ .releasing ∧ fx.line.state = .releasing ∧ fx.line.stateTimer = some 0 then
    lineEvent num row fx.line { line := guardEnd fx.line, out := fx.out } .none
  else fx

/-! ## Handsets leaving -/

/-- What LCU sends when a handset leaves a line: the release of its coverage and a POSITION notice (R11). -/
def leaveSends (num : Line) (c : Conn) : Sends :=
  { toRtu := if c.covered then [.release c.pos c.hs num false] else []
    notices := [.position c.pos] }

/-- What LCU sends when a handset leaves at the loss of its position (R11, R50); with `tellPtb` PTB has a release notice too:
DESIGN CHOICE, notes/assumptions/49.md. -/
def lossSends (num : Line) (tellPtb : Bool) (c : Conn) : Sends :=
  (leaveSends num c).and { fromLcu := if tellPtb then [.released c.pos c.hs (.line num)] else [] }

/-- What LCU sends when a handset leaves by forced release: HANDSET_RELEASED and the release notice besides (R11, R36). -/
def forceSends (num : Line) (why : ReleaseReason) (c : Conn) : Sends :=
  (record .lcu (portOf c.pos) (.handsetReleased num c.hs why)).and
    ((leaveSends num c).and { fromLcu := [.released c.pos c.hs (.line num)] })

/-- Some handsets leave the line; where the list becomes empty, an OUTGOING or CONNECTED line goes to RELEASING (R11, R14,
R18, R19). -/
def dropConns (l : LineRec) (gone : Conn → Bool) : LineRec :=
  let kept := l.connected.filter fun c => !gone c
  if kept = [] ∧ l.connected ≠ [] ∧ (l.state = .outgoing ∨ l.state = .connected) then
    toReleasing l
  else { l with connected := kept }

/-- The handsets that `gone` names leave, each sending what `send` gives, in list order; the whole is one event (R11, R50). -/
def leaveEvent (num : Line) (row : Table 16 Appearance) (l : LineRec) (gone : Conn → Bool) (send : Conn → Sends) :
    LineFx :=
  settleGuard num row l
    (lineEvent num row l
      { line := dropConns l gone, out := Sends.all ((l.connected.filter gone).map send) } .none)

/-- Every handset leaves by forced release and the line goes to RELEASING (R18, R19). -/
def clearCall (num : Line) (row : Table 16 Appearance) (l : LineRec) (why : ReleaseReason) : LineFx :=
  settleGuard num row l
    (lineEvent num row l
      { line := toReleasing l, out := Sends.all (l.connected.map (forceSends num why)) } .none)

/-! ## Far end -/

/-- A qualified rise reaching a line's state machine (R7, R12 to R20). -/
def qualifiedRise (num : Line) (row : Table 16 Appearance) (l : LineRec) : LineFx :=
  match l.cfg.kind with
  | .ringdown =>
    match l.state with
    | .idle => lineEvent num row l { line := toIncoming l } .none
    | .incoming => { line := { l with stateTimer := startTimer l.cfg.answerCount } }
    | .connected => { line := l, out := records .lcu (connectedPositions l) (.farSignal num) }
    | .held => { line := l, out := records .lcu (holdHearers row l) (.farSignal num) }
    | _ => { line := l }
  | .automatic =>
    match l.state with
    | .idle => lineEvent num row l { line := toIncoming l } .none
    | .outgoing => lineEvent num row l { line := { l with state := .connected, stateTimer := none } } .answered
    | _ => { line := l }
  | _ => { line := l }

/-- A qualified fall reaching a line's state machine (R7, R12 to R21). -/
def qualifiedFall (num : Line) (row : Table 16 Appearance) (l : LineRec) : LineFx :=
  match l.cfg.kind with
  | .automatic =>
    match l.state with
    | .incoming => lineEvent num row l { line := toIdle l } .abandoned
    | .connected => clearCall num row l .farCleared
    | .held => settleGuard num row l (lineEvent num row l { line := toReleasing l } .none)
    | _ => { line := l }
  | _ => { line := l }

/-- The expiry of the qualify timer (R7, R8). -/
def qualifyEnd (num : Line) (row : Table 16 Appearance) (l : LineRec) : LineFx :=
  let l' := { l with candidate := none, qualifyTimer := none }
  match l.candidate with
  | none => { line := l' }
  | some v =>
    if v = l.qualified then { line := l' }
    else
      let l'' := { l' with qualified := v }
      let fx := if v then qualifiedRise num row l'' else qualifiedFall num row l''
      { fx with out := (record .lcu mgmt (.farStatus num v)).and fx.out }

/-! ## Taking a line -/

/-- Check 5 of TAKE_LINE (R39). -/
def stateCheck (l : LineRec) (p : Pos) : Option Code :=
  match l.state with
  | .idle | .incoming | .releasing => none
  | .connected =>
    if l.privacy then some .isPrivate
    else if l.cfg.bridgeLimit ≤ l.connected.length then some .lineFull
    else none
  | .held =>
    if l.privacy && l.owner.isSome && l.owner != some p then some .isPrivate else none
  | .outgoing => some .lineBusy
  | .outOfService => some .outOfService
  | .attached => some .badKind

/-- Checks 2 to 5 of TAKE_LINE in their order (R38): the first that fails gives its code. -/
def takeCheck (l : LineRec) (a : Appearance) (p : Pos) : Option Code :=
  if l.state = .outOfService then some .outOfService
  else if l.cfg.kind = .hoot then some .badKind
  else if a.mode = .none then some .noAppearance
  else if a.mode = .listen then some .listenOnly
  else if a.barred then some .barred
  else stateCheck l p

/-- The direction that a line will have once a take completes (R10). -/
def directionAfter (l : LineRec) : Direction :=
  match l.state with
  | .incoming => .incoming
  | .connected | .held => l.direction.getD .outgoing
  | _ => .outgoing

/-- The line after a take has completed, and the reason of its LINE_STATE (R10, R12 to R21). -/
def takenLine (l : LineRec) (c : Conn) : LineRec × StateReason :=
  let j := { l with connected := l.connected ++ [c], nearSeize := true }
  let seized := { j with
    state := if l.cfg.kind = .automatic then .outgoing else .connected
    direction := some .outgoing, privacy := false
    stateTimer := if l.cfg.kind = .automatic then startTimer l.cfg.answerCount else none }
  match l.state with
  | .idle => (seized, .none)
  | .incoming =>
    ({ j with state := .connected, direction := some .incoming, privacy := l.cfg.answerPrivate, stateTimer := none },
     .answered)
  | .held => ({ j with state := .connected, owner := none, stateTimer := none }, .none)
  | .releasing =>
    if l.cfg.kind = .automatic ∧ l.qualified = true then
      ({ seized with state := .connected, stateTimer := none }, .none)
    else (seized, .none)
  | _ => (j, .none)

/-- A take that completes: the handset joins, PTB is given the final claim, and CMX its notices (R10, R35). -/
def completeTake (num : Line) (row : Table 16 Appearance) (l : LineRec) (c : Conn) (via : Via) : LineFx :=
  let t := takenLine l c
  lineEvent num row l
    { line := t.1
      out := { fromLcu := [.outcome c.pos c.hs via (.inl (.line num))], notices := [.position c.pos] } } t.2

/-! ## Hold, ring, privacy -/

/-- HOLD by the sole handset of a CONNECTED line (R21). -/
def holdLine (num : Line) (row : Table 16 Appearance) (l : LineRec) (c : Conn) : LineFx :=
  lineEvent num row l
    { line := { l with
        state := .held, connected := [], owner := some c.pos, ringOut := false
        stateTimer := if l.cfg.recallCount = 0 then none else startTimer l.cfg.recallCount }
      out := leaveSends num c } .none

/-- SIGNAL_LINE accepted: the pulse is started or restarted; with a count of 0 it ends at once (R15). -/
def ringLine (num : Line) (l : LineRec) : LineFx :=
  if l.cfg.ringOutCount = 0 then
    { line := { l with ringOut := false, stateTimer := none }
      out := records .lcu (connectedPositions l) (.ringDone num) }
  else { line := { l with ringOut := true, stateTimer := startTimer l.cfg.ringOutCount } }

/-- The expiry of the ring-out pulse (R15). -/
def ringEnd (num : Line) (l : LineRec) : LineFx :=
  { line := { l with ringOut := false, stateTimer := none }
    out := records .lcu (connectedPositions l) (.ringDone num) }

/-- The expiry of the answer timer (R13, R18). -/
def answerEnd (num : Line) (row : Table 16 Appearance) (l : LineRec) : LineFx :=
  match l.state with
  | .incoming => lineEvent num row l { line := toIdle l } .missed
  | .outgoing => clearCall num row l .noAnswer
  | _ => { line := l }

/-- The expiry of the hold-recall timer (R21): the timer is restarted with the hold-recall count. -/
def recallEnd (num : Line) (row : Table 16 Appearance) (l : LineRec) : LineFx :=
  { line := { l with stateTimer := if l.cfg.recallCount = 0 then none else startTimer l.cfg.recallCount }
    out := records .lcu (holdHearers row l) (.holdRecall num) }

/-! ## Configuration and service -/

/-- The removal notices that take every speaker off a line, one for each position (R37).
DESIGN CHOICE: notes/assumptions/17.md. -/
def offLine (num : Line) : Sends := { fromLcu := (List.finRange 16).map fun p => .remove p (.line num) }

/-- LINE_CONFIG taken by a line that is IDLE or OUT_OF_SERVICE (R5). -/
def configLine (num : Line) (row : Table 16 Appearance) (l : LineRec) (cfg : LineConfig) : LineFx :=
  let l1 := { l with cfg := cfg }
  let changed := decide (l.cfg.kind ≠ cfg.kind)
  let l2 :=
    if l.state = .idle ∧ cfg.kind = .unused then toOutOfService l1
    else if l.state = .idle ∧ changed = true ∧ cfg.kind ≠ .hoot ∧ l.qualified = true then toIncoming l1
    else l1
  let off := if changed ∧ (cfg.kind = .hoot ∨ cfg.kind = .unused) then offLine num else {}
  let fx := lineEvent num row l { line := l2, out := off } .none
  if (cfg.kind ≠ l.cfg.kind ∨ cfg.receiveLevel ≠ l.cfg.receiveLevel ∨ cfg.bridgeLevel ≠ l.cfg.bridgeLevel
      ∨ cfg.sendLevel ≠ l.cfg.sendLevel ∨ cfg.idleSample ≠ l.cfg.idleSample) ∧ l2.state = l.state then
    { fx with out := fx.out.and (notice (.line num)) }
  else fx

/-- LINE_SERVICE out of a line in service (R23); the notice to GFU of an attached line is sent apart. -/
def serviceOut (num : Line) (row : Table 16 Appearance) (l : LineRec) : LineFx :=
  lineEvent num row l
    { line := toOutOfService l
      out := (Sends.all (l.connected.map (forceSends num .removed))).and (offLine num) } .none

/-- A qualified far seize that is ON is taken as a qualified rise by a line that has entered IDLE (R24, R27). -/
def readFarSeize (num : Line) (row : Table 16 Appearance) (l : LineRec) : LineFx :=
  if l.state = .idle ∧ l.qualified = true then qualifiedRise num row l else { line := l }

/-- LINE_SERVICE in of a line that is OUT_OF_SERVICE: IDLE, and INCOMING at once if its far seize is ON (R24). -/
def serviceIn (num : Line) (row : Table 16 Appearance) (l : LineRec) : LineFx :=
  let a := lineEvent num row l { line := toIdle l } .none
  let b := readFarSeize num row a.line
  { line := b.line, out := a.out.and b.out }

/-- Whether soft reset ends the call of a line: it is RINGDOWN or AUTOMATIC and in service (R27). -/
def LineRec.clearedByReset (l : LineRec) : Bool :=
  decide (l.state ≠ .outOfService ∧ (l.cfg.kind = .ringdown ∨ l.cfg.kind = .automatic))

/-- What soft reset does to a line (R27): the calls of RINGDOWN and AUTOMATIC lines in service end with no guard; HOOT and
OUT_OF_SERVICE lines stay. The reservations of the removed handsets are released, marked as of the reset, and a line that leaves
INCOMING has its LINE notice (R13; of an AUTOMATIC line by notes/assumptions/18.md). With `tellPtb` PTB has a release notice of
each removed handset (R36, R175): DESIGN CHOICE, notes/assumptions/38.md. -/
def softLine (num : Line) (l : LineRec) (tellPtb : Bool) : LineFx :=
  if l.clearedByReset then
    { line := { toIdle l with resetIdle := true }
      out :=
        { fromLcu := if tellPtb then l.connected.map fun c => .released c.pos c.hs (.line num) else []
          toRtu := (l.connected.filter fun c => c.covered).map fun c => .release c.pos c.hs num true
          notices := if l.state = .incoming then [.line num] else [] } }
  else { line := l }

/-- What the loss of a position does to a line (R21, R50). -/
def lineLosesPosition (num : Line) (row : Table 16 Appearance) (l : LineRec) (p : Pos) (tellPtb : Bool) : LineFx :=
  let l' := if l.owner = some p then { l with owner := none } else l
  leaveEvent num row l' (fun c => c.pos == p) (lossSends num tellPtb)

/-- What a change of a position's appearance from FULL does to a line (R29). -/
def lineLosesFull (num : Line) (row : Table 16 Appearance) (l : LineRec) (p : Pos) : LineFx :=
  let l' := if l.owner = some p then { l with owner := none } else l
  leaveEvent num row l' (fun c => c.pos == p) (forceSends num .removed)

end Sys2Proof.Machine
end

