-- ==== Sys2Proof/Machine/Paths.lean ====
section
/-! DEFINITION. Operations over whole records that several families share: applying a line's change, taking the oldest
message about a subject, freeing a claim, and forwarding from PTB. -/

namespace Sys2Proof.Machine

/-- What every meaning answers. -/
abbrev Result := Host.Outcome State Fault Refusal

/-- A line's change put in place and what it sent put on the paths. -/
def State.applyLine (s : State) (num : Line) (fx : LineFx) : State := (s.setLine num fx.line).emit fx.out

/-! ## The path from PTB to the owners -/

/-- Whether a message of PTB to an owner is about a handset. -/
def ToOwner.aboutHandset (p : Pos) (h : Handset) (m : ToOwner) : Bool :=
  match m with
  | .take q k _ _ | .join q k _ _ | .call q k _ _ _ | .answer q k _ _ | .release q k _ _ | .hold q k _ _
  | .giveBack q k _ => q == p && k == h
  | .speaker .. => false

/-- Whether a message of PTB to an owner is the question about a speaker. -/
def ToOwner.aboutSpeaker (p : Pos) (k : Spk) (m : ToOwner) : Bool :=
  match m with
  | .speaker q j _ => q == p && j == k
  | _ => false

/-- The messages on their way from PTB to an owner. -/
def State.toOwner (s : State) (o : Owner) : List ToOwner := match o with
  | .lcu => s.chan.toLcu
  | .gfu => s.chan.toGfu

/-- The state with the messages to an owner replaced. -/
def State.setToOwner (s : State) (o : Owner) (l : List ToOwner) : State := match o with
  | .lcu => { s with chan := { s.chan with toLcu := l } }
  | .gfu => { s with chan := { s.chan with toGfu := l } }

/-- PTB sends a message to an owner. -/
def State.forward (s : State) (o : Owner) (m : ToOwner) : State := s.setToOwner o (s.toOwner o ++ [m])

/-- The oldest message to an owner about a handset, and the state without it. Messages about one handset are taken in the
order they were sent. DEDUCED: notes/assumptions/12.md. -/
def State.nextForHandset (s : State) (o : Owner) (p : Pos) (h : Handset) : Option (ToOwner × State) :=
  (takeFirst (ToOwner.aboutHandset p h) (s.toOwner o)).map fun r => (r.1, s.setToOwner o r.2)

/-- The oldest question to an owner about a speaker, and the state without it. -/
def State.nextForSpeaker (s : State) (o : Owner) (p : Pos) (k : Spk) : Option (ToOwner × State) :=
  (takeFirst (ToOwner.aboutSpeaker p k) (s.toOwner o)).map fun r => (r.1, s.setToOwner o r.2)

/-! ## The path from the owners to PTB -/

/-- Whether a message of an owner to PTB is about a handset. -/
def ToPtb.aboutHandset (p : Pos) (h : Handset) (m : ToPtb) : Bool :=
  match m with
  | .outcome q k _ _ | .released q k _ => q == p && k == h
  | _ => false

/-- Whether a message of an owner to PTB is about a position's speakers. -/
def ToPtb.aboutSpeakers (p : Pos) (m : ToPtb) : Bool :=
  match m with
  | .answer q _ _ _ _ | .remove q _ => q == p
  | _ => false

/-- The messages on their way from an owner to PTB. -/
def State.fromOwner (s : State) (o : Owner) : List ToPtb := match o with
  | .lcu => s.chan.fromLcu
  | .gfu => s.chan.fromGfu

/-- The state with the messages of an owner replaced. -/
def State.setFromOwner (s : State) (o : Owner) (l : List ToPtb) : State := match o with
  | .lcu => { s with chan := { s.chan with fromLcu := l } }
  | .gfu => { s with chan := { s.chan with fromGfu := l } }

/-- The oldest message of an owner about a handset, and the state without it. -/
def State.heardOfHandset (s : State) (o : Owner) (p : Pos) (h : Handset) : Option (ToPtb × State) :=
  (takeFirst (ToPtb.aboutHandset p h) (s.fromOwner o)).map fun r => (r.1, s.setFromOwner o r.2)

/-- The oldest message of an owner about a position's speakers, and the state without it: PTB takes answers and removal
notices of one owner in the order sent (R64). -/
def State.heardOfSpeakers (s : State) (o : Owner) (p : Pos) : Option (ToPtb × State) :=
  (takeFirst (ToPtb.aboutSpeakers p) (s.fromOwner o)).map fun r => (r.1, s.setFromOwner o r.2)

/-! ## Losses and resets that one of PTB and an owner has taken before the other

Whichever of the two takes a position-down notice or a soft reset second tells the other of the handsets that it clears, so that
what was connected between the two takings is connected at neither (R35, R49, R175). DESIGN CHOICE: notes/assumptions/38.md and
notes/assumptions/49.md. -/

/-- Whether LCU or GFU has taken a soft reset (R174). -/
def ResetProgress.takenBy (r : ResetProgress) (o : Owner) : Bool := match o with
  | .lcu => r.lcu
  | .gfu => r.gfu

/-- Whether PTB has taken the soft reset in progress and an owner has yet to take it. -/
def State.behindPtb (s : State) (o : Owner) : Bool := match s.lki.softReset with
  | some r => r.ptb && !r.takenBy o
  | none => false

/-- Whether an owner has taken the soft reset in progress and PTB has yet to take it. -/
def State.aheadOfPtb (s : State) (o : Owner) : Bool := match s.lki.softReset with
  | some r => r.takenBy o && !r.ptb
  | none => false

/-- Whether PTB has taken every position-down notice of a position. -/
def State.lossTakenAtPtb (s : State) (p : Pos) : Bool := decide (p ∉ s.chan.downPtb)

/-- Whether an owner has taken every position-down notice of a position. -/
def State.lossTakenAt (s : State) (o : Owner) (p : Pos) : Bool := match o with
  | .lcu => decide (p ∉ s.chan.downLcu)
  | .gfu => decide (p ∉ s.chan.downGfu)

/-- The return notice of a handset whose claim PTB clears by itself, if the claim names something of this owner (R35). -/
def returnOf (o : Owner) (p : Pos) (h : Handset) (c : Claim) : Option ToOwner := match o, c with
  | .lcu, .line l => some (.giveBack p h (.line l))
  | .gfu, .group g => some (.giveBack p h (.group g))
  | .gfu, .call n => some (.giveBack p h (.call n))
  | _, _ => none

/-- The return notices of both handsets of a position to an owner that is past the loss or the reset that PTB takes. -/
def PosRec.returns (r : PosRec) (o : Owner) (p : Pos) (past : Bool) : List ToOwner :=
  if past then [Handset.A, .B].filterMap fun h => returnOf o p h (r.claim.of h) else []

/-! ## Claims -/

/-- A claim returns to NONE: the mute goes OFF and CMX is told of the position (R36). -/
def State.freeClaim (s : State) (p : Pos) (h : Handset) : State :=
  (s.setPos p { s.pos p with claim := (s.pos p).claim.set h .none, mute := (s.pos p).mute.set h false }).emit
    (notice (.position p))

/-- A claim returns to NONE if it still names what was released (R36). DEDUCED: notes/assumptions/14.md. -/
def State.freeClaimOf (s : State) (p : Pos) (h : Handset) (c : Claim) : State :=
  if (s.pos p).claim.of h = c then s.freeClaim p h else s

/-- Check 1 of a connecting request (R35, R49): PTB claims a free handset of an UP position and forwards the request. -/
def State.claimFor (s : State) (p : Pos) (h : Handset) (v : Via) (o : Owner) (m : ToOwner) : State :=
  if (s.pos p).up = true ∧ (s.pos p).claim.of h = .none then
    (s.setPos p { s.pos p with claim := (s.pos p).claim.set h (.pending v) }).forward o m
  else s.reply p v .handsetBusy

end Sys2Proof.Machine
end

