-- ==== Sys2Proof/Machine/Floor.lean ====
section
/-! DEFINITION. The floor of a hoot group (chapter 4): first what one cause does to a floor record, as functions over
`FloorAct`, then the commands that GFU takes about floors. -/

namespace Sys2Proof.Machine

/-! ## Engagements -/

/-- Whether a position's microphone is engaged on a floor (R76). -/
def Floor.engaged (f : Floor) (p : Pos) : Bool :=
  (f.holder.any fun h => h.pos == p) || (f.wait.any fun w => w.pos == p) || (f.deferred.any fun w => w.pos == p)
    || f.talkers.any fun t => t.pos == p

/-- The position that holds a floor. -/
def Floor.holderPos (f : Floor) : Option Pos := f.holder.map fun h => h.pos

/-- The origin of a position's engagement on a floor, if it has one (R90). -/
def Floor.originOf (f : Floor) (p : Pos) : Option Origin :=
  (((f.holder.toList.filter fun h => h.pos == p).map fun h => h.origin)
    ++ ((f.wait ++ f.deferred).filter fun w => w.pos == p).map (fun w => w.origin)
    ++ (f.talkers.filter fun t => t.pos == p).map (fun t => t.origin)).head?

/-! ## What one cause does -/

/-- A floor under one cause, with what the cause has given so far: the arrival's own record, the engagements lost, the
grants, the deferred entries moved, and the positions whose engagement a mix depends on (R81, R95). -/
structure FloorAct where
  floor : Floor
  arrival : List (Pos × Event) := []
  lost : List (Pos × LostReason) := []
  granted : List Holder := []
  moved : List Waiter := []
  touched : List Pos := []
  deriving DecidableEq, Repr

/-- The records of one cause in the order of R81, and its change notices (R95). FLOOR_HOLDER goes to the positions of `hearers`. -/
def FloorAct.sends (a : FloorAct) (g : Grp) (hearers : PosSet) (old : Floor) : Sends :=
  { given :=
      a.arrival.map (fun x => ⟨.gfu, portOf x.1, x.2⟩)
        ++ a.lost.map (fun x => ⟨.gfu, portOf x.1, .floorLost g x.2⟩)
        ++ a.granted.map (fun h => ⟨.gfu, portOf h.pos, .floorGranted g h.level h.latched h.pinned⟩)
        ++ a.moved.map (fun w => ⟨.gfu, portOf w.pos, .floorWait g w.level⟩)
        ++ (if old.holderPos = a.floor.holderPos then []
            else (posList hearers).map fun p => ⟨.gfu, portOf p, .floorHolder g a.floor.holderPos⟩)
    notices := if a.touched = [] then [] else .group g :: a.touched.map .position }

/-- The served mark of a position that ends a grant of its own: set if its fair setting is ON (R81). -/
def markFair (fair : Pos → Bool) (p : Pos) (q : PosSet) : PosSet := if fair p then q.put p true else q

/-- The served mark of a position cleared. -/
def unmark (p : Pos) (q : PosSet) : PosSet := q.put p false

/-- The present grant ends: hold timer stopped, holder cleared, served set updated, FLOOR_LOST if there is one (R81). -/
def FloorAct.endGrant (a : FloorAct) (why : Option LostReason) (mark : Pos → PosSet → PosSet) : FloorAct :=
  match a.floor.holder with
  | none => a
  | some h =>
    { a with
      floor := { a.floor with holder := none, holdTimer := none, served := mark h.pos a.floor.served }
      lost := a.lost ++ why.toList.map fun r => (h.pos, r)
      touched := a.touched ++ [h.pos] }

/-- A grant: the holder is set and the hold timer started, unless the count is 0 or the grant is pinned (R80, R82). -/
def FloorAct.grant (a : FloorAct) (limit : Level) (h : Holder) : FloorAct :=
  { a with
    floor := { a.floor with
      holder := some h, holdTimer := if h.pinned || limit == 0 then none else some limit.val }
    granted := a.granted ++ [h]
    touched := a.touched ++ [h.pos] }

/-- If the wait queue holds no entry of a level, the deferred entries of that level move to its end, and their served marks
are cleared (R84). -/
def FloorAct.moveDeferred (a : FloorAct) (level : Fin 4) : FloorAct :=
  if a.floor.wait.any fun w => w.level == level then a
  else
    let up := a.floor.deferred.filter fun w => w.level == level
    { a with
      floor := { a.floor with
        wait := a.floor.wait ++ up
        deferred := a.floor.deferred.filter fun w => w.level != level
        served := up.foldl (fun q w => unmark w.pos q) a.floor.served }
      moved := a.moved ++ up }

/-- The entry that the grant rule picks: the highest level, and of equal levels the earliest arrival (R80). -/
def topWaiter : List Waiter → Option Waiter
  | [] => none
  | w :: ws =>
    match topWaiter ws with
    | none => some w
    | some v => if w.level < v.level then some v else some w

/-- The holder that a waiting entry becomes (R80). -/
def Waiter.holds (w : Waiter) : Holder :=
  { pos := w.pos, level := w.level, latched := w.latched, pinned := false, origin := w.origin }

/-- The grant rule on a floor that has become free (R80). -/
def FloorAct.grantRule (a : FloorAct) (limit : Level) : FloorAct :=
  match topWaiter a.floor.wait with
  | none => a
  | some w =>
    let b := { a with floor := { a.floor with wait := a.floor.wait.filter fun v => v.pos != w.pos } }
    (b.grant limit w.holds).moveDeferred w.level

/-- A direct grant: the position's served mark is cleared (R79, R80, R87). -/
def FloorAct.direct (a : FloorAct) (limit : Level) (h : Holder) : FloorAct :=
  FloorAct.grant { a with floor := { a.floor with served := unmark h.pos a.floor.served } } limit h

/-- A position's entries leave the wait queue, the deferred list and the open talker list (R84 to R86). -/
def FloorAct.withdraw (a : FloorAct) (p : Pos) : FloorAct :=
  let here := a.floor.wait.filter fun w => w.pos == p
  let b := { a with
    floor := { a.floor with
      wait := a.floor.wait.filter fun w => w.pos != p
      deferred := a.floor.deferred.filter fun w => w.pos != p
      talkers := a.floor.talkers.filter fun t => t.pos != p }
    touched := a.touched ++ if a.floor.talkers.any fun t => t.pos == p then [p] else [] }
  here.foldl (fun c w => c.moveDeferred w.level) b

/-! ## Requests -/

/-- Where a request joins in case 4 of R79 and before the hand-over of case 3, by R83: the wait queue or the deferred list,
with FLOOR_WAIT or FLOOR_DEFERRED. -/
def FloorAct.joinQueue (a : FloorAct) (g : Grp) (fair : Pos → Bool) (w : Waiter) : FloorAct :=
  if a.floor.served.look w.pos && fair w.pos && a.floor.wait.any fun v => v.level == w.level then
    { a with
      floor := { a.floor with deferred := a.floor.deferred ++ [w] }
      arrival := a.arrival ++ [(w.pos, .floorDeferred g w.level)] }
  else
    { a with
      floor := { a.floor with wait := a.floor.wait ++ [w], served := unmark w.pos a.floor.served }
      arrival := a.arrival ++ [(w.pos, .floorWait g w.level)] }

/-- The arrival at a LATCHED holder: it receives FLOOR_GRANTED in place of FLOOR_WAIT when the grant rule picks it
(R79 case 3). -/
def FloorAct.handOver (a : FloorAct) (g : Grp) (limit : Level) (fair : Pos → Bool) (w : Waiter) : FloorAct :=
  let b := ((a.joinQueue g fair w).endGrant (some .handedOver) (markFair fair)).grantRule limit
  if b.floor.holderPos = some w.pos then { b with arrival := [] } else b

/-- A request that has passed R78, decided in MANAGED mode (R79). DEDUCED: notes/assumptions/29.md. -/
def FloorAct.decide (a : FloorAct) (g : Grp) (limit : Level) (fair : Pos → Bool) (w : Waiter) : FloorAct :=
  match a.floor.holder with
  | none => a.direct limit w.holds
  | some h =>
    if w.level = 3 ∧ h.level < 3 ∧ h.pinned = false then
      (a.endGrant (some .preempted) (markFair fair)).direct limit w.holds
    else if h.latched = true ∧ h.pinned = false then a.handOver g limit fair w
    else a.joinQueue g fair w

/-- A request that has passed R78, taken in OPEN mode (R86). -/
def FloorAct.openTalk (a : FloorAct) (w : Waiter) : FloorAct :=
  { a with
    floor := { a.floor with talkers := a.floor.talkers ++ [{ pos := w.pos, origin := w.origin }] }
    granted := a.granted ++ [w.holds]
    touched := a.touched ++ [w.pos] }

/-! ## Ends -/

/-- A position's release of its engagement, explicit or implicit (R85, R86, R90). -/
def FloorAct.release (a : FloorAct) (limit : Level) (fair : Pos → Bool) (p : Pos) : FloorAct :=
  if a.floor.holderPos = some p then (a.endGrant none (markFair fair)).grantRule limit else a.withdraw p

/-- A position's engagement ended from outside, with FLOOR_LOST if a reason is given, and its served mark cleared (R92 to
R94). -/
def FloorAct.leave (a : FloorAct) (limit : Level) (why : Option LostReason) (p : Pos) : FloorAct :=
  if a.floor.holderPos = some p then (a.endGrant why unmark).grantRule limit
  else
    let b := { a with
      floor := { a.floor with served := unmark p a.floor.served }
      lost := a.lost ++ if a.floor.engaged p then why.toList.map fun r => (p, r) else [] }
    b.withdraw p

/-- The hold timer's expiry (R82). -/
def FloorAct.timeOut (a : FloorAct) (limit : Level) (fair : Pos → Bool) : FloorAct :=
  (a.endGrant (some .timedOut) (markFair fair)).grantRule limit

/-- The unpinning of a pinned holder (R88). -/
def FloorAct.unpin (a : FloorAct) (limit : Level) (fair : Pos → Bool) : FloorAct :=
  (a.endGrant (some .unpinned) (markFair fair)).grantRule limit

/-- The holder that a pin makes (R87). -/
def pinnedHolder (p : Pos) : Holder := { pos := p, level := 3, latched := true, pinned := true, origin := .explicit }

/-- The pin of a position that has passed the checks of R87. The present holder keeps the floor with no notice and no
FLOOR_HOLDER; any other position is granted directly. -/
def FloorAct.pin (a : FloorAct) (limit : Level) (fair : Pos → Bool) (p : Pos) : FloorAct :=
  if a.floor.holderPos = some p then
    { a with
      floor := { a.floor with
        holder := some (pinnedHolder p), holdTimer := none, served := unmark p a.floor.served }
      granted := a.granted ++ [pinnedHolder p] }
  else ((a.withdraw p).endGrant (some .preempted) (markFair fair)).direct limit (pinnedHolder p)

/-- Everyone engaged on a floor, in the order of R91. -/
def Floor.everyone (f : Floor) : List Pos :=
  f.holder.toList.map (fun h => h.pos) ++ f.wait.map (fun w => w.pos) ++ f.deferred.map (fun w => w.pos)
    ++ f.talkers.map (fun t => t.pos)

/-- A change of mode (R91): every engagement ends, and the floor is empty. -/
def FloorAct.changeMode (a : FloorAct) : FloorAct :=
  { a with
    floor := Floor.empty
    lost := a.lost ++ a.floor.everyone.map fun p => (p, .modeChanged)
    touched := a.touched ++ a.floor.everyone }

/-! ## Floors in the state -/

/-- The fair setting of a position, read from PTB (R78, R81). -/
def State.fair (s : State) (p : Pos) : Bool := (s.pos p).settings.fair

/-- One cause applied to the floor of a group, with FLOOR_HOLDER for the positions of `hearers`. -/
def State.actFloorFor (s : State) (g : Grp) (hearers : PosSet) (act : FloorAct → FloorAct) : State :=
  let a := act { floor := (s.group g).floor }
  (s.setGroup g { s.group g with floor := a.floor }).emit (a.sends g hearers (s.group g).floor)

/-- One cause applied to the floor of a group, with FLOOR_HOLDER for every listening position (R95). -/
def State.actFloor (s : State) (g : Grp) (act : FloorAct → FloorAct) : State :=
  s.actFloorFor g (s.group g).listening act

/-- The loss of a position ends its standing on the floor of a group with no FLOOR_LOST, and FLOOR_HOLDER goes to the other
listening positions: the position receives no record of its own loss (R74, R94, R95). -/
def State.floorLosesPosition (s : State) (p : Pos) (g : Grp) : State :=
  s.actFloorFor g ((s.group g).listening.put p false) fun a => a.leave (s.group g).holdLimit none p

/-- Whether a position's microphone is engaged on a group other than this one. -/
def State.engagedElsewhere (s : State) (p : Pos) (g : Grp) : Bool :=
  (List.finRange 16).any fun k => k != g && (s.group k).floor.engaged p

/-- A position is a listening member of a HOOT group, and its standing image is UP (R78, R87). -/
def State.mayTalk (s : State) (p : Pos) (g : Grp) : Bool :=
  (s.group g).kind == .hoot && (s.group g).listening.look p && s.gfu.up.look p

/-- The checks of R78 in order. -/
def State.floorCheck (s : State) (p : Pos) (g : Grp) : Option Code :=
  if s.mayTalk p g = false then some .notMember
  else if s.engagedElsewhere p g then some .micBusy
  else if (s.group g).floor.engaged p then some .already
  else none

/-- A request that has passed R78, with the position's floor level as it stands (R78, R79, R86). -/
def State.takeFloor (s : State) (p : Pos) (g : Grp) (latched : Bool) (o : Origin) : State :=
  let w : Waiter := { pos := p, level := (s.pos p).settings.floorLevel, latched := latched, origin := o }
  s.actFloor g fun a =>
    if (s.group g).openMode then a.openTalk w else a.decide g (s.group g).holdLimit s.fair w

/-- FLOOR_REQUEST at GFU (R78). -/
def State.floorRequest (s : State) (p : Pos) (v : Via) (body : List Byte) : State :=
  match numOf 16 (byteAt body 0), onOffOf (byteAt body 1) with
  | some g, some latch =>
    match s.floorCheck p g with
    | some c => s.reply p v c
    | none => (s.takeFloor p g latch .explicit).reply p v .accepted
  | _, _ => s.reply p v .badValue

/-- FLOOR_REQUEST (R78, R79, R86). -/
def execFloorRequest (r : Requester) (s : State) : Result :=
  .next (s.request .floorRequest r fun p v b t => t.floorRequest p v b)

/-- The answer to a FLOOR_RELEASE (R85). -/
def Floor.releaseCode (f : Floor) (p : Pos) : Code :=
  if f.engaged p = false then .notWaiting
  else match f.holder with
    | some h => if h.pos = p ∧ h.pinned = true then .notPermitted else .accepted
    | none => .accepted

/-- FLOOR_RELEASE at GFU (R85). -/
def State.floorRelease (s : State) (p : Pos) (v : Via) (body : List Byte) : State :=
  match numOf 16 (byteAt body 0) with
  | none => s.reply p v .badValue
  | some g =>
    if (s.group g).kind ≠ .hoot then s.reply p v .notWaiting
    else
      let code := (s.group g).floor.releaseCode p
      if code = .accepted then
        (s.actFloor g fun a => a.release (s.group g).holdLimit s.fair p).reply p v .accepted
      else s.reply p v code

/-- FLOOR_RELEASE (R85, R86). -/
def execFloorRelease (r : Requester) (s : State) : Result :=
  .next (s.request .floorRelease r fun p v b t => t.floorRelease p v b)

/-- HOLD_TIMER_EXPIRY (R82). -/
def execHoldTimerExpiry (g : Grp) (s : State) : Result :=
  if (s.group g).floor.holdTimer.ran then
    .next (s.actFloor g fun a => a.timeOut (s.group g).holdLimit s.fair)
  else .next s

/-- The checks 2 to 6 of PIN_FLOOR in order (R87). -/
def State.pinCheck (s : State) (g : Grp) (p : Pos) : Option Code :=
  if (s.group g).kind ≠ .hoot ∨ (s.group g).openMode = true then some .badKind
  else if s.mayTalk p g = false then some .notMember
  else
    match (s.group g).floor.holder with
    | some h =>
      if h.pinned then some (if h.pos = p then .already else .groupBusy)
      else if s.engagedElsewhere p g then some .micBusy else none
    | none => if s.engagedElsewhere p g then some .micBusy else none

/-- PIN_FLOOR (R87). -/
def execPinFloor (n : Port) (s : State) : Result :=
  .next (s.dispatch .pinFloor n fun b t =>
    match numOf 16 (byteAt b 0), numOf 16 (byteAt b 1) with
    | some g, some p =>
      match t.pinCheck g p with
      | some c => t.answer (.port n) c
      | none => (t.actFloor g fun a => a.pin (t.group g).holdLimit t.fair p).answer (.port n) .accepted
    | _, _ => t.answer (.port n) .badValue)

/-- UNPIN (R88). -/
def execUnpin (n : Port) (s : State) : Result :=
  .next (s.dispatch .unpin n fun b t =>
    match numOf 16 (byteAt b 0) with
    | none => t.answer (.port n) .badValue
    | some g =>
      if ((t.group g).floor.holder.any fun h => h.pinned) then
        (t.actFloor g fun a => a.unpin (t.group g).holdLimit t.fair).answer (.port n) .accepted
      else t.answer (.port n) .notWaiting)

/-! ## VOX -/

/-- The HOOT group on the lowest-numbered speaker of a position that is on one (R89). -/
def State.voxGroup (s : State) (p : Pos) : Option Grp :=
  (List.finRange 6).findSome? fun k =>
    match (s.pos p).assign.look k with
    | .group g => if (s.group g).kind = .hoot then some g else none
    | _ => none

/-- The implicit request of a desk microphone that has become active (R89). -/
def State.voxActive (s : State) (p : Pos) : State :=
  if s.gfu.up.look p && (s.pos p).settings.vox && !((List.finRange 16).any fun k => (s.group k).floor.engaged p) then
    match s.voxGroup p with
    | none => s
    | some g => if (s.group g).listening.look p then s.takeFloor p g false .vox else s
  else s

/-- The implicit release of a desk microphone that has become QUIET (R90). -/
def State.voxQuiet (s : State) (p : Pos) : State :=
  match (List.finRange 16).find? fun g => (s.group g).floor.originOf p == some .vox with
  | none => s
  | some g => s.actFloor g fun a => a.release (s.group g).holdLimit s.fair p

/-- The oldest report about a desk microphone, if it says this, taken from the path (R89, R90). -/
def State.nextVox (s : State) (p : Pos) (active : Bool) : Option State :=
  match takeFirst (fun r => r.1 == p) s.chan.vox with
  | some ((_, on), rest) => if on = active then some { s with chan := { s.chan with vox := rest } } else none
  | none => none

/-- VOX_ACTIVE_REPORT (R89). -/
def execVoxActiveReport (p : Pos) (s : State) : Result :=
  match s.nextVox p true with
  | some t => .next (t.voxActive p)
  | none => .next s

/-- VOX_QUIET_REPORT (R90). -/
def execVoxQuietReport (p : Pos) (s : State) : Result :=
  match s.nextVox p false with
  | some t => .next (t.voxQuiet p)
  | none => .next s

end Sys2Proof.Machine
end

