-- ==== Sys2Proof/Machine/Derive.lean ====
section
/-! DEFINITION. Mix derivation (chapter 5 and section 7.4): the list that the state gives each leg, the legs that a change
notice reaches, and the commands of the derivation unit. -/

namespace Sys2Proof.Machine

/-! ## Sources, levels and entries -/

/-- The microphone of a handset (R1). -/
def micSource (p : Pos) (h : Handset) : Src := match h with
  | .A => ⟨p.val * 3, by omega⟩
  | .B => ⟨p.val * 3 + 1, by omega⟩

/-- The desk microphone of a position (R1). -/
def deskSource (p : Pos) : Src := ⟨p.val * 3 + 2, by omega⟩

/-- The receive of a line (R1). -/
def receiveSource (l : Line) : Src := ⟨48 + l.val, by omega⟩

/-- The ALERT tone (R1). -/
def alertSource : Src := 112

/-- The ATTENTION tone (R1). -/
def attentionSource : Src := 113

/-- Two levels composed (R102). -/
def compose (a b : Nat) : Nat := min 255 ((a * b + 64) / 128)

/-- Three levels composed, left to right (R102). -/
def compose3 (a b c : Nat) : Nat := compose (compose a b) c

/-- A number as an entry's level, limited to 255. -/
def toLevel (n : Nat) : Level := ⟨min 255 n, by omega⟩

/-- An entry, or none where its level is 0 (R103). -/
def entryOf (src : Src) (level : Nat) (gated : Bool) : List MixEntry :=
  if level = 0 then [] else [{ src := src, level := toLevel level, gated := gated }]

/-- The entry of a handset's microphone, or none while it is muted (R103). -/
def State.micEntry (s : State) (level : Nat) (p : Pos) (h : Handset) : List MixEntry :=
  if (s.pos p).mute.of h then [] else entryOf (micSource p h) level false

/-- The receives of some lines, in line order (R115). -/
def receiveEntries (ls : List Line) (level : Nat) : List MixEntry :=
  ((List.finRange 64).filter fun l => ls.contains l).flatMap fun l => entryOf (receiveSource l) level false

/-- A derived list in its five categories (R115). -/
structure Cats where
  tones : List MixEntry := []
  receives : List MixEntry := []
  principal : List MixEntry := []
  others : List MixEntry := []
  sidetone : List MixEntry := []
  deriving DecidableEq, Repr

/-- Each source at most once: of two entries with one source the first stays (R97). That the first in the order of R115 stays
is a DESIGN CHOICE: notes/assumptions/42.md. -/
def eachSourceOnce : List MixEntry → List MixEntry
  | [] => []
  | e :: es => e :: (eachSourceOnce es).filter fun x => x.src != e.src

/-- The derived list in priority order, each source at most once (R97, R115). -/
def Cats.entries (c : Cats) : List MixEntry :=
  eachSourceOnce (c.tones ++ c.receives ++ c.principal ++ c.others ++ c.sidetone)

/-! ## What a handset stands in -/

/-- What a handset stands in, as its owners hold it (section 5.4). -/
inductive Stance where
  | none
  | line (l : Line)
  | group (g : Grp)
  | active (q : Pos) (k : Handset)
  | caller
  deriving DecidableEq, Repr

/-- The line in whose connected list a handset stands. -/
def State.lineOf (s : State) (p : Pos) (h : Handset) : Option Line :=
  (List.finRange 64).find? fun l => ((s.line l).entry p h).isSome

/-- The intercom group in whose joined list a handset stands. -/
def State.groupOf (s : State) (p : Pos) (h : Handset) : Option Grp :=
  (List.finRange 16).find? fun g => (s.group g).joined.contains (p, h)

/-- What a call record is to a handset. -/
def CallRec.stance (c : CallRec) (p : Pos) (h : Handset) : Option Stance := match c with
  | .free => none
  | .alerting q k _ _ _ => if q = p ∧ k = h then some .caller else none
  | .active q k callee j _ =>
    if q = p ∧ k = h then some (.active callee j) else if callee = p ∧ j = h then some (.active q k) else none

/-- What a handset stands in (R105, R106). A line is read before a group and a group before a call, should two of them hold the
handset: DESIGN CHOICE, notes/assumptions/48.md. -/
def State.stance (s : State) (p : Pos) (h : Handset) : Stance :=
  match s.lineOf p h with
  | some l => .line l
  | none =>
    match s.groupOf p h with
    | some g => .group g
    | none => ((List.finRange 8).findSome? fun c => (s.call c).stance p h).getD .none

/-! ## Ears (R105, R106) -/

/-- The list of a handset's ear by what the handset stands in. -/
def State.earCats (s : State) (p : Pos) (h : Handset) : Cats :=
  let own := s.micEntry (s.pos p).settings.sidetone.val p h
  match s.stance p h with
  | .none => {}
  | .line l =>
    let c := (s.line l).cfg
    { tones := if (s.rtu.faults.look p).of h then
        entryOf attentionSource (s.pos p).settings.attentionLevel.val false else []
      receives := receiveEntries [l] c.receiveLevel.val
      others := ((s.line l).connected.filter fun d => !(d.pos == p && d.hs == h)).flatMap fun d =>
        s.micEntry c.bridgeLevel.val d.pos d.hs
      sidetone := own }
  | .group g =>
    { others := ((s.group g).joined.filter fun m => m != (p, h)).flatMap fun m =>
        s.micEntry (s.group g).talkLevel.val m.1 m.2
      sidetone := own }
  | .active q k => { principal := s.micEntry 128 q k, sidetone := own }
  | .caller => { sidetone := own }

/-! ## Speakers (R104, R107 to R110) -/

/-- The HANDSET duck reason (R104). -/
def State.handsetBusy (s : State) (p : Pos) : Bool := s.stance p .A != .none || s.stance p .B != .none

/-- The TALKING duck reason for a speaker with this assignment (R104). -/
def State.talking (s : State) (p : Pos) (t : Target) : Bool := match t with
  | .group g =>
    (s.group g).kind == .hoot &&
      ((s.group g).floor.holder.any (fun h => h.pos == p) || (s.group g).floor.talkers.any fun k => k.pos == p)
  | _ => false

/-- The duck level of a speaker: the lowest of the reasons that apply, or 128 (R104). -/
def State.duck (s : State) (p : Pos) (t : Target) : Nat :=
  let dh := (s.pos p).settings.handsetDuck.val
  let dt := (s.pos p).settings.talkingDuck.val
  match s.handsetBusy p, s.talking p t with
  | true, true => min dh dt
  | true, false => dh
  | false, true => dt
  | false, false => 128

/-- What a hoot group's floor gives a leg: the holder's desk microphone, or each open talker's, gated; `leftOut` is the position
that is left out (R108, R112, R140). -/
def floorMics (r : GroupRec) (level : Nat) (leftOut : Option Pos) : Cats :=
  if r.openMode then
    { others := (r.floor.talkers.filter fun t => some t.pos != leftOut).flatMap fun t =>
        entryOf (deskSource t.pos) level true }
  else
    { principal := (r.floor.holder.toList.filter fun h => some h.pos != leftOut).flatMap fun h =>
        entryOf (deskSource h.pos) level false }

/-- The entries that a speaker has by its assignment (R107, R108). -/
def State.assignedCats (s : State) (p : Pos) (k : Spk) : Cats :=
  let t := (s.pos p).assign.look k
  let v := ((s.pos p).volume.look k).val
  match t with
  | .none => {}
  | .line l =>
    let c := (s.line l).cfg
    { receives := receiveEntries [l] (compose3 c.receiveLevel.val v (s.duck p t))
      others := ((s.line l).connected.filter fun d => d.pos != p).flatMap fun d =>
        s.micEntry (compose3 c.bridgeLevel.val v (s.duck p t)) d.pos d.hs }
  | .group g =>
    if (s.group g).kind = .hoot then
      let n := compose3 (s.group g).talkLevel.val v (s.duck p t)
      { floorMics (s.group g) n (some p) with receives := receiveEntries (s.group g).attached n }
    else {}

/-- A line rings at a position: INCOMING, of kind RINGDOWN or AUTOMATIC, with a FULL appearance that is not barred (R109). -/
def State.ringsAt (s : State) (p : Pos) (l : Line) : Bool :=
  (s.line l).state == .incoming && ((s.line l).cfg.kind == .ringdown || (s.line l).cfg.kind == .automatic)
    && ((s.row l).look p).mode == .full && !((s.row l).look p).barred

/-- The ALERTING call whose callee is a position: its caller and voice flag (R68). -/
def State.alertingTo (s : State) (p : Pos) : Option (Pos × Handset × Bool) :=
  (List.finRange 8).findSome? fun c => match s.call c with
    | .alerting q k callee voice _ => if callee = p then some (q, k, voice) else none
    | _ => none

/-- The alert entries of a position's alert speaker: the tone, and the caller's announcement (R109). -/
def State.alertCats (s : State) (p : Pos) (k : Spk) : Cats :=
  let v := ((s.pos p).volume.look k).val
  let tone := entryOf alertSource (compose (s.pos p).settings.alertLevel.val v) false
  match s.alertingTo p with
  | some (q, j, voice) =>
    { tones := tone, principal := if voice then s.micEntry (compose 128 v) q j else [] }
  | none => { tones := if (List.finRange 64).any fun l => s.ringsAt p l then tone else [] }

/-- Two parts of one list put together, category by category. -/
def Cats.with (a b : Cats) : Cats :=
  { tones := a.tones ++ b.tones, receives := a.receives ++ b.receives, principal := a.principal ++ b.principal,
    others := a.others ++ b.others, sidetone := a.sidetone ++ b.sidetone }

/-- The list of a speaker (R107 to R110). -/
def State.speakerCats (s : State) (p : Pos) (k : Spk) : Cats :=
  if k = (s.pos p).settings.alertSpeaker then (s.assignedCats p k).with (s.alertCats p k) else s.assignedCats p k

/-! ## Line sends (R111, R112) -/

/-- The list of a line's send. -/
def State.sendCats (s : State) (l : Line) : Cats :=
  let r := s.line l
  match r.cfg.kind with
  | .ringdown | .automatic =>
    if r.state = .outgoing ∨ r.state = .connected then
      { others := r.connected.flatMap fun d => s.micEntry r.cfg.sendLevel.val d.pos d.hs }
    else {}
  | .hoot =>
    match r.state, r.hoot with
    | .attached, some g =>
      let n := (s.group g).talkLevel.val
      { floorMics (s.group g) n none with receives := receiveEntries ((s.group g).attached.filter fun k => k != l) n }
    | _, _ => {}
  | .unused => {}

/-! ## Recorder legs (R113, R140) -/

/-- Whether a direction is in a tap's direction mask (R133). -/
def TapRec.takes (t : TapRec) (d : Direction) : Bool := match d with
  | .incoming => t.incoming
  | .outgoing => t.outgoing

/-- Whether a line's direction is in a tap's direction mask. -/
def State.directionTaken (s : State) (t : TapRec) (l : Line) : Bool := (s.line l).direction.any t.takes

/-- Whether the target of a tap is active (R140). DEDUCED: notes/assumptions/28.md. A handset that stands on a line is taken by the
line alone. DESIGN CHOICE: notes/assumptions/48.md. -/
def State.tapActive (s : State) (t : TapRec) : Bool := match t.target with
  | .none => false
  | .line l =>
    ((s.line l).cfg.kind == .ringdown || (s.line l).cfg.kind == .automatic)
      && ((s.line l).state == .outgoing || (s.line l).state == .connected) && s.directionTaken t l
  | .handset p h =>
    match s.stance p h with
    | .none => false
    | .line l => s.directionTaken t l
    | _ => true
  | .group g => (s.group g).kind == .hoot

/-- The list of a recorder leg (R140). RECEIVE of a handset gives the entries of R105 and R106 whatever the standing of its position:
DESIGN CHOICE, notes/assumptions/45.md. -/
def State.tapCats (s : State) (t : TapRec) : Cats :=
  if t.enabled = false ∨ s.tapActive t = false then {}
  else match t.target with
    | .none => {}
    | .line l =>
      { receives := if t.receive then receiveEntries [l] 128 else []
        others := if t.send then (s.line l).connected.flatMap fun d => s.micEntry 128 d.pos d.hs else [] }
    | .handset p h =>
      let ear := if t.receive then s.earCats p h else {}
      { receives := ear.receives, others := ear.others
        principal := ear.principal ++ if t.send then s.micEntry 128 p h else [] }
    | .group g =>
      { (if t.send then floorMics (s.group g) 128 none else {}) with
        receives := if t.receive then receiveEntries (s.group g).attached 128 else [] }

/-! ## Any leg -/

/-- What a leg is (R1). -/
inductive LegKind where
  | ear (p : Pos) (h : Handset)
  | speaker (p : Pos) (k : Spk)
  | send (l : Line)
  | recorder (r : TapNo)
  deriving DecidableEq, Repr

/-- The kind of a leg by its number (R1). -/
def legKind (k : Leg) : LegKind :=
  if h : k.val < 128 then
    let p : Pos := ⟨k.val / 8, by omega⟩
    if k.val % 8 = 0 then .ear p .A
    else if k.val % 8 = 1 then .ear p .B
    else .speaker p ⟨k.val % 8 - 2, by omega⟩
  else if h2 : k.val < 192 then .send ⟨k.val - 128, by omega⟩
  else .recorder ⟨k.val - 192, by omega⟩

/-- The derived list of a leg before truncation (sections 5.4 to 5.7); every output leg of a DOWN position is empty (R110). -/
def State.derivedList (s : State) (k : Leg) : List MixEntry := match legKind k with
  | .ear p h => if (s.pos p).up then (s.earCats p h).entries else []
  | .speaker p j => if (s.pos p).up then (s.speakerCats p j).entries else []
  | .send l => (s.sendCats l).entries
  | .recorder r => (s.tapCats (s.tap r)).entries

/-- The idle value of a leg (R97), that of a line send whatever the kind and state of its line: DESIGN CHOICE for an ATTACHED HOOT
line, notes/assumptions/51.md. -/
def State.idleOf (s : State) (k : Leg) : Sample := match legKind k with
  | .send l => (s.line l).cfg.idleSample
  | _ => 0

/-! ## Change notices (R99, R141) -/

/-- The output legs of a position. -/
def outputOf (p : Pos) (k : Leg) : Bool := match legKind k with
  | .ear q _ | .speaker q _ => q == p
  | _ => false

/-- The legs that a LINE notice reaches. -/
def State.reachLine (s : State) (l : Line) (k : Leg) : Bool := match legKind k with
  | .ear q _ | .speaker q _ => ((s.row l).look q).mode != .none
  | .send m => m == l
  | .recorder _ => true

/-- The legs that a GROUP notice reaches. -/
def State.reachGroup (s : State) (g : Grp) (k : Leg) : Bool := match legKind k with
  | .ear q _ | .speaker q _ => (s.group g).allow.look q
  | .send m => (s.group g).attached.contains m
  | .recorder _ => true

/-- Whether a position has a joined handset, a speaker or an engagement in a group (R99). -/
def State.partOf (s : State) (p : Pos) (g : Grp) : Bool :=
  ((s.group g).joined.any fun m => m.1 == p) || ((s.pos p).assign.toList.any fun t => t == .group g)
    || (s.group g).floor.engaged p

/-- Whether a source is one of a position's three microphones. -/
def sourceOf (p : Pos) (x : Src) : Bool := x.val / 3 == p.val

/-- Whether a tap's target is a handset of a position (R141). -/
def TapRec.targets (t : TapRec) (p : Pos) : Bool := match t.target with
  | .handset q _ => q == p
  | _ => false

/-- The legs that a POSITION notice reaches (R99, R141). -/
def State.reachPosition (s : State) (p : Pos) (k : Leg) : Bool :=
  outputOf p k || ((s.leg k).list.any fun e => sourceOf p e.src)
    || ((List.finRange 64).any fun l => (s.line l).has p && s.reachLine l k)
    || ((List.finRange 16).any fun g => s.partOf p g && s.reachGroup g k)
    || (match legKind k with
        | .recorder r => (s.tap r).targets p
        | _ => false)

/-- The legs that a TAP notice reaches. -/
def State.reachTap (s : State) (r : TapNo) (k : Leg) : Bool := match legKind k with
  | .recorder q => q == r
  | .ear p h => (s.tap r).coverage.any fun c => c.pos == p && c.hs == h
  | _ => false

/-- The legs that a notice reaches (R99). -/
def State.reach (s : State) (q : Subject) (k : Leg) : Bool := match q with
  | .leg j => j == k
  | .line l => s.reachLine l k
  | .position p => s.reachPosition p k
  | .group g => s.reachGroup g k
  | .tap r => s.reachTap r k
  | .bars ls ps => (ls.any fun l => s.reachLine l k) || (ps.any fun p => s.reachPosition p k)

/-- The legs that `q` names added to the pending set (R100). -/
def Cmx.await (c : Cmx) (q : Leg → Bool) : Cmx :=
  { c with awaited := Table.build fun k => c.awaited.look k || q k }

/-- CHANGE_NOTICE: the oldest waiting notice with this subject (R99). -/
def execChangeNotice (q : Subject) (s : State) : Result :=
  match takeFirst (· == q) s.chan.notices with
  | none => .next s
  | some (_, rest) =>
    .next { s with chan := { s.chan with notices := rest }, cmx := s.cmx.await (s.reach q) }

/-! ## Derivation and installation -/

/-- The lowest-numbered leg of the pending set (R100). -/
def Cmx.lowest (c : Cmx) : Option Leg := (List.finRange 208).find? fun k => c.awaited.look k

/-- DERIVATION_START: with no leg in derivation, the lowest-numbered pending leg leaves the set, and its list is computed
from the state as it stands (R100). -/
def execDerivationStart (s : State) : Result :=
  match s.cmx.inProgress, s.cmx.lowest with
  | none, some k =>
    .next { s with cmx := { s.cmx with
      awaited := s.cmx.awaited.put k false
      inProgress := some { leg := k, list := s.derivedList k, idle := s.idleOf k } } }
  | _, _ => .next s

/-- How many entries an installation keeps (R116). -/
def keptCount (derived canTake : Nat) : Nat := min derived (min Config.listLimit canTake)

/-- A derived list is installed: pool accounting, truncation and the Truncated Set (R101, R116, R117, R118).
DEDUCED: notes/assumptions/27.md. -/
def State.install (s : State) (d : Derivation) : State :=
  let old := s.leg d.leg
  let canTake := s.cmx.free + old.list.length
  let kept := keptCount d.list.length canTake
  let short := decide (kept < d.list.length)
  let pool := decide (canTake < Config.listLimit ∧ canTake < d.list.length)
  let t := s.setLeg d.leg { old with list := d.list.take kept, idle := d.idle }
  let cut := s.cmx.truncated.put d.leg short
  let u := { t with cmx := { t.cmx with free := canTake - kept, truncated := cut, inProgress := none } }
  let w := if s.cmx.free < canTake - kept then { u with cmx := u.cmx.await cut.look } else u
  if short && !s.cmx.truncated.look d.leg then
    w.emit (record .cmx mgmt (.mixShort d.leg d.list.length kept pool))
  else w

/-- Whether PTB has still to give the reply to an accepted take of a handset whose microphone a list holds (R35, R38). -/
def State.replyDue (s : State) (list : List MixEntry) : Bool :=
  s.chan.fromLcu.any fun m => match m with
    | .outcome p h _ (.inl (.line _)) => list.any fun e => e.src == micSource p h
    | _ => false

/-- Whether an installation is too early: on the leg of a LINE tap, the reply ACCEPTED to a dealer's take comes before the
installation from which the dealer is heard (R141). DEDUCED: notes/assumptions/39.md. -/
def State.tooEarly (s : State) (d : Derivation) : Bool := match legKind d.leg with
  | .recorder r => match (s.tap r).target with
    | .line _ => s.replyDue d.list
    | _ => false
  | _ => false

/-- LIST_INSTALL (R101, R141). -/
def execListInstall (s : State) : Result :=
  match s.cmx.inProgress with
  | none => .next s
  | some d => if s.tooEarly d then .next s else .next (s.install d)

/-- CMX takes the soft reset (R98, R124, R132). -/
def State.cmxReset (s : State) : State :=
  { s with cmx := { s.cmx with
      legs := Table.build fun k => { s.leg k with list := [], idle := s.idleOf k, clip := 0 }
      free := Config.poolSize, awaited := Table.fill false, truncated := Table.fill false, inProgress := none } }

end Sys2Proof.Machine
end

