-- ==== Sys2Proof/Machine/Audio.lean ====
section
/-! DEFINITION. Mixer arithmetic, tones and activity detection (chapter 6), and the requests of CMX. -/

namespace Sys2Proof.Machine

/-! ## Tones (R125, R126) -/

/-- The ALERT generator's sample at a frame of its cycle (R125). -/
def alertSample (n : Nat) : Int := if n < 3200 then (if n % 32 < 16 then 8192 else -8192) else 0

/-- The ATTENTION generator's sample at a frame of its cycle (R126). -/
def attentionSample (n : Nat) : Int := if n < 1600 then (if n % 16 < 8 then 4096 else -4096) else 0

/-! ## Detectors (R127, R128) -/

/-- The magnitude of a sample limited to 32767 (R127). -/
def magnitude (x : Int) : Nat := min 32767 x.natAbs

/-- The envelope after a frame (R127). -/
def envelopeAfter (e a : Nat) : Nat :=
  if e < a then e + (a - e + 7) / 8 else if a < e then e - max 1 ((e - a) / 256) else e

/-- A detector's state and hang counter after its envelope has been updated (R128). -/
def Detector.settle (d : Detector) (c : DetectorSet) : Detector :=
  match d.state with
  | .quiet => if c.on ≤ d.envelope then { d with state := .active } else d
  | .active => if d.envelope < c.off then { d with state := .hanging, hang := c.hang.val * 64 } else d
  | .hanging =>
    if c.on ≤ d.envelope then { d with state := .active }
    else if d.hang ≤ 1 then { d with state := .quiet, hang := 0 }
    else { d with hang := d.hang - 1 }

/-- A detector after one frame (R127, R128). -/
def Detector.frame (d : Detector) (c : DetectorSet) (x : Int) : Detector :=
  Detector.settle { d with envelope := envelopeAfter d.envelope (magnitude x) } c

/-- Whether a detector counts as active (R127). -/
def Detector.isActive (d : Detector) : Bool := d.state != .quiet

/-- The configuration set of a detector (R129). -/
def Cmx.setOf (c : Cmx) (i : Fin 112) : DetectorSet := if i.val < 48 then c.micSet else c.lineSet

/-! ## Legs (R120 to R122) -/

/-- A product with a level: 64 added, divided by 128 and rounded down. -/
def scale (x : Int) (level : Level) : Int := (x * level.val + 64) / 128

/-- The term of one entry (R120). -/
def MixEntry.term (e : MixEntry) (sample : Src → Int) (active : Src → Bool) : Int :=
  if e.gated && !active e.src then 0 else scale (sample e.src) e.level

/-- The sum of a list's terms (R120). -/
def mixSum (l : List MixEntry) (sample : Src → Int) (active : Src → Bool) : Int :=
  (l.map fun e => e.term sample active).sum

/-- A number limited to the sample range (R121). -/
def limited (y : Int) : Int := if 32767 < y then 32767 else if y < -32768 then -32768 else y

/-- A leg after one frame (R120 to R122). An empty list gives the idle value, that of an ATTACHED HOOT line too: DESIGN CHOICE,
notes/assumptions/51.md. -/
def LegRec.frame (r : LegRec) (sample : Src → Int) (active : Src → Bool) : LegRec :=
  if r.list = [] then { r with out := r.idle }
  else
    let y := scale (mixSum r.list sample active) r.level
    { r with
      out := BitVec.ofInt 16 (limited y)
      clip := if limited y = y then r.clip else min Config.clipLimit (r.clip + 1) }

/-! ## The audio frame (R119) -/

/-- The sample that each source has in a frame (R119). -/
def State.sampleOf (s : State) (mics : Vector Sample 48) (receives : Vector Sample 64) (x : Src) : Int :=
  if h : x.val < 48 then (mics.get ⟨x.val, h⟩).toInt
  else if h2 : x.val < 112 then (receives.get ⟨x.val - 48, by omega⟩).toInt
  else if x.val = 112 then alertSample s.cmx.alertCount
  else attentionSample s.cmx.attentionCount

/-- The detectors after a frame. -/
def Cmx.framed (c : Cmx) (sample : Src → Int) : Table 112 Detector :=
  Table.build fun i => (c.detectors.look i).frame (c.setOf i) (sample ⟨i.val, by omega⟩)

/-- Whether a source's detector counts as active; the tones have none, and no tone entry is gated. -/
def activeIn (d : Table 112 Detector) (x : Src) : Bool :=
  if h : x.val < 112 then (d.look ⟨x.val, h⟩).isActive else true

/-- The reports of line receive detectors that have changed between QUIET and active (R130). -/
def talkReports (old new : Table 112 Detector) : List (Line × Bool) :=
  (List.finRange 64).filterMap fun l =>
    let x := receiveSource l
    if activeIn old x == activeIn new x then none else some (l, activeIn new x)

/-- The reports of desk microphone detectors that have changed between QUIET and active (R130). -/
def voxReports (old new : Table 112 Detector) : List (Pos × Bool) :=
  (List.finRange 16).filterMap fun p =>
    let x := deskSource p
    if activeIn old x == activeIn new x then none else some (p, activeIn new x)

/-- One audio frame: detectors, then every leg, then the tones move on (R119 to R128, R130). -/
def State.frame (s : State) (mics : Vector Sample 48) (receives : Vector Sample 64) : State :=
  let sample := s.sampleOf mics receives
  let new := s.cmx.framed sample
  { s with
    cmx := { s.cmx with
      detectors := new
      legs := Table.build fun k => (s.leg k).frame sample (activeIn new)
      alertCount := (s.cmx.alertCount + 1) % Config.alertCycle
      attentionCount := (s.cmx.attentionCount + 1) % Config.attentionCycle }
    chan := { s.chan with
      talk := s.chan.talk ++ talkReports s.cmx.detectors new
      vox := s.chan.vox ++ voxReports s.cmx.detectors new } }

/-- AUDIO_FRAME (R119). -/
def execAudioFrame (mics : Vector Sample 48) (receives : Vector Sample 64) (s : State) : Result :=
  .next (s.frame mics receives)

/-! ## Requests -/

/-- LEG_LEVEL (R123). -/
def execLegLevel (n : Port) (s : State) : Result :=
  .next (s.dispatch .legLevel n fun b t =>
    match numOf 208 (byteAt b 0) with
    | none => t.answer (.port n) .badValue
    | some k => (t.setLeg k { t.leg k with level := levelOf (byteAt b 1) }).answer (.port n) .accepted)

/-- The LEG part of QUERY_LEG (R124). -/
def State.legBody (s : State) (k : Leg) : List Byte :=
  let r := s.leg k
  [byteOf k.val, byteOf r.level.val] ++ twoBytes r.idle ++ wordBytes r.clip
    ++ [onByte (s.cmx.truncated.look k),
        onByte (s.cmx.awaited.look k || s.cmx.inProgress.any fun d => d.leg == k), byteOf r.list.length]
    ++ r.list.flatMap fun e => [byteOf e.src.val, byteOf e.level.val, onByte e.gated]

/-- The SET part of QUERY_LEG (R124). -/
def Cmx.setBody (c : Cmx) : List Byte :=
  wordBytes c.free ++ [byteOf (c.awaited.toList.filter id).length] ++ legMap c.truncated

/-- QUERY_LEG (R124). -/
def execQueryLeg (n : Port) (s : State) : Result :=
  .next (s.dispatch .queryLeg n fun b t =>
    if byteAt b 0 = 0 then
      match numOf 208 (byteAt b 1) with
      | none => t.answer (.port n) .badValue
      | some k => (t.setLeg k { t.leg k with clip := 0 }).answer (.port n) .accepted (t.legBody k)
    else if byteAt b 0 = 1 then t.answer (.port n) .accepted t.cmx.setBody
    else t.answer (.port n) .badValue)

/-- The set that a DETECTOR_CONFIG body carries, absent where a threshold is above 32767 (R129). -/
def detectorSetOf (body : List Byte) : Option DetectorSet :=
  let on := (wordOf (byteAt body 1) (byteAt body 2)).toNat
  let off := (wordOf (byteAt body 3) (byteAt body 4)).toNat
  if 32767 < on ∨ 32767 < off then none else some { on := on, off := min on off, hang := levelOf (byteAt body 5) }

/-- DETECTOR_CONFIG (R129). -/
def execDetectorConfig (n : Port) (s : State) : Result :=
  .next (s.dispatch .detectorConfig n fun b t =>
    match detectorSetOf b with
    | none => t.answer (.port n) .badValue
    | some c =>
      if byteAt b 0 = 0 then State.answer { t with cmx := { t.cmx with micSet := c } } (.port n) .accepted
      else if byteAt b 0 = 1 then State.answer { t with cmx := { t.cmx with lineSet := c } } (.port n) .accepted
      else t.answer (.port n) .badValue)

/-- The body of QUERY_SOURCE (R131). -/
def Cmx.sourceBody (c : Cmx) (i : Fin 112) : List Byte :=
  let d := c.detectors.look i
  [byteOf i.val, onByte (decide (48 ≤ i.val))] ++ wordBytes d.envelope ++ [d.state.byte] ++ wordBytes d.hang

/-- QUERY_SOURCE (R131). -/
def execQuerySource (n : Port) (s : State) : Result :=
  .next (s.dispatch .querySource n fun b t =>
    match numOf 112 (byteAt b 0) with
    | none => t.answer (.port n) .badValue
    | some i => t.answer (.port n) .accepted (t.cmx.sourceBody i))

end Sys2Proof.Machine
end

