-- ==== Sys2Proof/Machine/Flags.lean ====
section
/-! DEFINITION. The flags and marks that requests read and clear: the error flags of a port (R159) and the summary marks of
an event queue (R168, R170). -/

namespace Sys2Proof.Machine

/-- The error flags as STATUS_READ shows them: FRAME_ERROR, CHECK_ERROR, OVERRUN, the first in bit 0 (R159, R181). -/
def PortRec.flagByte (r : PortRec) : Byte := bitsByte [r.frameError, r.checkError, r.overrun]

/-- A port with its error flags CLEAR (R159, R171). -/
def PortRec.clearFlags (r : PortRec) : PortRec := { r with frameError := false, checkError := false, overrun := false }

/-- The mark of a class SET: a record of it was not queued (R168). -/
def EventPort.setMark (e : EventPort) (c : EventClass) : EventPort := { e with marks := e.marks.put c.index true }

/-- All five summary marks CLEAR. -/
def EventPort.clearMarks (e : EventPort) : EventPort := { e with marks := Table.fill false }

/-- The summary marks as SUMMARY shows them, class LINE in bit 0 (R170, R181). -/
def EventPort.marksByte (e : EventPort) : Byte := bitsByte e.marks.toList

/-- The class masks of EVENT_SETUP: class c in bit c, a set bit for MASKED (R180). -/
def masksOf (b : Byte) : Table 5 Bool := Table.build fun c => b.getLsbD c.val

end Sys2Proof.Machine
end

