-- ==== Sys2Proof/Machine/Events.lean ====
section
/-! DEFINITION. The commands that EVU takes (chapter 10): placing records on the queues of the ports, and configuring and
reading event delivery. -/

namespace Sys2Proof.Machine

/-! ## Placing records (R168) -/

/-- A record given for a port placed by the first case of R168 that matches. -/
def EventPort.place (q : EventPort) (e : Event) : EventPort :=
  match e.class with
  | none => q
  | some c =>
    if q.up = false then q
    else if q.masked.look c.index then q.setMark c
    else if Config.eventRoom ≤ q.queue.length then q.setMark c
    else { q with queue := q.queue ++ [e] }

/-- The oldest record that a block has given, and the paths without it. A record of SQU is taken after every record that was
given for the same port before it (R150). -/
def takeRecord (b : Block) : List Given → Option (Given × List Given)
  | [] => none
  | r :: rest =>
    if r.block = b then some (r, rest)
    else
      match takeRecord b rest with
      | none => none
      | some (q, left) => if b = .squ ∧ q.port = r.port then none else some (q, r :: left)

/-- RECORD_PLACEMENT (R168). -/
def execRecordPlacement (b : Block) (s : State) : Result :=
  match takeRecord b s.chan.given with
  | none => .next s
  | some (r, rest) =>
    .next ((s.setChan { s.chan with given := rest }).setEvents r.port ((s.events r.port).place r.event))

/-! ## Standing of a port at EVU -/

/-- A port after its down notice: image DOWN, queue emptied, marks cleared; masks and mode are kept (R168). -/
def EventPort.down (q : EventPort) : EventPort := { q.clearMarks with up := false, queue := [] }

/-- A port after LKI's UP notice; a position port gets LINK_UP whatever its mask (R161, R168). -/
def EventPort.raised (q : EventPort) (n : Port) : EventPort :=
  { q with up := true, queue := if n = mgmt then q.queue else q.queue ++ [.linkUp n] }

/-- EVU takes a port's waiting down notice, if there is one. -/
def State.evuDown (s : State) (n : Port) : State :=
  match takeFirst (· == n) s.chan.downEvu with
  | none => s
  | some (_, rest) => (s.setChan { s.chan with downEvu := rest }).setEvents n (s.events n).down

/-- POSITION_DOWN_AT_EVU, for ports 0 to 15 and LKI's notice about port 16 (R160, R168). -/
def execPositionDownAtEvu (n : Port) (s : State) : Result := .next (s.evuDown n)

/-- A port after a soft reset at EVU (R168, R174): an UP port's queue holds SYSTEM_RESET alone. -/
def EventPort.soft (q : EventPort) : EventPort :=
  { q.clearMarks with queue := if q.up then [.systemReset] else [] }

/-! ## Requests -/

/-- Whether a request of a port may name a port: its own from a position, any from the manager (R159, R170, R171). -/
def mayName (n : Port) (b : Byte) : Bool := n == mgmt || b.toNat == n.val

/-- A request that names a port: refused NOT_PERMITTED where it may not name it, and BAD_VALUE above 16.
DEDUCED: notes/assumptions/21.md. -/
def State.portRequest (s : State) (n : Port) (b : Byte) (own : Port → State → State) : State :=
  if mayName n b = false then s.answer (.port n) .notPermitted
  else match numOf 17 b with
    | none => s.answer (.port n) .badValue
    | some m => own m s

/-- The SUMMARY records of the classes that open with their mark SET, in class order, while there is room (R170). -/
def EventPort.summaries (q : EventPort) (masked : Table 5 Bool) : EventPort :=
  [EventClass.line, .floor, .call, .sequence, .system].foldl
    (fun q' c =>
      if q.masked.look c.index && !masked.look c.index && q.marks.look c.index && q.up
          && decide (q'.queue.length < Config.eventRoom) then
        { q' with queue := q'.queue ++ [.summary c] }
      else q') q

/-- Delivery mode (R179): POLL or PUSH. -/
def pollOf (b : Byte) : Option Bool := onOffOf b

/-- EVENT_SETUP (R170). -/
def execEventSetup (n : Port) (s : State) : Result :=
  .next (s.dispatch .eventSetup n fun b t =>
    t.portRequest n (byteAt b 0) fun m u =>
      match pollOf (byteAt b 2) with
      | none => u.answer (.port n) .badValue
      | some poll =>
        (u.setEvents m { (u.events m).summaries (masksOf (byteAt b 1)) with
          masked := masksOf (byteAt b 1), poll := poll }).answer (.port n) .accepted)

/-- FETCH_EVENTS (R169). -/
def execFetchEvents (n : Port) (s : State) : Result :=
  .next (s.dispatch .fetchEvents n fun _ t =>
    let q := t.events n
    let out := q.queue.take Config.eventBatch
    let left := q.queue.drop Config.eventBatch
    (t.setEvents n { q with queue := left }).answer (.port n) .accepted
      ([byteOf out.length] ++ out.flatMap Event.bytes ++ [byteOf left.length]))

/-- SUMMARY (R170). -/
def execSummary (n : Port) (s : State) : Result :=
  .next (s.dispatch .summary n fun _ t =>
    (t.setEvents n (t.events n).clearMarks).answer (.port n) .accepted [(t.events n).marksByte])

/-- PORT_RESET of a port (R171): its queues, marks and error flags. -/
def State.resetPort (s : State) (m : Port) : State :=
  (s.setPort m { (s.port m).clearFlags with queue := [] }).setEvents m { (s.events m).clearMarks with queue := [] }

/-- PORT_RESET (R171). -/
def execPortReset (n : Port) (s : State) : Result :=
  .next (s.dispatch .portReset n fun b t =>
    t.portRequest n (byteAt b 0) fun m u => (u.resetPort m).answer (.port n) .accepted)

end Sys2Proof.Machine
end

