-- ==== Sys2Proof/Machine/Positions.lean ====
section
/-! DEFINITION. The commands that PTB takes: connecting requests and the claim protocol, releases, mutes, speakers,
volumes, settings and the query of a position (chapter 2, and section 3.5 for the speakers). -/

namespace Sys2Proof.Machine

/-! ## Connecting requests (R35) -/

/-- TAKE_LINE at PTB: operand check, then check 1 of R38. -/
def State.ptbTake (s : State) (p : Pos) (v : Via) (body : List Byte) : State :=
  match numOf 64 (byteAt body 0), handsetOf (byteAt body 1) with
  | some l, some h => s.claimFor p h v .lcu (.take p h v l)
  | _, _ => s.reply p v .badValue

/-- TAKE_LINE (R38). -/
def execTakeLine (r : Requester) (s : State) : Result := .next (s.request .takeLine r fun p v b t => t.ptbTake p v b)

/-- JOIN_GROUP at PTB: operand check, then check 1 of R60. -/
def State.ptbJoin (s : State) (p : Pos) (v : Via) (body : List Byte) : State :=
  match numOf 16 (byteAt body 0), handsetOf (byteAt body 1) with
  | some g, some h => s.claimFor p h v .gfu (.join p h v g)
  | _, _ => s.reply p v .badValue

/-- JOIN_GROUP (R60). -/
def execJoinGroup (r : Requester) (s : State) : Result := .next (s.request .joinGroup r fun p v b t => t.ptbJoin p v b)

/-- CALL_POSITION at PTB: handset and voice are checked before any claim, the callee at GFU (R68). -/
def State.ptbCall (s : State) (p : Pos) (v : Via) (body : List Byte) : State :=
  match handsetOf (byteAt body 1), onOffOf (byteAt body 2) with
  | some h, some voice => s.claimFor p h v .gfu (.call p h v (byteAt body 0) voice)
  | _, _ => s.reply p v .badValue

/-- CALL_POSITION (R68). -/
def execCallPosition (r : Requester) (s : State) : Result :=
  .next (s.request .callPosition r fun p v b t => t.ptbCall p v b)

/-- ANSWER_CALL at PTB (R70). -/
def State.ptbAnswer (s : State) (p : Pos) (v : Via) (body : List Byte) : State :=
  match numOf 8 (byteAt body 0), handsetOf (byteAt body 1) with
  | some c, some h => s.claimFor p h v .gfu (.answer p h v c)
  | _, _ => s.reply p v .badValue

/-- ANSWER_CALL (R70). -/
def execAnswerCall (n : Port) (s : State) : Result :=
  .next (s.request .answerCall (.port n) fun p v b t => t.ptbAnswer p v b)

/-- PTB takes an owner's outcome of a connecting request (R35): the PENDING of that request becomes the final claim, or NONE
on refusal. An acceptance that finds the claim otherwise leaves it and is answered by a return notice. -/
def State.takeOutcome (s : State) (o : Owner) (p : Pos) (h : Handset) (v : Via) (result : Claim ⊕ Code) : State :=
  let mine := (s.pos p).claim.of h = .pending v
  match result with
  | .inl c =>
    if mine then
      (s.setPos p { s.pos p with claim := (s.pos p).claim.set h c }).reply p v .accepted
    else (s.forward o (.giveBack p h c)).reply p v .accepted
  | .inr code => (s.freeClaimOf p h (.pending v)).reply p v code

/-- FINAL_CLAIM (R35, R36). -/
def execFinalClaim (o : Owner) (p : Pos) (h : Handset) (s : State) : Result :=
  match s.heardOfHandset o p h with
  | some (.outcome _ _ v result, t) => .next (t.takeOutcome o p h v result)
  | _ => .next s

/-- RELEASE_NOTICE: the claim becomes NONE if it still names what the owner released (R36). -/
def execReleaseNotice (o : Owner) (p : Pos) (h : Handset) (s : State) : Result :=
  match s.heardOfHandset o p h with
  | some (.released _ _ c, t) => .next (t.freeClaimOf p h c)
  | _ => .next s

/-! ## Release, hold, mute -/

/-- RELEASE at PTB, by the claim (R42). -/
def State.ptbRelease (s : State) (p : Pos) (v : Via) (body : List Byte) : State :=
  match handsetOf (byteAt body 0) with
  | none => s.reply p v .badValue
  | some h =>
    match (s.pos p).claim.of h with
    | .none => s.reply p v .notConnected
    | .pending _ => s.reply p v .handsetBusy
    | .line l => s.forward .lcu (.release p h v (.line l))
    | .group g => s.forward .gfu (.release p h v (.group g))
    | .call c => s.forward .gfu (.release p h v (.call c))

/-- RELEASE (R42). -/
def execRelease (r : Requester) (s : State) : Result := .next (s.request .release r fun p v b t => t.ptbRelease p v b)

/-- HOLD at PTB, by the claim (R44). -/
def State.ptbHold (s : State) (p : Pos) (v : Via) (body : List Byte) : State :=
  match handsetOf (byteAt body 0) with
  | none => s.reply p v .badValue
  | some h =>
    match (s.pos p).claim.of h with
    | .pending _ => s.reply p v .handsetBusy
    | .line l => s.forward .lcu (.hold p h v l)
    | _ => s.reply p v .notConnected

/-- HOLD (R44). -/
def execHold (r : Requester) (s : State) : Result := .next (s.request .hold r fun p v b t => t.ptbHold p v b)

/-- MUTE at PTB (R47). -/
def State.ptbMute (s : State) (p : Pos) (v : Via) (body : List Byte) : State :=
  match handsetOf (byteAt body 0), onOffOf (byteAt body 1) with
  | some h, some on =>
    match (s.pos p).claim.of h with
    | .none => s.reply p v .notConnected
    | .pending _ => s.reply p v .handsetBusy
    | _ =>
      let t := s.setPos p { s.pos p with mute := (s.pos p).mute.set h on }
      (if (s.pos p).mute.of h = on then t else t.emit (notice (.position p))).reply p v .accepted
  | _, _ => s.reply p v .badValue

/-- MUTE (R47). -/
def execMute (n : Port) (s : State) : Result := .next (s.request .mute (.port n) fun p v b t => t.ptbMute p v b)

/-! ## Speakers -/

/-- The output leg of a speaker (R1): S1 of position p is leg p × 8 + 2. -/
def speakerLeg (p : Pos) (k : Spk) : Leg := ⟨p.val * 8 + 2 + k.val, by omega⟩

/-- Whether a position has a speaker on a group. -/
def listensTo (a : Table 6 Target) (g : Grp) : Bool := (List.finRange 6).any fun k => decide (a.look k = .group g)

/-- The listening notices that a change of a position's assignments calls for, listen-off before listen-on (R66). Several of one
sense go by rising group number: DESIGN CHOICE, notes/assumptions/50.md. -/
def listeningNotices (p : Pos) (old new : Table 6 Target) (ofReset : Bool) : List Listening :=
  ((List.finRange 16).filter fun g => listensTo old g && !listensTo new g).map (fun g => ⟨p, g, false, ofReset⟩)
    ++ ((List.finRange 16).filter fun g => !listensTo old g && listensTo new g).map (fun g => ⟨p, g, true, ofReset⟩)

/-- A position's assignments replaced, with the listening notices of the change (R66). -/
def State.setAssign (s : State) (p : Pos) (a : Table 6 Target) : State :=
  (s.setPos p { s.pos p with assign := a }).emit { listening := listeningNotices p (s.pos p).assign a false }

/-- An assignment completes (R65). -/
def State.assignTo (s : State) (p : Pos) (k : Spk) (t : Target) : State :=
  (s.setAssign p ((s.pos p).assign.put k t)).emit (notice (.leg (speakerLeg p k)))

/-- A speaker's waiting mark replaced (R31). -/
def State.setAsking (s : State) (p : Pos) (k : Spk) (m : Option Asking) : State :=
  s.setPos p { s.pos p with asking := (s.pos p).asking.put k m }

/-- PTB asks the owner of a target (R64). -/
def State.askSpeaker (s : State) (p : Pos) (v : Via) (k : Spk) (o : Owner) (t : Target) : State :=
  (s.setAsking p k (some { via := v, sawDown := false, sawReset := false })).forward o (.speaker p k t)

/-- ASSIGN_SPEAKER at PTB (R64). -/
def State.ptbAssign (s : State) (p : Pos) (v : Via) (body : List Byte) : State :=
  if (s.pos p).up = false then s.reply p v .notPermitted
  else
    match speakerOf (byteAt body 0), targetOf (byteAt body 1) (byteAt body 2) with
    | some k, some t =>
      if ((s.pos p).asking.look k).isSome then s.reply p v .busy
      else if (s.pos p).assign.look k = t then s.reply p v .accepted
      else
        match t with
        | .none => (s.assignTo p k .none).reply p v .accepted
        | .line l => s.askSpeaker p v k .lcu (.line l)
        | .group g => s.askSpeaker p v k .gfu (.group g)
    | _, _ => s.reply p v .badValue

/-- ASSIGN_SPEAKER (R64). -/
def execAssignSpeaker (r : Requester) (s : State) : Result :=
  .next (s.request .assignSpeaker r fun p v b t => t.ptbAssign p v b)

/-- The code of an assignment that PTB refuses because it has taken a soft reset before the owner's grant (R175). -/
def resetRefusal (t : Target) : Code := match t with
  | .group _ => .notMember
  | _ => .barred

/-- PTB takes the answer to an assignment (R65, R175): the waiting mark goes OFF whatever the answer. A grant is refused where PTB has
taken a soft reset since it asked, and an `early` one, which the owner gave before its own reset and after PTB's: DEDUCED,
notes/assumptions/52.md. A loss is read before a soft reset: DESIGN CHOICE, notes/assumptions/40.md. A group that has changed its kind:
DEDUCED, notes/assumptions/30.md. -/
def State.takeAnswer (s : State) (p : Pos) (k : Spk) (t : Target) (refusal : Option Code) (early : Bool) : State :=
  match (s.pos p).asking.look k with
  | none => s
  | some m =>
    let u := s.setAsking p k none
    match refusal with
    | some c => u.reply p m.via c
    | none =>
      if m.sawDown || !(s.pos p).up then u.reply p m.via .notPermitted
      else if m.sawReset || early then u.reply p m.via (resetRefusal t)
      else (u.assignTo p k t).reply p m.via .accepted

/-- ASSIGNMENT_ANSWER: the oldest message of an owner about a position's speakers, if it is an answer (R65). -/
def execAssignmentAnswer (o : Owner) (p : Pos) (s : State) : Result :=
  match s.heardOfSpeakers o p with
  | some (.answer _ k t refusal early, u) => .next (u.takeAnswer p k t refusal early)
  | _ => .next s

/-- SPEAKER_REMOVED of a target (R37, R59). -/
def speakerRemoved (k : Spk) (t : Target) : List Event := match t with
  | .none => []
  | .line l => [.speakerOffLine l k .removed]
  | .group g => [.speakerOffGroup g k .removed]

/-- PTB removes every speaker of a position from a target, in speaker order (R37, R59). -/
def State.offTarget (s : State) (p : Pos) (t : Target) : State :=
  let hit := (List.finRange 6).filter fun k => decide ((s.pos p).assign.look k = t)
  if t = .none then s
  else
    (s.setAssign p (Table.build fun k => if (s.pos p).assign.look k = t then .none else (s.pos p).assign.look k)).emit
      (Sends.all (hit.map fun k =>
        { given := (speakerRemoved k t).map fun e => ⟨.ptb, portOf p, e⟩, notices := [.leg (speakerLeg p k)] }))

/-- REMOVAL_NOTICE: the oldest message of an owner about a position's speakers, if it is a removal (R37, R59). -/
def execRemovalNotice (o : Owner) (p : Pos) (s : State) : Result :=
  match s.heardOfSpeakers o p with
  | some (.remove _ t, u) => .next (u.offTarget p t)
  | _ => .next s

/-- A volume replaced (R34). -/
def State.setVolume (s : State) (r : Requester) (p : Option Pos) (body : List Byte) : State :=
  match p, speakerOf (byteAt body 0) with
  | some q, some k =>
    ((s.setPos q { s.pos q with volume := (s.pos q).volume.put k (levelOf (byteAt body 1)) }).emit
      (notice (.leg (speakerLeg q k)))).answer r .accepted
  | _, _ => s.answer r .badValue

/-- SET_VOLUME of a position, of its run, or of the manager with a third operand (R34). -/
def execSetVolume (r : Requester) (s : State) : Result :=
  match r with
  | .port n => .next (s.dispatch .setVolume n fun b t =>
      t.setVolume r (if n = mgmt then numOf 16 (byteAt b 2) else posOf n) b)
  | .run p => .next (s.takeStep .setVolume p fun b t => t.setVolume r (some p) b)

/-! ## Settings and query -/

/-- POSITION_CONFIG (R33). -/
def execPositionConfig (n : Port) (s : State) : Result :=
  .next (s.dispatch .positionConfig n fun b t =>
    match numOf 16 (byteAt b 0), settingsOf b with
    | some p, some v =>
      ((t.setPos p { t.pos p with settings := v }).emit (notice (.position p))).answer (.port n) .accepted
    | _, _ => t.answer (.port n) .badValue)

/-- The RECORD part of QUERY_POSITION (R55). Claim and mute alternate handset by handset, assignment and volume speaker by
speaker. DEDUCED: notes/assumptions/25.md. -/
def positionBody (r : PosRec) : List Byte :=
  [onByte r.up] ++ r.claim.a.bytes ++ [onByte r.mute.a] ++ r.claim.b.bytes ++ [onByte r.mute.b]
    ++ (List.finRange 6).flatMap (fun k => (r.assign.look k).bytes ++ [byteOf (r.volume.look k).val])
    ++ [speakerByte r.settings.alertSpeaker, byteOf r.settings.sidetone.val, byteOf r.settings.handsetDuck.val,
        byteOf r.settings.talkingDuck.val, byteOf r.settings.alertLevel.val, byteOf r.settings.attentionLevel.val,
        byteOf r.settings.floorLevel.val, onByte r.settings.fair, onByte r.settings.vox]

/-- The four bits of an appearance (R179). -/
def appearanceBits (a : Appearance) : Nat := a.mode.byte.toNat + (if a.barred then 4 else 0)

/-- The APPEARANCES part of QUERY_POSITION, two lines to a byte, the even line in the low bits (R55, R179). -/
def State.appearancesBody (s : State) (p : Pos) : List Byte :=
  (List.finRange 32).map fun i =>
    byteOf (appearanceBits ((s.row ⟨2 * i.val, by omega⟩).look p)
      + 16 * appearanceBits ((s.row ⟨2 * i.val + 1, by omega⟩).look p))

/-- QUERY_POSITION (R55). -/
def execQueryPosition (n : Port) (s : State) : Result :=
  .next (s.dispatch .queryPosition n fun b t =>
    match numOf 16 (byteAt b 0) with
    | none => t.answer (.port n) .badValue
    | some p =>
      if 2 ≤ (byteAt b 1).toNat then t.answer (.port n) .badValue
      else if n ≠ mgmt ∧ n ≠ portOf p then t.answer (.port n) .notPermitted
      else if byteAt b 1 = 0 then t.answer (.port n) .accepted (positionBody (t.pos p))
      else t.answer (.port n) .accepted (t.appearancesBody p))

/-! ## Loss of a position and soft reset -/

/-- A position record after the position-down notice (R32, R49): the waiting marks stay and remember the loss. -/
def PosRec.down (r : PosRec) : PosRec :=
  { r with
    up := false, claim := ⟨.none, .none⟩, mute := ⟨false, false⟩, assign := Table.fill .none
    asking := Table.build fun k => (r.asking.look k).map fun m => { m with sawDown := true } }

/-- PTB takes the position-down notice (R49, R66). An owner that has taken it before has a return notice of each claim that goes:
DESIGN CHOICE, notes/assumptions/49.md. -/
def State.ptbDown (s : State) (p : Pos) : State :=
  (s.setPos p (s.pos p).down).emit
    { notices := [.position p], listening := listeningNotices p (s.pos p).assign (Table.fill .none) false
      toLcu := (s.pos p).returns .lcu p (s.lossTakenAt .lcu p), toGfu := (s.pos p).returns .gfu p (s.lossTakenAt .gfu p) }

/-- POSITION_DOWN_AT_PTB (R49). -/
def execPositionDownAtPtb (p : Pos) (s : State) : Result :=
  match takeFirst (· == p) s.chan.downPtb with
  | none => .next s
  | some (_, rest) => .next (State.ptbDown { s with chan := { s.chan with downPtb := rest } } p)

/-- A position record after soft reset (R32): the waiting marks stay and remember the reset. -/
def PosRec.soft (r : PosRec) : PosRec :=
  { r with
    claim := ⟨.none, .none⟩, mute := ⟨false, false⟩, assign := Table.fill .none
    asking := Table.build fun k => (r.asking.look k).map fun m => { m with sawReset := true } }

/-- What PTB sends at a soft reset: a POSITION notice where a claim became NONE (R36), the listen-off notices marked as
of the reset (R66, R77), and to an owner that has taken the reset before a return notice of each claim that goes: DESIGN CHOICE,
notes/assumptions/38.md. -/
def PosRec.softSends (p : Pos) (r : PosRec) (past : Owner → Bool) : Sends :=
  { notices := if r.claim.a = .none ∧ r.claim.b = .none then [] else [.position p]
    listening := listeningNotices p r.assign (Table.fill .none) true
    toLcu := r.returns .lcu p (past .lcu), toGfu := r.returns .gfu p (past .gfu) }

/-- PTB takes the soft reset (R32, R49), what it sends going by rising position: DESIGN CHOICE, notes/assumptions/50.md. -/
def State.ptbReset (s : State) : State :=
  State.emit { s with ptb := { s.ptb with positions := Table.build fun p => (s.pos p).soft } }
    (Sends.all ((List.finRange 16).map fun p => PosRec.softSends p (s.pos p) s.aheadOfPtb))

end Sys2Proof.Machine
end

