-- ==== Sys2Proof/Machine/Links.lean ====
section
/-! DEFINITION. The commands of the links (chapter 9): receivers, frames, the standing of a port, transmitters, port modes
and loop tests, and the dispatcher's answer to a kind it does not know. -/

namespace Sys2Proof.Machine

/-! ## Receivers (R156 to R158) -/

/-- What a frame that has ended by CLOSE turns out to be (R158, R164). -/
def verdict (buf : List Byte) : LoopOutcome :=
  if buf.length < 4 then .frameError
  else if twoBytes (frameCheck (buf.take (buf.length - 2))) = buf.drop (buf.length - 2) then .good
  else .checkError

/-- The error flag that a frame's end sets (R157, R158). -/
def PortRec.flagged (r : PortRec) (o : LoopOutcome) : PortRec := match o with
  | .good => r
  | .frameError => { r with frameError := true }
  | .checkError => { r with checkError := true }

/-- The end of the outstanding test of a LOCAL_LOOP port by the first frame that ends after it was sent (R164). -/
def State.endTest (s : State) (n : Port) (o : LoopOutcome) : State :=
  match (s.port n).mode, (s.port n).test with
  | .localLoop, some t =>
    if t.sent then (s.setPort n { s.port n with test := none }).emit (record .lki mgmt (.loopResult n o)) else s
  | _, _ => s

/-- A good frame on a port: in NORMAL mode and UP it joins the request queue, or is dropped with OVERRUN (R158). -/
def PortRec.deliver (r : PortRec) (buf : List Byte) : PortRec :=
  if r.mode = .normal ∧ r.up = true then
    if r.queue.length < Config.requestRoom then { r with queue := r.queue ++ [frameOfBuffer buf] }
    else { r with overrun := true }
  else r

/-- Into HUNT: the loss timer starts on an UP port in NORMAL mode unless it is running, and the up timer stops (R160,
R161). -/
def PortRec.lose (r : PortRec) : PortRec :=
  { r with
    align := none, upTimer := none
    lossTimer :=
      if r.up = true ∧ r.mode = .normal ∧ r.lossTimer = none then some Config.lossCount else r.lossTimer }

/-- What one report of the receiver does to its port. -/
def State.rxEvent (s : State) (n : Port) (e : RxEvent) : State := match e with
  | .lost => s.setPort n (s.port n).lose
  | .opened | .aborted => s
  | .closed buf =>
    let o := verdict buf
    let r := (s.port n).flagged o
    (s.setPort n (if o = .good then r.deliver buf else r)).endTest n o
  | .failed => (s.setPort n ((s.port n).flagged .frameError)).endTest n .frameError

/-- Bytes taken by the receiver of a port, which a port in REMOTE_ECHO sends out again (R163). -/
def State.receive (s : State) (n : Port) (bytes : List Byte) : State :=
  let x := (s.port n).rx.takeAll bytes
  x.2.foldl (fun u e => u.rxEvent n e)
    (s.setPort n { s.port n with
      rx := x.1, linkOut := if (s.port n).mode = .remoteEcho then bytes else (s.port n).linkOut })

/-! ## The loop of a LOCAL_LOOP port (R163, R164)

The bytes that a port has sent to itself may be damaged on their way round: a command of its receiver carries them as they come
back. Damage changes what a byte reads as and not how many there are. DESIGN CHOICE: notes/assumptions/9.md. -/

/-- What follows the first idle fill pair of a run of bytes, and nothing where they hold none: a receiver in HUNT passes over all
that comes before the end of the pair (R156). -/
def afterPair : List Byte → List Byte
  | a :: b :: l => if a = Config.syncA ∧ b = Config.syncB then l else afterPair (b :: l)
  | _ => []

/-- What is left on the loop when its receiver has taken a number of bytes: where they outrun what has been sent, they are idle
fill, and the rest of the pair they end in is still to come (R155, R163). -/
def PortRec.loopAfter (r : PortRec) (k : Nat) : List Byte :=
  if k ≤ r.loop.length then r.loop.drop k else if (k - r.loop.length) % 2 = 1 then [Config.syncB] else []

/-- The receiver of a LOCAL_LOOP port takes the bytes that come back to it, up to the first that makes it report something, if that
report is the one that the command names. Each stands for a byte sent: while a frame is being sent there are no more of them than
its transmitter has put on the loop; otherwise idle fill follows (R155, R157, R163, R164). -/
def State.takeLoop (s : State) (n : Port) (bytes : List Byte) (named : RxEvent → Bool) : State :=
  let r := s.port n
  if r.tx = none ∨ bytes.length ≤ r.loop.length then
    match r.rx.takeUntil bytes with
    | some (x, e :: es, _) =>
      if named e then
        (e :: es).foldl (fun u a => u.rxEvent n a) (s.setPort n { r with rx := x, loop := r.loopAfter bytes.length })
      else s
    | _ => s
  else s

/-- The receiver of a LOCAL_LOOP port takes OPEN as its transmitter has sent it, with the idle fill before it: the only frames on
the loop are test frames (R163). -/
def State.takeOpen (s : State) (n : Port) : State :=
  match (s.port n).rx.takeUntil (s.port n).loop with
  | some (x, [.opened], rest) => s.setPort n { s.port n with rx := x, loop := rest }
  | _ => s

/-! ## The commands of a receiver -/

/-- SYNC_FOUND (R156, R160, R161); a LOCAL_LOOP port finds the pair on its loop (R163). -/
def execSyncFound (n : Port) (align : Fin 8) (s : State) : Result :=
  let r := s.port n
  if r.rx.state = .hunt then
    .next (s.setPort n { r with
      rx := Rx.insync, align := some align, lossTimer := none
      upTimer := if r.up = false ∧ r.mode = .normal then some Config.upCount else r.upTimer
      linkOut := if r.mode = .remoteEcho then fillPair else r.linkOut
      loop := if r.mode = .localLoop then afterPair r.loop else r.loop })
  else .next s

/-- The bytes that a receiver takes by a command. Idle fill pairs are carried by no command, so where a raw SYNC_A has ended a
frame and is the first byte of a pair (R157), the SYNC_B that follows it comes first, if no tick has brought it, unless the command's bytes alone bring
the report that the command names. DEDUCED: notes/assumptions/43.md. -/
def bytesTaken (x : Rx) (bytes : List Byte) (named : RxEvent → Bool) : List Byte :=
  if x.inPair && !(x.takeAll bytes).2.any named then Config.syncB :: bytes else bytes

/-- A command of the receiver of a port takes the bytes of the command where its receiver is in the state `due`: off the link, but
in LOCAL_LOOP off the loop, since nothing from outside reaches it there (R163). -/
def State.hear (s : State) (n : Port) (due : RxState) (bytes : List Byte) (named : RxEvent → Bool) : State :=
  let taken := bytesTaken (s.port n).rx bytes named
  if (s.port n).rx.state = due then
    if (s.port n).mode = .localLoop then s.takeLoop n taken named else s.receive n taken
  else s

/-- RECEIVER_HUNT (R156, R160, R161). -/
def execReceiverHunt (n : Port) (bytes : List Byte) (s : State) : Result :=
  .next (s.hear n .synced bytes fun e => e == .lost)

/-- FRAME_OPEN (R156, R163). -/
def execFrameOpen (n : Port) (s : State) : Result :=
  if (s.port n).mode = .localLoop then
    if (s.port n).rx.state = .synced then .next (s.takeOpen n) else .next s
  else .next (s.hear n .synced [Config.esc, Config.codeOpen] fun e => e == .opened)

/-- FRAME_CLOSE (R157, R158, R164). -/
def execFrameClose (n : Port) (bytes : List Byte) (s : State) : Result :=
  .next (s.hear n .inFrame (bytes ++ [Config.esc, Config.codeClose]) fun e => match e with
    | .closed _ => true
    | _ => false)

/-- FRAME_ABORT (R157). -/
def execFrameAbort (n : Port) (bytes : List Byte) (s : State) : Result :=
  .next (s.hear n .inFrame (bytes ++ [Config.esc, Config.codeAbort]) fun e => e == .aborted)

/-- FRAME_ERROR (R157, R164). -/
def execFrameError (n : Port) (bytes : List Byte) (s : State) : Result :=
  .next (s.hear n .inFrame bytes fun e => e == .failed)

/-! ## Standing (R160, R161) -/

/-- A port record after going DOWN: queue emptied, waiting reply discarded, the reply of a request in flight lost, begun frame
aborted, timers stopped; the link goes back to idle fill (R155, R160, R162, R166). -/
def PortRec.down (r : PortRec) : PortRec :=
  { r with
    up := false, queue := [], inFlight := r.inFlight.map fun q => { q with lost := true }, reply := none, tx := none
    lossTimer := none, upTimer := none
    linkOut := if r.tx.isSome then abortFill else fillPair }

/-- A port goes DOWN, with the notices and the record of R160; port 16 disarms a soft reset (R173). -/
def State.portDown (s : State) (n : Port) : State :=
  let t := s.setPort n (s.port n).down
  let c := { t.chan with downEvu := t.chan.downEvu ++ [n] }
  match posOf n with
  | none => { t with chan := c, lki := { t.lki with armed := false } }
  | some p =>
    (t.setChan { c with
      downPtb := c.downPtb ++ [p], downLcu := c.downLcu ++ [p], downGfu := c.downGfu ++ [p]
      downSqu := c.downSqu ++ [p] }).emit (record .lki mgmt (.positionDown p))

/-- LINK_LOSS_TIMER_EXPIRY (R160), once the timer has run out. -/
def execLinkLossTimerExpiry (n : Port) (s : State) : Result :=
  if (s.port n).lossTimer.ran then .next (s.portDown n) else .next s

/-- PTB takes a position's waiting down notice, if there is one. -/
def State.ptbCatchUp (s : State) (p : Pos) : State :=
  match takeFirst (· == p) s.chan.downPtb with
  | none => s
  | some (_, rest) => (s.setChan { s.chan with downPtb := rest }).ptbDown p

/-- PTB sets a position's standing UP, sends its POSITION notice and passes the UP on to GFU (R52, R56, R110). -/
def State.ptbUp (s : State) (p : Pos) : State :=
  let t := (s.setPos p { s.pos p with up := true }).emit (notice (.position p))
  t.setChan { t.chan with ups := t.chan.ups ++ [p] }

/-- A port goes UP (R161). A down notice of the port that PTB or EVU has not yet taken is taken first. -/
def State.portUp (s : State) (n : Port) : State :=
  let t := (s.setPort n { s.port n with up := true, upTimer := none }).evuDown n
  let u := t.setEvents n ((t.events n).raised n)
  match posOf n with
  | none => u
  | some p => ((u.ptbCatchUp p).ptbUp p).emit (record .lki mgmt (.positionUp p))

/-- LINK_UP_TIMER_EXPIRY (R161). -/
def execLinkUpTimerExpiry (n : Port) (s : State) : Result :=
  if (s.port n).upTimer.ran then .next (s.portUp n) else .next s

/-! ## Transmitters (R155, R162, R164, R169) -/

/-- Bytes that the transmitter of a port sends: on the outgoing link in NORMAL mode, round the loop in LOCAL_LOOP, nowhere in
REMOTE_ECHO (R155, R163). -/
def PortRec.sends (r : PortRec) (bytes : List Byte) : PortRec := match r.mode with
  | .normal => { r with linkOut := bytes }
  | .localLoop => { r with loop := r.loop ++ bytes }
  | .remoteEcho => r

/-- A frame begun by the transmitter, with its bytes from OPEN to the last check byte (R155). -/
def PortRec.begin (r : PortRec) (k : TxKind) (f : Frame) : PortRec :=
  { r.sends f.wire with tx := some { what := k, frame := f } }

/-- REPLY_SEND (R162): a reply that reaches a DOWN port is discarded. -/
def execReplySend (n : Port) (s : State) : Result :=
  let r := s.port n
  match r.tx, r.reply with
  | none, some f =>
    if r.up then .next (s.setPort n (PortRec.begin { r with reply := none } .reply f))
    else .next (s.setPort n { r with reply := none })
  | _, _ => .next s

/-- The event frame that carries some records (R177). -/
def eventFrameOf (es : List Event) : Frame :=
  { tag := 0, kind := Config.kindEventFrame, body := byteOf es.length :: es.flatMap Event.bytes }

/-- Whether the transmitter of a port may begin an event frame (R162, R169). -/
def State.offersEvents (s : State) (n : Port) : Bool :=
  (s.port n).tx.isNone && (s.port n).reply.isNone && (s.port n).up && !(s.events n).poll
    && !(s.events n).queue.isEmpty

/-- EVENT_FRAME (R162, R169). -/
def execEventFrame (n : Port) (s : State) : Result :=
  if s.offersEvents n then
    let q := s.events n
    .next ((s.setPort n ((s.port n).begin .events (eventFrameOf (q.queue.take Config.eventBatch)))).setEvents n
      { q with queue := q.queue.drop Config.eventBatch })
  else .next s

/-- The test frame of a port (R164, R177). -/
def testFrameOf (n : Port) (body : List Byte) : Frame :=
  { tag := 0, kind := Config.kindTestFrame, body := byteOf n.val :: body }

/-- Whether the receiver of a port is SYNCED at the end of an idle fill pair of its transmitter: it is so when it has taken what
stands on the loop as it was sent (R164). -/
def PortRec.syncedAtPair (r : PortRec) : Bool :=
  r.rx.state == .synced && (r.rx.takeAll r.loop).1.state == .synced

/-- TEST_FRAME_SEND (R164): the outstanding test waits until the receiver is SYNCED. -/
def execTestFrameSend (n : Port) (s : State) : Result :=
  let r := s.port n
  match r.tx, r.test with
  | none, some t =>
    if r.mode = .localLoop ∧ r.syncedAtPair = true ∧ t.sent = false then
      .next (s.setPort n (PortRec.begin { r with test := some { t with sent := true } } .test (testFrameOf n t.body)))
    else .next s
  | _, _ => .next s

/-- FRAME_SENT: CLOSE ends the begun frame, and an idle fill pair follows (R155). -/
def execFrameSent (n : Port) (s : State) : Result :=
  let r := s.port n
  if r.tx.isSome then
    .next (s.setPort n { r.sends closeFill with tx := none })
  else .next s

/-! ## Requests of LKI -/

/-- UNKNOWN_REQUEST: check 1 of R166. -/
def execUnknownRequest (n : Port) (s : State) : Result :=
  match s.awaits n fun f => (reqKindOf f.kind).isNone with
  | none => .next s
  | some f => .next ((s.takeFrame n f).answer (.port n) .unknownRequest)

/-- The body of STATUS_READ (R159). -/
def PortRec.statusBody (r : PortRec) : List Byte :=
  [r.flagByte, onByte r.up, rxByte r.rx.state, r.mode.byte, byteOf r.queue.length]

/-- STATUS_READ (R159). -/
def execStatusRead (n : Port) (s : State) : Result :=
  .next (s.dispatch .statusRead n fun b t =>
    t.portRequest n (byteAt b 0) fun m u =>
      (u.setPort m (u.port m).clearFlags).answer (.port n) .accepted (u.port m).statusBody)

/-- A port in a new mode: receiver in HUNT, timers stopped, queue empty, the test ended and nothing left of its frame (R163,
R164). DEDUCED: notes/assumptions/24.md. -/
def PortRec.toMode (r : PortRec) (m : PortMode) : PortRec :=
  { r with
    mode := m, rx := Rx.hunting, align := none, lossTimer := none, upTimer := none, queue := [], test := none
    tx := none, loop := [] }

/-- A change of mode (R163): an UP port goes DOWN first; the outgoing link carries idle fill. -/
def State.changeMode (s : State) (n : Port) (m : PortMode) : State :=
  let t := if (s.port n).up then s.portDown n else s.setPort n { s.port n with linkOut := fillPair }
  t.setPort n ((t.port n).toMode m)

/-- PORT_MODE (R163). -/
def execPortMode (n : Port) (s : State) : Result :=
  .next (s.dispatch .portMode n fun b t =>
    match numOf 17 (byteAt b 0), portModeOf (byteAt b 1) with
    | some m, some mode =>
      if m = mgmt then t.answer (.port n) .notPermitted
      else if (t.port m).mode = mode then t.answer (.port n) .accepted
      else (t.changeMode m mode).answer (.port n) .accepted
    | _, _ => t.answer (.port n) .badValue)

/-- TEST_FRAME (R164). -/
def execTestFrame (n : Port) (s : State) : Result :=
  .next (s.dispatch .testFrame n fun b t =>
    match numOf 17 (byteAt b 0) with
    | none => t.answer (.port n) .badValue
    | some m =>
      if (t.port m).mode ≠ .localLoop then t.answer (.port n) .notPermitted
      else if (t.port m).test.isSome then t.answer (.port n) .busy
      else (t.setPort m { t.port m with test := some { body := b.drop 1, sent := false } }).answer (.port n) .accepted)

end Sys2Proof.Machine
end

