-- ==== Sys2Proof/Machine/Lines.lean ====
section
/-! DEFINITION. The commands that LCU takes: the line timers and the far end, takes, hold, ring and privacy, service and
configuration of lines, appearances, talk reports and the query of a line (chapters 1 and 2). -/

namespace Sys2Proof.Machine

/-! ## Far end and timers -/

/-- FAR_SEIZE_CHANGE: the raw value is recorded and qualification starts with it (R7). -/
def execFarSeizeChange (l : Line) (on : Bool) (s : State) : Result :=
  if (s.line l).raw = on then .next s
  else .next (s.setLine l { s.line l with
    raw := on, candidate := some on, qualifyTimer := startTimer (s.line l).cfg.qualifyCount })

/-- QUALIFY_EXPIRY (R7, R8), once the timer has run out. -/
def execQualifyExpiry (l : Line) (s : State) : Result :=
  if (s.line l).qualifyTimer.ran then .next (s.applyLine l (qualifyEnd l (s.row l) (s.line l))) else .next s

/-- ANSWER_EXPIRY of an INCOMING RINGDOWN or OUTGOING AUTOMATIC line (R13, R18). -/
def execAnswerExpiry (l : Line) (s : State) : Result :=
  if (s.line l).stateTimer.ran && ((s.line l).state == .incoming || (s.line l).state == .outgoing) then
    .next (s.applyLine l (answerEnd l (s.row l) (s.line l)))
  else .next s

/-- RING_OUT_EXPIRY of a CONNECTED line (R15). -/
def execRingOutExpiry (l : Line) (s : State) : Result :=
  if (s.line l).stateTimer.ran && (s.line l).state == .connected then
    .next (s.applyLine l (ringEnd l (s.line l)))
  else .next s

/-- HOLD_RECALL_EXPIRY of a HELD line (R21). -/
def execHoldRecallExpiry (l : Line) (s : State) : Result :=
  if (s.line l).stateTimer.ran && (s.line l).state == .held then
    .next (s.applyLine l (recallEnd l (s.row l) (s.line l)))
  else .next s

/-- GUARD_EXPIRY of a RELEASING line (R16, R20). -/
def execGuardExpiry (l : Line) (s : State) : Result :=
  if (s.line l).stateTimer.ran && (s.line l).state == .releasing then
    .next (s.applyLine l (lineEvent l (s.row l) (s.line l) { line := guardEnd (s.line l) } .none))
  else .next s

/-! ## Takes at LCU -/

/-- LCU refuses a take: the outcome goes to PTB, which gives the reply (R35). -/
def State.refuseTake (s : State) (p : Pos) (h : Handset) (v : Via) (c : Code) : State :=
  s.emit { fromLcu := [.outcome p h v (.inr c)] }

/-- LCU asks RTU for coverage, and the take waits (R10, R40). -/
def State.askCoverage (s : State) (p : Pos) (h : Handset) (v : Via) (l : Line) : State :=
  let d := directionAfter (s.line l)
  { s with
    lcu := { s.lcu with
      waiting := s.lcu.waiting ++ [{ pos := p, hs := h, via := v, line := l, direction := d, ended := none }] }
    chan := s.chan.add { toRtu := [.reserve p h l d] } }

/-- A take completes on a line (R10). -/
def State.finishTake (s : State) (p : Pos) (h : Handset) (v : Via) (l : Line) (covered : Bool) : State :=
  s.applyLine l (completeTake l (s.row l) (s.line l) ⟨p, h, covered⟩ v)

/-- Whether LCU holds a handset in the connected list of some line. -/
def State.onSomeLine (s : State) (p : Pos) (h : Handset) : Bool :=
  (List.finRange 64).any fun l => ((s.line l).entry p h).isSome

/-- Checks 2 to 5 of a take against the line as it stands (R38). A handset that LCU still holds on a line, because PTB has
freed its claim before LCU has taken the loss or the reset, is refused HANDSET_BUSY, so that no handset stands twice (R3,
R35). DESIGN CHOICE: notes/assumptions/34.md. -/
def State.checkTake (s : State) (p : Pos) (h : Handset) (l : Line) : Option Code :=
  match takeCheck (s.line l) ((s.row l).look p) p with
  | some c => some c
  | none => if s.onSomeLine p h then some .handsetBusy else none

/-- A forwarded take at LCU (R10). -/
def State.lcuTake (s : State) (p : Pos) (h : Handset) (v : Via) (l : Line) : State :=
  match s.checkTake p h l with
  | some c => s.refuseTake p h v c
  | none => if (s.line l).cfg.recordRequired then s.askCoverage p h v l else s.finishTake p h v l false

/-- Whether a take of a handset waits at LCU for RTU's answer, ended or not (R10, R51). -/
def State.takeWaits (s : State) (p : Pos) (h : Handset) : Bool := s.lcu.waiting.any fun w => w.pos == p && w.hs == h

/-- TAKE_LINE_AT_LCU (R10, R38 to R40). While RTU's answer to an earlier take of the handset is untaken, that take ended by
R51 included, the new one waits: LCU asks for one reservation at a time for a handset (R133).
DESIGN CHOICE: notes/assumptions/35.md. -/
def execTakeLineAtLcu (p : Pos) (h : Handset) (s : State) : Result :=
  match s.nextForHandset .lcu p h with
  | some (.take _ _ v l, t) => if s.takeWaits p h then .next s else .next (t.lcuTake p h v l)
  | _ => .next s

/-- LCU releases a granted reservation to RTU (R10, R51). -/
def State.dropGrant (s : State) (w : Waiting) (granted ofReset : Bool) : State :=
  if granted then s.emit { toRtu := [.release w.pos w.hs w.line ofReset] } else s

/-- RTU's answer taken for a waiting take (R10, R40, R51). -/
def State.lcuAnswer (s : State) (w : Waiting) (granted : Bool) : State :=
  match w.ended with
  | some ofReset => s.dropGrant w granted ofReset
  | none =>
    match s.checkTake w.pos w.hs w.line with
    | some c => (s.dropGrant w granted false).refuseTake w.pos w.hs w.via c
    | none =>
      if (s.line w.line).cfg.recordRequired = false then s.finishTake w.pos w.hs w.via w.line granted
      else if directionAfter (s.line w.line) ≠ w.direction then
        (s.dropGrant w granted false).askCoverage w.pos w.hs w.via w.line
      else if granted then s.finishTake w.pos w.hs w.via w.line true
      else s.refuseTake w.pos w.hs w.via .notRecorded

/-- RESERVATION_ANSWER: LCU takes the oldest answer about a handset (R10). -/
def execReservationAnswer (p : Pos) (h : Handset) (s : State) : Result :=
  match takeFirst (fun a => a.pos == p && a.hs == h) s.chan.fromRtu,
      takeFirst (fun w => w.pos == p && w.hs == h) s.lcu.waiting with
  | some (a, answers), some (w, waiting) =>
    .next (State.lcuAnswer
      { s with chan := { s.chan with fromRtu := answers }, lcu := { s.lcu with waiting := waiting } } w a.granted)
  | _, _ => .next s

/-! ## Hold, privacy, ring -/

/-- HOLD at LCU, in the check order of R44. -/
def State.lcuHold (s : State) (p : Pos) (h : Handset) (v : Via) (l : Line) : State :=
  match (s.line l).entry p h with
  | none => s.reply p v .notConnected
  | some c =>
    if (s.line l).connected.length ≠ 1 then s.reply p v .shared
    else if (s.line l).state = .outgoing then s.reply p v .lineBusy
    else
      ((s.applyLine l (holdLine l (s.row l) (s.line l) c)).freeClaimOf p h (.line l)).reply p v .accepted

/-- HOLD_AT_LCU (R21, R43, R44). -/
def execHoldAtLcu (p : Pos) (h : Handset) (s : State) : Result :=
  match s.nextForHandset .lcu p h with
  | some (.hold _ _ v l, t) => .next (t.lcuHold p h v l)
  | _ => .next s

/-- SET_PRIVACY, in the check order of R46. -/
def State.setPrivacy (s : State) (p : Pos) (v : Via) (body : List Byte) : State :=
  match numOf 64 (byteAt body 0), onOffOf (byteAt body 1) with
  | some l, some on =>
    if (s.line l).state = .outOfService then s.reply p v .outOfService
    else if (s.line l).cfg.kind = .hoot then s.reply p v .badKind
    else if (s.line l).has p = false then s.reply p v .notConnected
    else
      (s.applyLine l (lineEvent l (s.row l) (s.line l) { line := { s.line l with privacy := on } } .none)).reply p v
        .accepted
  | _, _ => s.reply p v .badValue

/-- SET_PRIVACY (R46). -/
def execSetPrivacy (r : Requester) (s : State) : Result := .next (s.request .setPrivacy r fun p v b t => t.setPrivacy p v b)

/-- SIGNAL_LINE, in the check order of R48. -/
def State.signalLine (s : State) (p : Pos) (v : Via) (body : List Byte) : State :=
  match numOf 64 (byteAt body 0) with
  | none => s.reply p v .badValue
  | some l =>
    if (s.line l).state = .outOfService then s.reply p v .outOfService
    else if (s.line l).cfg.kind = .hoot then s.reply p v .badKind
    else if (s.line l).cfg.kind ≠ .ringdown then s.reply p v .notRingdown
    else if (s.line l).state = .connected ∧ (s.line l).has p = true then
      (s.applyLine l (ringLine l (s.line l))).reply p v .accepted
    else s.reply p v .notConnected

/-- SIGNAL_LINE (R15, R48). -/
def execSignalLine (r : Requester) (s : State) : Result := .next (s.request .signalLine r fun p v b t => t.signalLine p v b)

/-! ## Talk indication -/

/-- The talk recipients of a line: positions with a handset on it or a speaker assigned to it (R53). -/
def State.talkRecipients (s : State) (l : Line) : List Pos :=
  (List.finRange 16).filter fun p =>
    (s.line l).has p || (List.finRange 6).any fun k => decide ((s.pos p).assign.look k = .line l)

/-- TALK_REPORT: the oldest report about a line's receive (R53). -/
def execTalkReport (l : Line) (s : State) : Result :=
  match takeFirst (fun r => r.1 == l) s.chan.talk with
  | none => .next s
  | some (r, rest) =>
    .next ((State.setLine { s with chan := { s.chan with talk := rest } } l { s.line l with talk := r.2 }).emit
      (records .lcu (s.talkRecipients l) (if r.2 then .talkOn l else .talkOff l)))

/-! ## Manager requests -/

/-- Whether a line is held by LCU for an attachment whose outcome it has not yet taken (R62).
DEDUCED: notes/assumptions/19.md. -/
def State.lineHeld (s : State) (b : Byte) : Bool := match numOf 64 b with
  | some l => (s.line l).attachHold
  | none => false

/-- LINE_CONFIG at LCU (R5). -/
def State.lineConfig (s : State) (n : Port) (body : List Byte) : State :=
  match numOf 64 (byteAt body 0), lineConfigOf body with
  | some l, some cfg =>
    if (s.line l).state = .idle ∨ (s.line l).state = .outOfService then
      (s.applyLine l (configLine l (s.row l) (s.line l) cfg)).answer (.port n) .accepted
    else s.answer (.port n) .lineBusy
  | _, _ => s.answer (.port n) .badValue

/-- LINE_CONFIG (R5). A line held for an attachment takes it once the outcome is known. -/
def execLineConfig (n : Port) (s : State) : Result :=
  .next (s.dispatchIf .lineConfig n (fun b => !s.lineHeld (byteAt b 0)) fun b t => t.lineConfig n b)

/-- LINE_SERVICE out at LCU (R23). -/
def State.lineOut (s : State) (l : Line) : State :=
  if (s.line l).state = .outOfService then s
  else
    let t := s.applyLine l (serviceOut l (s.row l) (s.line l))
    match (s.line l).hoot with
    | none => t
    | some g => t.setChan { t.chan with attachToGfu := t.chan.attachToGfu ++ [.removal l g] }

/-- Whether a LINE_SERVICE body is well formed with this setting (R179). -/
def serviceSetting (body : List Byte) (setting : Byte) : Bool :=
  body.length == 2 && (numOf 64 (byteAt body 0)).isSome && byteAt body 1 == setting

/-- LINE_SERVICE out (R23). A line held for an attachment takes it once the outcome is known (R62). A body that is neither
of the two settings is refused by whichever of the two steps takes it. DESIGN CHOICE: notes/assumptions/20.md. -/
def execLineServiceOut (n : Port) (s : State) : Result :=
  .next (s.dispatchIf .lineService n (fun b => !serviceSetting b 1 && !s.lineHeld (byteAt b 0)) fun b t =>
    match numOf 64 (byteAt b 0) with
    | some l => if byteAt b 1 = 0 then (t.lineOut l).answer (.port n) .accepted else t.answer (.port n) .badValue
    | none => t.answer (.port n) .badValue)

/-- LINE_SERVICE in at LCU (R24). -/
def State.lineIn (s : State) (n : Port) (l : Line) : State :=
  if (s.line l).cfg.kind = .unused then s.answer (.port n) .badKind
  else if (s.line l).state ≠ .outOfService then s.answer (.port n) .accepted
  else (s.applyLine l (serviceIn l (s.row l) (s.line l))).answer (.port n) .accepted

/-- LINE_SERVICE in (R24). -/
def execLineServiceIn (n : Port) (s : State) : Result :=
  .next (s.dispatchIf .lineService n (fun b => !serviceSetting b 0) fun b t =>
    match numOf 64 (byteAt b 0) with
    | some l => if byteAt b 1 = 1 then t.lineIn n l else t.answer (.port n) .badValue
    | none => t.answer (.port n) .badValue)

/-- The state with the mode of one appearance replaced, its barred flag kept (R29). -/
def State.setAppMode (s : State) (l : Line) (p : Pos) (m : AppMode) : State :=
  { s with lcu := { s.lcu with
      apps := s.lcu.apps.put l ((s.row l).put p { (s.row l).look p with mode := m }) } }

/-- A change of one appearance's mode (R29). -/
def State.changeApp (s : State) (l : Line) (p : Pos) (m : AppMode) : State :=
  let old := ((s.row l).look p).mode
  if old = m then s
  else
    let t := (s.setAppMode l p m).emit ((notice (.line l)).and (notice (.position p)))
    let u := if old = .full ∨ m = .none then t.applyLine l (lineLosesFull l (t.row l) (t.line l) p) else t
    if m = .none then u.emit { fromLcu := [.remove p (.line l)] } else u

/-- APPEARANCE_SET (R29). -/
def execAppearanceSet (n : Port) (s : State) : Result :=
  .next (s.dispatch .appearanceSet n fun b t =>
    match numOf 64 (byteAt b 0), numOf 16 (byteAt b 1), appModeOf (byteAt b 2) with
    | some l, some p, some m => (t.changeApp l p m).answer (.port n) .accepted
    | _, _, _ => t.answer (.port n) .badValue)

/-- The records that an APPEARANCE_BAR reaches, absent for operands out of range or an unknown scope (R30). -/
def barScope (scope line pos : Byte) : Option (Line → Pos → Bool) :=
  if scope = 0 then
    match numOf 64 line, numOf 16 pos with
    | some l, some p => some fun m q => m == l && q == p
    | _, _ => none
  else if scope = 1 then (numOf 64 line).map fun l m _ => m == l
  else if scope = 2 then (numOf 16 pos).map fun p _ q => q == p
  else if scope = 3 then some fun _ _ => true
  else none

/-- The barred flag of a set of appearances replaced, with one notice for the records that changed (R30). -/
def State.setBars (s : State) (inScope : Line → Pos → Bool) (on : Bool) : State :=
  let changed := fun (l : Line) (p : Pos) => inScope l p && ((s.row l).look p).barred != on
  let ls := (List.finRange 64).filter fun l => (List.finRange 16).any fun p => changed l p
  let ps := (List.finRange 16).filter fun p => (List.finRange 64).any fun l => changed l p
  let t := { s with lcu := { s.lcu with
    apps := Table.build fun l => Table.build fun p =>
      if inScope l p then { (s.row l).look p with barred := on } else (s.row l).look p } }
  if ls = [] then t else t.emit (notice (.bars ls ps))

/-- APPEARANCE_BAR (R30). -/
def execAppearanceBar (n : Port) (s : State) : Result :=
  .next (s.dispatch .appearanceBar n fun b t =>
    match barScope (byteAt b 0) (byteAt b 1) (byteAt b 2), onOffOf (byteAt b 3) with
    | some q, some on => (t.setBars q on).answer (.port n) .accepted
    | _, _ => t.answer (.port n) .badValue)

/-! ## Query -/

/-- The part of a QUERY_LINE body that everyone gets (R54). -/
def lineBody (l : LineRec) : List Byte :=
  [l.cfg.kind.byte, l.state.byte, directionByte l.direction, onByte l.privacy, byteOf l.connected.length]
    ++ l.connected.flatMap (fun c => [byteOf c.pos.val, handsetByte c.hs])
    ++ [optByte l.owner, onByte l.qualified, onByte l.talk, byteOf l.cfg.bridgeLimit, onByte l.cfg.recordRequired]

/-- The part of a QUERY_LINE body that the manager alone gets (R54). -/
def lineManagerBody (l : LineRec) : List Byte :=
  [onByte l.raw, optOnByte l.candidate, onByte l.nearSeize, onByte l.ringOut, onByte l.cfg.answerPrivate,
   byteOf l.cfg.receiveLevel.val, byteOf l.cfg.bridgeLevel.val, byteOf l.cfg.sendLevel.val]
    ++ twoBytes l.cfg.idleSample
    ++ [byteOf l.cfg.qualifyCount.val, byteOf l.cfg.answerCount.val, byteOf l.cfg.ringOutCount.val,
        byteOf l.cfg.recallCount.val, byteOf l.cfg.guardCount.val, optByte l.hoot]

/-- QUERY_LINE (R54). -/
def execQueryLine (n : Port) (s : State) : Result :=
  .next (s.dispatch .queryLine n fun b t =>
    match numOf 64 (byteAt b 0) with
    | none => t.answer (.port n) .badValue
    | some l =>
      match posOf n with
      | none => t.answer (.port n) .accepted (lineBody (t.line l) ++ lineManagerBody (t.line l))
      | some p =>
        let a := (t.row l).look p
        if a.mode = .none then t.answer (.port n) .notPermitted
        else t.answer (.port n) .accepted (lineBody (t.line l) ++ [a.mode.byte, onByte a.barred]))

/-! ## Loss of a position -/

/-- The waiting takes ended by R51: each is refused HANDSET_BUSY, and its grant will be released. -/
def State.endWaiting (s : State) (which : Waiting → Bool) (ofReset : Bool) : State :=
  let hit := fun (w : Waiting) => which w && w.ended.isNone
  { s with
    lcu := { s.lcu with waiting := s.lcu.waiting.map fun w => if hit w then { w with ended := some ofReset } else w }
    chan := s.chan.add
      { fromLcu := (s.lcu.waiting.filter hit).map fun w => .outcome w.pos w.hs w.via (.inr .handsetBusy) } }

/-- LCU takes the position-down notice (R50, R51). Where PTB has taken it before, it is told of the handsets that leave, so that a
claim it has made since becomes NONE: DESIGN CHOICE, notes/assumptions/49.md. -/
def State.lcuDown (s : State) (p : Pos) : State :=
  let fx := fun l => lineLosesPosition l (s.row l) (s.line l) p (s.lossTakenAtPtb p)
  State.endWaiting
    (State.emit { s with lcu := { s.lcu with lines := Table.build fun l => (fx l).line } }
      (Sends.all ((List.finRange 64).map fun l => (fx l).out)))
    (fun w => w.pos == p) false

/-- POSITION_DOWN_AT_LCU (R50, R51). -/
def execPositionDownAtLcu (p : Pos) (s : State) : Result :=
  match takeFirst (· == p) s.chan.downLcu with
  | none => .next s
  | some (_, rest) => .next (State.lcuDown { s with chan := { s.chan with downLcu := rest } } p)

/-! ## Attachment of hoot lines at LCU -/

/-- Whether a message of GFU to LCU is about a line. -/
def AttachToLcu.about (l : Line) (m : AttachToLcu) : Bool := match m with
  | .question k _ | .outcome k _ => k == l

/-- ATTACH_QUESTION: LCU answers with the line's state, kind and attachment, and holds the line until the outcome. A line
that is already held takes no second question (R62). -/
def execAttachQuestion (l : Line) (s : State) : Result :=
  match takeFirst (AttachToLcu.about l) s.chan.attachToLcu with
  | some (.question _ g, rest) =>
    if (s.line l).attachHold then .next s
    else
      let r := s.line l
      .next ((s.setLine l { r with attachHold := true }).setChan
        { s.chan with
          attachToLcu := rest
          attachToGfu := s.chan.attachToGfu ++ [.answer l g r.state r.cfg.kind r.hoot] })
  | _ => .next s

/-- ATTACH_OUTCOME: LCU moves the line to ATTACHED, or gives up its hold (R22, R62). -/
def execAttachOutcome (l : Line) (s : State) : Result :=
  match takeFirst (AttachToLcu.about l) s.chan.attachToLcu with
  | some (.outcome _ got, rest) =>
    let r := { s.line l with attachHold := false }
    let t := s.setChan { s.chan with attachToLcu := rest }
    match got with
    | none => .next (t.setLine l r)
    | some g =>
      if r.state = .idle ∧ r.cfg.kind = .hoot then
        .next (t.applyLine l (lineEvent l (s.row l) r { line := { r with state := .attached, hoot := some g } } .none))
      else .next (t.setLine l r)
  | _ => .next s

/-- What HOOT_DETACH does at LCU: the line goes from ATTACHED to IDLE (R63). A line that LINE_SERVICE has taken out of service
already stays as it is. DESIGN CHOICE: notes/assumptions/47.md. -/
def State.lineDetach (s : State) (l : Line) (g : Grp) : State :=
  if (s.line l).state = .attached ∧ (s.line l).hoot = some g then
    s.applyLine l (lineEvent l (s.row l) (s.line l) { line := { s.line l with state := .idle, hoot := none } } .none)
  else s

/-! ## Soft reset -/

/-- LCU takes the soft reset: lines by R27, every appearance barred by R28, waiting takes ended by R51. Where PTB has taken the reset
before, it is told of the handsets that leave, so that a claim it has made since becomes NONE (R175): DESIGN CHOICE,
notes/assumptions/38.md. -/
def State.lcuReset (s : State) : State :=
  let fx := fun l => softLine l (s.line l) (s.behindPtb .lcu)
  State.endWaiting
    (State.emit
      { s with lcu := { s.lcu with
          lines := Table.build fun l => (fx l).line
          apps := Table.build fun l => Table.build fun p => { (s.row l).look p with barred := true } } }
      (Sends.all ((List.finRange 64).map fun l => (fx l).out)))
    (fun _ => true) true

/-- What LCU does when the soft reset has completed: the far seize of each line that it has put in IDLE is read (R27). -/
def lcuCompletes (l : Line) (row : Table 16 Appearance) (r : LineRec) : LineFx :=
  if r.resetIdle then readFarSeize l row { r with resetIdle := false } else { line := r }

end Sys2Proof.Machine
end

