-- ==== Sys2Proof/Machine/Groups.lean ====
section
/-! DEFINITION. The commands that GFU takes about groups, hoot lines, listening sets and intercom calls (chapter 3). -/

namespace Sys2Proof.Machine

/-! ## Intercom groups -/

/-- GROUP_STATE for every position with a handset joined after the change (R61). -/
def groupState (g : Grp) (r : GroupRec) (p : Pos) (left : Bool) : Sends :=
  records .gfu (r.joined.map fun m => m.1) (.groupState g r.joined.length p left)

/-- A position's handset joins or leaves: the new joined list, GROUP_STATE, and the GROUP notice (R60, R61). -/
def State.setJoined (s : State) (g : Grp) (joined : List (Pos × Handset)) (p : Pos) (left : Bool) : State :=
  (s.setGroup g { s.group g with joined := joined }).emit
    ((groupState g { s.group g with joined := joined } p left).and (notice (.group g)))

/-- A position's handset leaves the joined list (R61). -/
def State.leaveGroup (s : State) (g : Grp) (p : Pos) : State :=
  s.setJoined g ((s.group g).joined.filter fun m => m.1 != p) p true

/-- The handset with which a position stands in a joined list. -/
def GroupRec.handsetOf (r : GroupRec) (p : Pos) : Option Handset :=
  (r.joined.find? fun m => m.1 == p).map fun m => m.2

/-- Checks 2 to 4 of JOIN_GROUP (R60). -/
def joinCheck (r : GroupRec) (p : Pos) : Option Code :=
  if r.kind ≠ .intercom then some .badKind
  else if r.allow.look p = false then some .notMember
  else if (r.handsetOf p).isSome then some .already
  else none

/-- Whether a call record holds a handset: as its caller, or as the callee of an ACTIVE call (R67). -/
def CallRec.holds (c : CallRec) (p : Pos) (h : Handset) : Bool := match c with
  | .free => false
  | .alerting q k _ _ _ => q == p && k == h
  | .active q k r j _ => (q == p && k == h) || (r == p && j == h)

/-- The handsets that a call record holds: its caller's, and the callee's of an ACTIVE call (R67). -/
def CallRec.handsets (c : CallRec) : List (Pos × Handset) := match c with
  | .free => []
  | .alerting p h _ _ _ => [(p, h)]
  | .active p h q k _ => [(p, h), (q, k)]

/-- A handset that GFU still holds in a group or a call, because PTB has freed its claim before GFU has taken the loss or the
reset, is refused HANDSET_BUSY, so that no handset stands twice (R35). DESIGN CHOICE: notes/assumptions/34.md. -/
def State.gfuHolds (s : State) (p : Pos) (h : Handset) : Option Code :=
  if ((List.finRange 16).any fun g => decide ((p, h) ∈ (s.group g).joined))
      || ((List.finRange 8).any fun c => (s.call c).holds p h) then some .handsetBusy
  else none

/-- A forwarded JOIN_GROUP at GFU (R60). -/
def State.gfuJoin (s : State) (p : Pos) (h : Handset) (v : Via) (g : Grp) : State :=
  match (joinCheck (s.group g) p).or (s.gfuHolds p h) with
  | some c => s.emit { fromGfu := [.outcome p h v (.inr c)] }
  | none =>
    (s.setJoined g ((s.group g).joined ++ [(p, h)]) p false).emit { fromGfu := [.outcome p h v (.inl (.group g))] }

/-- JOIN_GROUP_AT_GFU (R60). -/
def execJoinGroupAtGfu (p : Pos) (h : Handset) (s : State) : Result :=
  match s.nextForHandset .gfu p h with
  | some (.join _ _ v g, t) => .next (t.gfuJoin p h v g)
  | _ => .next s

/-! ## GROUP_CONFIG -/

/-- What GROUP_CONFIG carries after the group (R58). -/
structure GroupConfig where
  kind : GroupKind
  allow : PosSet
  talkLevel : Level
  openMode : Bool
  holdLimit : Level
  deriving DecidableEq, Repr

/-- The configuration of a GROUP_CONFIG body, absent when the kind or the mode holds none of its codes (R58). -/
def groupConfigOf (body : List Byte) : Option GroupConfig :=
  match groupKindOf (byteAt body 1), onOffOf (byteAt body 5) with
  | some kind, some openMode =>
    some { kind, allow := posSetOf (byteAt body 2) (byteAt body 3), talkLevel := levelOf (byteAt body 4), openMode,
           holdLimit := levelOf (byteAt body 6) }
  | _, _ => none

/-- Whether a group is in use (R56). -/
def GroupRec.inUse (r : GroupRec) : Bool :=
  !r.joined.isEmpty || !(posList r.listening).isEmpty || !r.attached.isEmpty || !r.floor.everyone.isEmpty

/-- The fields that a GROUP_CONFIG replaces (R58). DEDUCED: notes/assumptions/26.md. -/
def GroupRec.configured (r : GroupRec) (c : GroupConfig) : GroupRec :=
  { r with kind := c.kind, allow := c.allow, talkLevel := c.talkLevel, openMode := c.openMode, holdLimit := c.holdLimit }

/-- A position removed from the allow mask loses its standing (R59, R93); `kind` is the kind before the request. -/
def State.loseStanding (s : State) (kind : GroupKind) (g : Grp) (p : Pos) : State :=
  match kind with
  | .unused => s
  | .intercom =>
    match (s.group g).handsetOf p with
    | none => s
    | some h =>
      (s.emit ((record .gfu (portOf p) (.groupReleased g h .removed)).and
        { fromGfu := [.released p h (.group g)] })).leaveGroup g p
  | .hoot =>
    (s.emit { fromGfu := [.remove p (.group g)] }).actFloor g fun a =>
      a.leave (s.group g).holdLimit (some .removed) p

/-- The positions that a new mask removes, in position order (R58). -/
def removedFrom (old new : PosSet) : List Pos := (List.finRange 16).filter fun p => old.look p && !new.look p

/-- GROUP_CONFIG taken: steps 1 to 5 of R58 in their order. -/
def State.configGroup (s : State) (g : Grp) (c : GroupConfig) : State :=
  let old := s.group g
  let t := s.setGroup g (old.configured c)
  let t1 := (removedFrom old.allow c.allow).foldl (fun u p => u.loseStanding old.kind g p) t
  let modeChanged := decide (old.kind = .hoot ∧ old.openMode ≠ c.openMode)
  let t2 := if modeChanged then t1.actFloor g FloorAct.changeMode else t1
  let t4 :=
    if old.kind = c.kind then t2
    else t2.setGroup g { t2.group g with
      joined := [], attached := [], listening := Table.fill false, floor := Floor.empty }
  if old.talkLevel ≠ c.talkLevel ∨ old.allow ≠ c.allow ∨ modeChanged = true then t4.emit (notice (.group g)) else t4

/-- GROUP_CONFIG (R58, R59, R91, R93). -/
def execGroupConfig (n : Port) (s : State) : Result :=
  .next (s.dispatch .groupConfig n fun b t =>
    match numOf 16 (byteAt b 0), groupConfigOf b with
    | some g, some c =>
      if (t.group g).kind ≠ c.kind ∧ (t.group g).inUse = true then t.answer (.port n) .groupBusy
      else (t.configGroup g c).answer (.port n) .accepted
    | _, _ => t.answer (.port n) .badValue)

/-! ## Hoot lines -/

/-- A message to LCU about an attachment. -/
def State.tellLcu (s : State) (m : AttachToLcu) : State :=
  s.setChan { s.chan with attachToLcu := s.chan.attachToLcu ++ [m] }

/-- HOOT_ATTACH: GFU asks LCU, and the request stays in flight until the answer (R62). -/
def execHootAttach (n : Port) (s : State) : Result :=
  .next (s.dispatch .hootAttach n fun b t =>
    match numOf 64 (byteAt b 0), numOf 16 (byteAt b 1) with
    | some l, some g => t.tellLcu (.question l g)
    | _, _ => t.answer (.port n) .badValue)

/-- Checks 2 to 7 of HOOT_ATTACH (R62). -/
def attachCheck (r : GroupRec) (g : Grp) (state : LineState) (kind : LineKind) (hoot : Option Grp) : Option Code :=
  if state = .outOfService then some .outOfService
  else if kind ≠ .hoot then some .badKind
  else if r.kind ≠ .hoot then some .badKind
  else if hoot = some g then some .already
  else if hoot.isSome then some .lineBusy
  else if Config.attachRoom ≤ r.attached.length then some .groupFull
  else none

/-- Whether a message of LCU to GFU is about a line. -/
def AttachToGfu.about (l : Line) (m : AttachToGfu) : Bool := match m with
  | .answer k _ _ _ _ | .removal k _ => k == l

/-- The oldest message of LCU to GFU about a line, and the state without it. -/
def State.nextAttach (s : State) (l : Line) : Option (AttachToGfu × State) :=
  (takeFirst (AttachToGfu.about l) s.chan.attachToGfu).map fun r =>
    (r.1, s.setChan { s.chan with attachToGfu := r.2 })

/-- The attached list of a group replaced, with the GROUP notice (R62, R63). -/
def State.setAttached (s : State) (g : Grp) (ls : List Line) : State :=
  (s.setGroup g { s.group g with attached := ls }).emit (notice (.group g))

/-- ATTACH_ANSWER (R62). -/
def execAttachAnswer (l : Line) (s : State) : Result :=
  match s.nextAttach l with
  | some (.answer _ g state kind hoot, t) =>
    match attachCheck (t.group g) g state kind hoot with
    | some c => .next ((t.tellLcu (.outcome l none)).answer (.port mgmt) c)
    | none =>
      .next (((t.setAttached g ((t.group g).attached ++ [l])).tellLcu (.outcome l (some g))).answer (.port mgmt)
        .accepted)
  | _ => .next s

/-- HOOT_DETACH (R22, R63). While LCU holds the line for an attachment the request waits. -/
def execHootDetach (n : Port) (s : State) : Result :=
  .next (s.dispatchIf .hootDetach n (fun b => !s.lineHeld (byteAt b 0)) fun b t =>
    match numOf 64 (byteAt b 0), numOf 16 (byteAt b 1) with
    | some l, some g =>
      if l ∈ (t.group g).attached then
        ((t.setAttached g ((t.group g).attached.filter fun k => k != l)).lineDetach l g).answer (.port n) .accepted
      else t.answer (.port n) .notConnected
    | _, _ => t.answer (.port n) .badValue)

/-- HOOT_LINE_REMOVAL (R23, R63). -/
def execHootLineRemoval (l : Line) (s : State) : Result :=
  match s.nextAttach l with
  | some (.removal _ g, t) =>
    if l ∈ (t.group g).attached then
      .next (t.setAttached g ((t.group g).attached.filter fun k => k != l))
    else .next t
  | _ => .next s

/-! ## Listening sets -/

/-- The oldest listening notice, if it is of this sense, taken from the path (R66). -/
def State.nextListening (s : State) (on : Bool) : Option (Listening × State) :=
  match s.chan.listening with
  | [] => none
  | m :: rest => if m.on = on then some (m, s.setChan { s.chan with listening := rest }) else none

/-- The listening set of a group with one position put in or taken out. -/
def State.setListening (s : State) (m : Listening) : State :=
  s.setGroup m.grp { s.group m.grp with listening := (s.group m.grp).listening.put m.pos m.on }

/-- LISTEN_ON (R66). A notice for a group that is no longer of kind HOOT is taken and changes nothing, so that a group of another
kind has nobody listening, and an UNUSED group is idle (R56). DESIGN CHOICE: notes/assumptions/44.md. -/
def execListenOn (s : State) : Result :=
  match s.nextListening true with
  | some (m, t) => .next (if (t.group m.grp).kind = .hoot then t.setListening m else t)
  | none => .next s

/-- LISTEN_OFF (R66, R77, R92): a notice of a soft reset takes the position out of the set alone. -/
def execListenOff (s : State) : Result :=
  match s.nextListening false with
  | some (m, t) =>
    let u := t.setListening m
    if m.ofReset then .next u
    else .next (u.actFloor m.grp fun a => a.leave (u.group m.grp).holdLimit (some .left) m.pos)
  | none => .next s

/-! ## Intercom calls -/

/-- CALL_CONFIG (R67). -/
def execCallConfig (n : Port) (s : State) : Result :=
  .next (s.dispatch .callConfig n fun b t =>
    State.answer { t with gfu := { t.gfu with alertCount := atLeastOne (levelOf (byteAt b 0)) } } (.port n) .accepted)

/-- Whether a call record is ALERTING with this callee. -/
def CallRec.alerts (c : CallRec) (p : Pos) : Bool := match c with
  | .alerting _ _ callee _ _ => callee == p
  | _ => false

/-- The lowest-numbered FREE call record. -/
def State.freeCall (s : State) : Option CallNo := (List.finRange 8).find? fun c => s.call c == .free

/-- Checks 2 to 5 of CALL_POSITION in order; the answer is the callee with the record to use (R68). After them a caller whose
standing image is DOWN is refused, since no call names it until it is UP again (R74); that the code is HANDSET_BUSY is a DESIGN
CHOICE: notes/assumptions/36.md. -/
def State.callCheck (s : State) (p : Pos) (h : Handset) (callee : Byte) : Code ⊕ (Pos × CallNo) :=
  match numOf 16 callee with
  | none => .inl .badValue
  | some q =>
    if q = p then .inl .badValue
    else if s.gfu.up.look q = false then .inl .calleeDown
    else if (List.finRange 8).any fun c => (s.call c).alerts q then .inl .calleeBusy
    else match s.freeCall with
      | none => .inl .noResource
      | some c =>
        if s.gfu.up.look p = false then .inl .handsetBusy
        else match s.gfuHolds p h with
          | some code => .inl code
          | none => .inr (q, c)

/-- POSITION notices for both parties of a call. -/
def bothNotices (p q : Pos) : Sends := { notices := [.position p, .position q] }

/-- A forwarded CALL_POSITION at GFU (R68, R69). -/
def State.gfuCall (s : State) (p : Pos) (h : Handset) (v : Via) (callee : Byte) (voice : Bool) : State :=
  match s.callCheck p h callee with
  | .inl code => s.emit { fromGfu := [.outcome p h v (.inr code)] }
  | .inr (q, c) =>
    (s.setCall c (.alerting p h q voice (startTimer s.gfu.alertCount))).emit
      ((record .gfu (portOf q) (.callAlert c p h voice)).and
        ((bothNotices p q).and { fromGfu := [.outcome p h v (.inl (.call c))] }))

/-- CALL_POSITION_AT_GFU (R68). -/
def execCallPositionAtGfu (p : Pos) (h : Handset) (s : State) : Result :=
  match s.nextForHandset .gfu p h with
  | some (.call _ _ v callee voice, t) => .next (t.gfuCall p h v callee voice)
  | _ => .next s

/-- A forwarded ANSWER_CALL at GFU (R70). -/
def State.gfuAnswer (s : State) (p : Pos) (h : Handset) (v : Via) (c : CallNo) : State :=
  match s.call c with
  | .alerting q k callee voice _ =>
    if callee = p then
      match s.gfuHolds p h with
      | some code => s.emit { fromGfu := [.outcome p h v (.inr code)] }
      | none =>
        (s.setCall c (.active q k p h voice)).emit
          ((record .gfu (portOf q) (.callAnswered c p h)).and
            ((bothNotices q p).and { fromGfu := [.outcome p h v (.inl (.call c))] }))
    else s.emit { fromGfu := [.outcome p h v (.inr .notConnected)] }
  | _ => s.emit { fromGfu := [.outcome p h v (.inr .notConnected)] }

/-- ANSWER_CALL_AT_GFU (R70). -/
def execAnswerCallAtGfu (p : Pos) (h : Handset) (s : State) : Result :=
  match s.nextForHandset .gfu p h with
  | some (.answer _ _ v c, t) => .next (t.gfuAnswer p h v c)
  | _ => .next s

/-- A party's handset leaves a call by forced release: CALL_RELEASED and the release notice (R71 to R74). -/
def callReleased (c : CallNo) (p : Pos) (h : Handset) (why : ReleaseReason) : Sends :=
  (record .gfu (portOf p) (.callReleased c h why)).and { fromGfu := [.released p h (.call c)] }

/-- CALL_WITHDRAWN for the callee of an ALERTING call (R72 to R74). -/
def callWithdrawn (c : CallNo) (callee : Pos) (why : ReleaseReason) : Sends :=
  record .gfu (portOf callee) (.callWithdrawn c why)

/-- A call ends: its record becomes FREE, with what this sends and the notices for both positions. -/
def State.endCall (s : State) (c : CallNo) (p q : Pos) (o : Sends) : State :=
  (s.setCall c .free).emit (o.and (bothNotices p q))

/-- DECLINE_CALL at GFU (R71). -/
def State.declineCall (s : State) (p : Pos) (v : Via) (body : List Byte) : State :=
  match numOf 8 (byteAt body 0) with
  | none => s.reply p v .badValue
  | some c =>
    match s.call c with
    | .alerting q k callee _ _ =>
      if callee = p then (s.endCall c q p (callReleased c q k .declined)).reply p v .accepted
      else s.reply p v .notConnected
    | _ => s.reply p v .notConnected

/-- DECLINE_CALL (R71). -/
def execDeclineCall (n : Port) (s : State) : Result :=
  .next (s.request .declineCall (.port n) fun p v b t => t.declineCall p v b)

/-- CALL_ALERT_EXPIRY (R72). -/
def execCallAlertExpiry (c : CallNo) (s : State) : Result :=
  match s.call c with
  | .alerting p h callee _ (some 0) =>
    .next (s.endCall c p callee ((callReleased c p h .noAnswer).and (callWithdrawn c callee .noAnswer)))
  | _ => .next s

/-- A party's handset leaves a call (R73): absent if the handset is no party of it. -/
def State.leaveCall (s : State) (p : Pos) (h : Handset) (c : CallNo) : Option State :=
  match s.call c with
  | .free => none
  | .alerting q k callee _ _ =>
    if q = p ∧ k = h then some (s.endCall c q callee (callWithdrawn c callee .callEnded)) else none
  | .active q k callee j _ =>
    if q = p ∧ k = h then some (s.endCall c q callee (callReleased c callee j .callEnded))
    else if callee = p ∧ j = h then some (s.endCall c q callee (callReleased c q k .callEnded))
    else none

/-- What the loss of a position does to one call (R74). -/
def State.callLosesPosition (s : State) (p : Pos) (c : CallNo) : State :=
  match s.call c with
  | .free => s
  | .alerting q k callee _ _ =>
    if q = p then s.endCall c q callee (callWithdrawn c callee .callEnded)
    else if callee = p then s.endCall c q callee (callReleased c q k .callEnded)
    else s
  | .active q k callee j _ =>
    if q = p then s.endCall c q callee (callReleased c callee j .callEnded)
    else if callee = p then s.endCall c q callee (callReleased c q k .callEnded)
    else s

/-! ## Queries -/

/-- The list of a query body: its length, then its entries (R181). -/
def listBytes {α : Type} (l : List α) (f : α → List Byte) : List Byte := byteOf l.length :: l.flatMap f

/-- The RECORD part of QUERY_GROUP (R75). -/
def groupBody (r : GroupRec) : List Byte :=
  [r.kind.byte] ++ posSetBytes r.allow ++ [byteOf r.talkLevel.val, onByte r.openMode, byteOf r.holdLimit.val]
    ++ listBytes r.joined (fun m => [byteOf m.1.val, handsetByte m.2])
    ++ listBytes r.attached (fun l => [byteOf l.val])
    ++ posSetBytes r.listening

/-- One call record in the CALLS part of QUERY_GROUP (R75). DEDUCED: notes/assumptions/25.md. -/
def CallRec.bytes (c : CallRec) : List Byte := match c with
  | .free => [0, absentByte, absentByte, absentByte, absentByte, 0]
  | .alerting p h callee voice _ => [1, byteOf p.val, handsetByte h, byteOf callee.val, absentByte, onByte voice]
  | .active p h callee k voice => [2, byteOf p.val, handsetByte h, byteOf callee.val, handsetByte k, onByte voice]

/-- The CALLS part of QUERY_GROUP (R75). -/
def callsBody (s : State) : List Byte :=
  (List.finRange 8).flatMap (fun c => (s.call c).bytes) ++ [byteOf s.gfu.alertCount.val]

/-- One entry of a floor list, packed in one byte (R181). -/
def packed (p : Pos) (level : Fin 4) (latched : Bool) (o : Origin) : Byte :=
  byteOf (p.val + 16 * level.val + (if latched then 64 else 0) + 128 * o.byte.toNat)

/-- The FLOOR part of QUERY_GROUP (R96). DEDUCED: notes/assumptions/25.md. -/
def floorBody (r : GroupRec) : List Byte :=
  [onByte r.openMode]
    ++ (match r.floor.holder with
        | none => [absentByte, absentByte, absentByte, absentByte, absentByte]
        | some h => [byteOf h.pos.val, byteOf h.level.val, onByte h.latched, onByte h.pinned, h.origin.byte])
    ++ [timerByte r.floor.holdTimer]
    ++ listBytes r.floor.wait (fun w => [packed w.pos w.level w.latched w.origin])
    ++ listBytes r.floor.deferred (fun w => [packed w.pos w.level w.latched w.origin])
    ++ posSetBytes r.floor.served
    ++ listBytes r.floor.talkers (fun t => [packed t.pos 0 false t.origin])

/-- QUERY_GROUP of a part that reads the group (R75). -/
def State.queryGroupRec (s : State) (n : Port) (b : Byte) (body : GroupRec → List Byte) : State :=
  match numOf 16 b with
  | none => s.answer (.port n) .badValue
  | some g =>
    match posOf n with
    | none => s.answer (.port n) .accepted (body (s.group g))
    | some p =>
      if (s.group g).allow.look p then s.answer (.port n) .accepted (body (s.group g))
      else s.answer (.port n) .notPermitted

/-- QUERY_GROUP (R75, R96). -/
def execQueryGroup (n : Port) (s : State) : Result :=
  .next (s.dispatch .queryGroup n fun b t =>
    if byteAt b 1 = 0 then t.queryGroupRec n (byteAt b 0) groupBody
    else if byteAt b 1 = 1 then
      if n = mgmt then t.answer (.port n) .accepted (callsBody t) else t.answer (.port n) .notPermitted
    else if byteAt b 1 = 2 then t.queryGroupRec n (byteAt b 0) floorBody
    else t.answer (.port n) .badValue)

/-! ## Standing and soft reset -/

/-- STANDING_UP_NOTICE: an UP that overtakes its position-down notice is kept beside those kept already (R56). -/
def execStandingUpNotice (p : Pos) (s : State) : Result :=
  match takeFirst (· == p) s.chan.ups with
  | none => .next s
  | some (_, rest) =>
    let t := s.setChan { s.chan with ups := rest }
    if t.gfu.up.look p then .next { t with gfu := { t.gfu with keptUp := t.gfu.keptUp.put p (t.gfu.keptUp.look p + 1) } }
    else .next { t with gfu := { t.gfu with up := t.gfu.up.put p true } }

/-- The release notices of the handsets that GFU holds of some positions: of the joined lists in group and list order, then of the
calls (R36). -/
def State.gfuReleases (s : State) (who : Pos → Bool) : List ToPtb :=
  ((List.finRange 16).flatMap fun g =>
      ((s.group g).joined.filter fun m => who m.1).map fun m => .released m.1 m.2 (.group g))
    ++ (List.finRange 8).flatMap fun c =>
      ((s.call c).handsets.filter fun m => who m.1).map fun m => .released m.1 m.2 (.call c)

/-- GFU takes the position-down notice: its groups, calls and floors lose the position, and one kept UP, the
one that follows this notice, counts afterwards (R56, R74, R94). The groups go by rising number, which R74 leaves open:
DESIGN CHOICE, notes/assumptions/46.md. Where PTB has taken the notice before, it is told of the position's own handsets, so that a
claim it has made since becomes NONE: DESIGN CHOICE, notes/assumptions/49.md. -/
def State.gfuDown (s : State) (p : Pos) : State :=
  let t0 := { s with gfu := { s.gfu with up := s.gfu.up.put p false } }
  let t1 := (List.finRange 16).foldl
    (fun u g => if ((u.group g).handsetOf p).isSome then u.leaveGroup g p else u) t0
  let t2 := (List.finRange 8).foldl (fun u c => u.callLosesPosition p c) t1
  let t3 := (List.finRange 16).foldl (fun u g => u.floorLosesPosition p g) t2
  State.emit
    { t3 with gfu := { t3.gfu with
        up := t3.gfu.up.put p (decide (t3.gfu.keptUp.look p ≠ 0))
        keptUp := t3.gfu.keptUp.put p (t3.gfu.keptUp.look p - 1) } }
    { fromGfu := if s.lossTakenAtPtb p then s.gfuReleases fun q => q == p else [] }

/-- POSITION_DOWN_AT_GFU (R74). -/
def execPositionDownAtGfu (p : Pos) (s : State) : Result :=
  match takeFirst (· == p) s.chan.downGfu with
  | none => .next s
  | some (_, rest) => .next ((s.setChan { s.chan with downGfu := rest }).gfuDown p)

/-- The notice that ends the tone and the voice of a call that leaves ALERTING (R69). -/
def CallRec.alertEnds (c : CallRec) : Sends := match c with
  | .alerting _ _ callee _ _ => notice (.position callee)
  | _ => {}

/-- The change notices of a floor that a soft reset empties: the group's and those of its holder and open talkers (R95). -/
def Floor.clears (f : Floor) (g : Grp) : Sends :=
  match f.holder.toList.map (fun h => h.pos) ++ f.talkers.map (fun k => k.pos) with
  | [] => {}
  | ps => { notices := .group g :: ps.map .position }

/-- GFU takes the soft reset (R57, R67, R69, R77, R95). The listening sets stay: DEDUCED, notes/assumptions/31.md. Where PTB has taken
the reset before, it is told of the handsets that leave, so that a claim it has made since becomes NONE (R175): DESIGN CHOICE,
notes/assumptions/38.md. -/
def State.gfuReset (s : State) : State :=
  State.emit
    { s with gfu := { s.gfu with
        groups := Table.build fun g => { s.group g with joined := [], floor := Floor.empty }
        calls := Table.fill .free } }
    (((Sends.all ((List.finRange 8).map fun c => (s.call c).alertEnds)).and
      (Sends.all ((List.finRange 16).map fun g => (s.group g).floor.clears g))).and
        { fromGfu := if s.behindPtb .gfu then s.gfuReleases fun _ => true else [] })

end Sys2Proof.Machine
end

