-- ==== Sys2Proof/Machine/Owners.lean ====
section
/-! DEFINITION. The commands that LCU or GFU takes from PTB, whichever owns the connection or the target: releases, return
notices and speaker questions (R35, R42, R43, R64). -/

namespace Sys2Proof.Machine

/-- A handset leaves a line as for RELEASE: absent if it stands there no more (R11, R43). -/
def State.leaveLine (s : State) (p : Pos) (h : Handset) (l : Line) : Option State :=
  ((s.line l).entry p h).map fun _ =>
    s.applyLine l (leaveEvent l (s.row l) (s.line l) (fun c => c.pos == p && c.hs == h) (leaveSends l))

/-- A handset leaves an intercom group as for RELEASE: absent if it stands there no more (R61). -/
def State.leaveJoined (s : State) (p : Pos) (h : Handset) (g : Grp) : Option State :=
  if (s.group g).handsetOf p = some h then some (s.leaveGroup g p) else none

/-- A handset leaves what a claim names as for RELEASE: absent if its owner no longer holds it there (R42, R43, R61, R73). -/
def State.leave (s : State) (p : Pos) (h : Handset) (c : Claim) : Option State := match c with
  | .line l => s.leaveLine p h l
  | .group g => s.leaveJoined p h g
  | .call n => s.leaveCall p h n
  | _ => none

/-- RELEASE at the owner: the claim is freed before the reply leaves (R36, R42, R43). -/
def State.ownerRelease (s : State) (p : Pos) (h : Handset) (v : Via) (c : Claim) : State :=
  match s.leave p h c with
  | none => s.reply p v .notConnected
  | some t => (t.freeClaimOf p h c).reply p v .accepted

/-- RELEASE_AT_OWNER (R42, R43, R61, R73). -/
def execReleaseAtOwner (o : Owner) (p : Pos) (h : Handset) (s : State) : Result :=
  match s.nextForHandset o p h with
  | some (.release _ _ v c, t) => .next (t.ownerRelease p h v c)
  | _ => .next s

/-- A release notice of an owner to PTB (R36). -/
def releasedBy (o : Owner) (p : Pos) (h : Handset) (c : Claim) : Sends := match o with
  | .lcu => { fromLcu := [.released p h c] }
  | .gfu => { fromGfu := [.released p h c] }

/-- A return notice at the owner: the handset leaves as for a RELEASE if the owner still holds it, with no reply (R35). PTB is told, as
at a RELEASE (R36), by a release notice: DEDUCED, notes/assumptions/53.md. -/
def State.ownerReturn (s : State) (o : Owner) (p : Pos) (h : Handset) (c : Claim) : State :=
  match s.leave p h c with
  | none => s
  | some t => t.emit (releasedBy o p h c)

/-- RETURN_NOTICE (R35). -/
def execReturnNotice (o : Owner) (p : Pos) (h : Handset) (s : State) : Result :=
  match s.nextForHandset o p h with
  | some (.giveBack _ _ c, t) => .next (t.ownerReturn o p h c)
  | _ => .next s

/-- The checks of a speaker assignment to a line (R64). -/
def lineTargetCheck (l : LineRec) (a : Appearance) : Option Code :=
  if l.state = .outOfService then some .outOfService
  else if l.cfg.kind = .hoot then some .badKind
  else if a.mode = .none then some .noAppearance
  else if a.barred then some .barred
  else none

/-- The checks of a speaker assignment to a group (R64). -/
def groupTargetCheck (r : GroupRec) (p : Pos) : Option Code :=
  if r.kind ≠ .hoot then some .badKind
  else if r.allow.look p = false then some .notMember
  else none

/-- The owner of a target answers PTB's question with a grant or a code (R64), marked where PTB has taken a soft reset that the owner
has yet to take (R175). -/
def State.answerSpeaker (s : State) (p : Pos) (k : Spk) (t : Target) : State := match t with
  | .none => s
  | .line l => s.emit { fromLcu := [.answer p k t (lineTargetCheck (s.line l) ((s.row l).look p)) (s.behindPtb .lcu)] }
  | .group g => s.emit { fromGfu := [.answer p k t (groupTargetCheck (s.group g) p) (s.behindPtb .gfu)] }

/-- SPEAKER_QUESTION (R64). -/
def execSpeakerQuestion (o : Owner) (p : Pos) (k : Spk) (s : State) : Result :=
  match s.nextForSpeaker o p k with
  | some (.speaker _ _ t, u) => .next (u.answerSpeaker p k t)
  | _ => .next s

end Sys2Proof.Machine
end

