-- ==== Sys2Proof/Machine/Sequences.lean ====
section
/-! DEFINITION. The commands that SQU takes (chapter 8): the Step Store, and the runs of the positions. -/

namespace Sys2Proof.Machine

/-- The record of a step. -/
def State.stepRec (s : State) (k : StepNo) : StepRec := s.squ.steps.look k

/-- The step that a run executes, with its owner or pausing (R147). -/
def RunRec.nextStep (r : RunRec) : Option StepNo := match r.state with
  | .waiting k _ _ | .pausing k _ _ => some k
  | _ => none

/-- The positions whose run waits at a step (R146). -/
def State.runsAt (s : State) (k : StepNo) : PosSet := Table.build fun p => (s.runOf p).nextStep == some k

/-! ## The Step Store -/

/-- STEP_WRITE (R145). -/
def execStepWrite (n : Port) (s : State) : Result :=
  .next (s.dispatch .stepWrite n fun b t =>
    match stepOf b with
    | none => t.answer (.port n) .badValue
    | some r =>
      if (posList (t.runsAt (levelOf (byteAt b 0)))).isEmpty then
        State.answer { t with squ := { t.squ with steps := t.squ.steps.put (levelOf (byteAt b 0)) r } } (.port n) .accepted
      else t.answer (.port n) .stepInUse)

/-- A step record as eight bytes (R182). -/
def StepRec.bytes (r : StepRec) : List Byte :=
  [r.action.byte, r.operands.op1, r.operands.op2, r.operands.op3, bitsByte [r.notify, r.next.isNone],
   match r.next with
   | none => 0
   | some k => byteOf k.val] ++ posSetBytes r.mask

/-- STEP_READ (R146). -/
def execStepRead (n : Port) (s : State) : Result :=
  .next (s.dispatch .stepRead n fun b t =>
    t.answer (.port n) .accepted
      ((t.stepRec (levelOf (byteAt b 0))).bytes ++ posSetBytes (t.runsAt (levelOf (byteAt b 0)))))

/-! ## Runs -/

/-- A record of a run, for the running position (R150). -/
def seqRecord (p : Pos) (e : Event) : Sends := record .squ (portOf p) e

/-- A run ends with a record: the run record is IDLE and steps done 0 (R149). -/
def State.endRun (s : State) (p : Pos) (e : Event) : State := (s.setRun p ⟨.idle, 0⟩).emit (seqRecord p e)

/-- A step submitted to its owner for the running position (R149). -/
def State.submit (s : State) (p : Pos) (q : Submission) : State :=
  { s with chan := { s.chan with submitted := s.chan.submitted.put p (some q) } }

/-- SEQ_STEP of an accepted step whose notify is ON (R150). -/
def State.seqStep (s : State) (p : Pos) (k : StepNo) (done : Nat) : State :=
  if (s.stepRec k).notify then s.emit (seqRecord p (.seqStep k (s.stepRec k).action done)) else s

/-- SQU begins a step of a run (R149). A PAUSE of count 0 expires at once, so that the run goes on in the same step
(R151); `fuel` bounds such a chain, which the limit of 32 steps ends. DEDUCED: notes/assumptions/6.md. -/
def State.beginStep (s : State) (p : Pos) (k first : StepNo) (done : Nat) : Nat → State
  | 0 => s
  | fuel + 1 =>
    if Config.runLimit ≤ done then s.endRun p (.seqStopped k .tooLong done)
    else match (s.stepRec k).action with
      | .none => s.endRun p (.seqStopped k .badStep done)
      | .request q =>
        (s.setRun p ⟨.waiting k first false, done + 1⟩).submit p { kind := q, operands := (s.stepRec k).operands }
      | .pause =>
        if (s.stepRec k).operands.op1 = 0 then
          let t := s.seqStep p k (done + 1)
          match (s.stepRec k).next with
          | none => t.endRun p (.seqDone first (done + 1))
          | some j => t.beginStep p j first (done + 1) fuel
        else s.setRun p ⟨.pausing k first (startTimer8 (s.stepRec k).operands.op1), done + 1⟩
where
  /-- A pause timer started with the count of its step (R151). -/
  startTimer8 (n : Byte) : Timer := some n.toNat

/-- SQU begins a step (R149). -/
def State.begin (s : State) (p : Pos) (k first : StepNo) (done : Nat) : State :=
  s.beginStep p k first done (Config.runLimit + 1)

/-- The run goes on after an accepted step: SEQ_DONE at END, else the next step is begun (R150, R151). -/
def State.goOn (s : State) (p : Pos) (k first : StepNo) (done : Nat) : State :=
  match (s.stepRec k).next with
  | none => s.endRun p (.seqDone first done)
  | some j => s.begin p j first done

/-- The checks of RUN_SEQUENCE in order (R148). -/
def State.runCheck (s : State) (p : Pos) (k : StepNo) : Option Code :=
  if (s.runOf p).state ≠ .idle then some .busy
  else if (s.stepRec k).mask.look p = false then some .notPermitted
  else if (s.stepRec k).action = .none then some .badValue
  else none

/-- RUN_SEQUENCE (R148). -/
def execRunSequence (n : Port) (s : State) : Result :=
  .next (s.request .runSequence (.port n) fun p v b t =>
    match t.runCheck p (levelOf (byteAt b 0)) with
    | some c => t.reply p v c
    | none => (t.begin p (levelOf (byteAt b 0)) (levelOf (byteAt b 0)) 0).reply p v .accepted)

/-- A WAITING run takes the outcome of its step (R150). -/
def State.stepOutcome (s : State) (p : Pos) (k first : StepNo) (abort : Bool) (done : Nat) (c : Code) : State :=
  if c = .accepted then
    let t := s.seqStep p k done
    if abort then
      match (s.stepRec k).next with
      | none => t.endRun p (.seqDone first done)
      | some j => t.endRun p (.seqStopped j .aborted done)
    else t.goOn p k first done
  else s.endRun p (.seqStopped k (.code c) done)

/-- STEP_OUTCOME (R150); the outcome of a DRAINING record is discarded (R154). -/
def execStepOutcome (p : Pos) (s : State) : Result :=
  match s.chan.outcomes.look p with
  | none => .next s
  | some c =>
    let t := { s with chan := { s.chan with outcomes := s.chan.outcomes.put p none } }
    match (s.runOf p).state with
    | .waiting k first abort => .next (t.stepOutcome p k first abort (s.runOf p).done c)
    | .draining => .next (t.setRun p ⟨.idle, 0⟩)
    | _ => .next t

/-- PAUSE_EXPIRY (R151). -/
def execPauseExpiry (p : Pos) (s : State) : Result :=
  match (s.runOf p).state with
  | .pausing k first (some 0) =>
    .next ((s.seqStep p k (s.runOf p).done).goOn p k first (s.runOf p).done)
  | _ => .next s

/-- ABORT_SEQUENCE at SQU (R152). -/
def State.abortRun (s : State) (p : Pos) (v : Via) : State :=
  match (s.runOf p).state with
  | .idle | .draining => s.reply p v .notRunning
  | .pausing k _ _ => (s.endRun p (.seqStopped k .aborted (s.runOf p).done)).reply p v .accepted
  | .waiting k first _ => (s.setRun p ⟨.waiting k first true, (s.runOf p).done⟩).reply p v .accepted

/-- ABORT_SEQUENCE (R152). -/
def execAbortSequence (n : Port) (s : State) : Result :=
  .next (s.request .abortSequence (.port n) fun p v _ t => t.abortRun p v)

/-! ## Loss of a position and soft reset (R154) -/

/-- A run record after the position-down notice or a soft reset: a run ends without a record. -/
def RunRec.ended (r : RunRec) : RunRec := match r.state with
  | .idle | .pausing .. => ⟨.idle, 0⟩
  | .waiting .. | .draining => ⟨.draining, 0⟩

/-- POSITION_DOWN_AT_SQU (R154). -/
def execPositionDownAtSqu (p : Pos) (s : State) : Result :=
  match takeFirst (· == p) s.chan.downSqu with
  | none => .next s
  | some (_, rest) => .next ((s.setChan { s.chan with downSqu := rest }).setRun p (s.runOf p).ended)

/-- SQU takes the soft reset (R154). -/
def State.squReset (s : State) : State :=
  { s with squ := { s.squ with runs := Table.build fun p => (s.runOf p).ended } }

end Sys2Proof.Machine
end

