-- ==== Sys2Proof/Machine/Taps.lean ====
section
/-! DEFINITION. The commands that RTU takes (chapter 7): coverage, the programming and locking of taps, recorder presence,
and the query of a tap. -/

namespace Sys2Proof.Machine

/-! ## Recording fault marks (R133, R142) -/

/-- The recording fault mark of a handset. -/
def State.fault (s : State) (p : Pos) (h : Handset) : Bool := (s.rtu.faults.look p).of h

/-- The state with one recording fault mark replaced. -/
def State.setFault (s : State) (p : Pos) (h : Handset) (on : Bool) : State :=
  { s with rtu := { s.rtu with faults := s.rtu.faults.put p ((s.rtu.faults.look p).set h on) } }

/-- The RECORDING_FAULT record of a coverage entry (R142). -/
def faultRecord (r : TapNo) (c : Cover) (on : Bool) : Sends :=
  record .rtu (portOf c.pos) (.recordingFault c.line c.hs r on)

/-- The handsets of some coverage entries enter or leave recording fault, with their records in list order and one TAP
notice if any mark has changed (R142). -/
def State.moveFaults (s : State) (r : TapNo) (cs : List Cover) (on : Bool) (quiet : Bool) : State :=
  let changed := cs.filter fun c => s.fault c.pos c.hs != on
  let t := changed.foldl (fun u c => u.setFault c.pos c.hs on) s
  let u := if quiet then t else t.emit (Sends.all (changed.map fun c => faultRecord r c on))
  if changed = [] then s else u.emit (notice (.tap r))

/-! ## Coverage (R138, R139) -/

/-- Whether a tap covers a handset on a line in a direction (R138). -/
def TapRec.covers (t : TapRec) (p : Pos) (h : Handset) (l : Line) (d : Direction) : Bool :=
  t.enabled && t.receive && t.send && t.takes d && (t.target == .handset p h || t.target == .line l)

/-- The first tap that covers a handset and has room (R138). -/
def State.coveringTap (s : State) (p : Pos) (h : Handset) (l : Line) (d : Direction) : Option TapNo :=
  (List.finRange 16).find? fun r =>
    (s.tap r).covers p h l d && decide ((s.tap r).coverage.length < Config.coverageRoom)

/-- RTU's answer to LCU (R138). -/
def State.answerLcu (s : State) (p : Pos) (h : Handset) (granted : Bool) : State :=
  s.setChan { s.chan with fromRtu := s.chan.fromRtu ++ [{ pos := p, hs := h, granted := granted }] }

/-- The tap in whose coverage list an entry stands. -/
def State.coverTap (s : State) (c : Cover) : Option TapNo :=
  (List.finRange 16).find? fun r => (s.tap r).coverage.contains c

/-- Whether a handset stands in some coverage list. -/
def State.covered (s : State) (p : Pos) (h : Handset) : Bool :=
  (List.finRange 16).any fun r => (s.tap r).coverage.any fun c => c.pos == p && c.hs == h

/-- A reservation (R138). Of a handset that already stands in a coverage list no second entry is made (R133): the entry asked
for is GRANTED as it stands, any other is NOT_RECORDED. DESIGN CHOICE: notes/assumptions/35.md. -/
def State.reserve (s : State) (p : Pos) (h : Handset) (l : Line) (d : Direction) : State :=
  if s.covered p h then s.answerLcu p h (s.coverTap ⟨p, h, l⟩).isSome
  else match s.coveringTap p h l d with
  | none => s.answerLcu p h false
  | some r =>
    let t := (s.setTap r { s.tap r with coverage := (s.tap r).coverage ++ [⟨p, h, l⟩] }).answerLcu p h true
    if (s.tap r).present then t else t.moveFaults r [⟨p, h, l⟩] true false

/-- COVERAGE_RESERVATION: the oldest message of LCU, if it is a reservation (R138). -/
def execCoverageReservation (s : State) : Result :=
  match s.chan.toRtu with
  | .reserve p h l d :: rest => .next ((s.setChan { s.chan with toRtu := rest }).reserve p h l d)
  | _ => .next s

/-- A release of coverage (R139); a release of the reset gives no record (R134). -/
def State.releaseCover (s : State) (c : Cover) (ofReset : Bool) : State :=
  match s.coverTap c with
  | none => s
  | some r =>
    (s.setTap r { s.tap r with coverage := (s.tap r).coverage.filter fun d => d != c }).moveFaults r [c] false ofReset

/-- COVERAGE_RELEASE: the oldest message of LCU, if it is a release (R139). -/
def execCoverageRelease (s : State) : Result :=
  match s.chan.toRtu with
  | .release p h l ofReset :: rest => .next ((s.setChan { s.chan with toRtu := rest }).releaseCover ⟨p, h, l⟩ ofReset)
  | _ => .next s

/-! ## Programming -/

/-- A tap request: its tap is read, and a tap above 15 is refused BAD_VALUE (section 7.2). -/
def State.tapRequest (s : State) (k : ReqKind) (n : Port) (own : TapNo → List Byte → State → State) : State :=
  s.dispatch k n fun b t => match numOf 16 (byteAt b 0) with
    | none => t.answer (.port n) .badValue
    | some r => own r b t

/-- Whether a target is a group that is not of kind HOOT (check 4 of R135). -/
def State.notHoot (s : State) (t : TapTarget) : Bool := match t with
  | .group g => (s.group g).kind != .hoot
  | _ => false

/-- TAP_SET at RTU (R135). -/
def State.tapSet (s : State) (n : Port) (r : TapNo) (b : List Byte) : State :=
  match tapTargetOf (byteAt b 1) (byteAt b 2) (byteAt b 3) with
  | none => s.answer (.port n) .badValue
  | some target =>
    if (s.tap r).lock ≠ .opened then s.answer (.port n) .tapLocked
    else if (s.tap r).enabled then s.answer (.port n) .tapBusy
    else if s.notHoot target then s.answer (.port n) .badTap
    else
      ((s.setTap r { s.tap r with
          target := target, receive := (byteAt b 4).getLsbD 0, send := (byteAt b 4).getLsbD 1
          incoming := (byteAt b 5).getLsbD 0, outgoing := (byteAt b 5).getLsbD 1 }).emit
        (notice (.tap r))).answer (.port n) .accepted

/-- TAP_SET (R135). -/
def execTapSet (n : Port) (s : State) : Result := .next (s.tapRequest .tapSet n fun r b t => t.tapSet n r b)

/-- TAP_DISABLE (R135). -/
def execTapDisable (n : Port) (s : State) : Result :=
  .next (s.tapRequest .tapDisable n fun r _ t =>
    if (t.tap r).lock ≠ .opened then t.answer (.port n) .tapLocked
    else if (t.tap r).coverage ≠ [] then t.answer (.port n) .tapInUse
    else if (t.tap r).enabled then
      ((t.setTap r { t.tap r with enabled := false }).emit (notice (.tap r))).answer (.port n) .accepted
    else t.answer (.port n) .accepted)

/-- Whether a tap holds a choice in every attribute group (R136). -/
def TapRec.programmed (t : TapRec) : Bool :=
  t.target != .none && (t.receive || t.send) && (t.incoming || t.outgoing)

/-- TAP_ENABLE (R136). -/
def execTapEnable (n : Port) (s : State) : Result :=
  .next (s.tapRequest .tapEnable n fun r _ t =>
    if (t.tap r).enabled then t.answer (.port n) .accepted
    else if (t.tap r).programmed = false then t.answer (.port n) .badTap
    else
      let u := (t.setTap r { t.tap r with enabled := true }).emit (notice (.tap r))
      (if (t.tap r).present then u else u.emit (record .rtu mgmt (.recorderLost r))).answer (.port n) .accepted)

/-- The lock of a tap replaced and the request accepted. -/
def State.lockTo (s : State) (n : Port) (r : TapNo) (l : Lock) : State :=
  (s.setTap r { s.tap r with lock := l }).answer (.port n) .accepted

/-- TAP_LOCK (R137). -/
def execTapLock (n : Port) (s : State) : Result :=
  .next (s.tapRequest .tapLock n fun r _ t =>
    match (t.tap r).lock with
    | .opened => t.lockTo n r .locked
    | .locked => t.answer (.port n) .accepted
    | .fixed => t.answer (.port n) .tapLocked)

/-- TAP_UNLOCK (R137). -/
def execTapUnlock (n : Port) (s : State) : Result :=
  .next (s.tapRequest .tapUnlock n fun r _ t =>
    match (t.tap r).lock with
    | .opened => t.answer (.port n) .accepted
    | .locked => t.lockTo n r .opened
    | .fixed => t.answer (.port n) .tapLocked)

/-- TAP_FIX (R137). -/
def execTapFix (n : Port) (s : State) : Result :=
  .next (s.tapRequest .tapFix n fun r _ t =>
    match (t.tap r).lock with
    | .locked => if (t.tap r).enabled then t.lockTo n r .fixed else t.answer (.port n) .badTap
    | _ => t.answer (.port n) .badTap)

/-- The body of QUERY_TAP (R143). -/
def State.tapBody (s : State) (r : TapNo) : List Byte :=
  let t := s.tap r
  t.target.bytes
    ++ [bitsByte [t.receive, t.send], bitsByte [t.incoming, t.outgoing], onByte t.enabled, t.lock.byte,
        onByte (!t.present), onByte (s.tapActive t), byteOf t.coverage.length]
    ++ t.coverage.flatMap fun c => [byteOf c.pos.val, handsetByte c.hs, byteOf c.line.val]

/-- QUERY_TAP (R143). -/
def execQueryTap (n : Port) (s : State) : Result :=
  .next (s.tapRequest .queryTap n fun r _ t => t.answer (.port n) .accepted (t.tapBody r))

/-! ## Recorder presence and soft reset -/

/-- A change of a recorder-present input (R142). -/
def State.recorderChange (s : State) (r : TapNo) (present : Bool) : State :=
  let t := s.setTap r { s.tap r with present := present }
  if (s.tap r).enabled then
    (t.emit (record .rtu mgmt (if present then .recorderRestored r else .recorderLost r))).moveFaults r
      (s.tap r).coverage (!present) false
  else t

/-- RECORDER_PRESENT_CHANGE (R142). -/
def execRecorderPresentChange (r : TapNo) (present : Bool) (s : State) : Result :=
  if (s.tap r).present = present then .next s else .next (s.recorderChange r present)

/-- The TAP notices that RTU sends after a soft reset (R134). -/
def tapNotices : Sends := { notices := (List.finRange 16).map .tap }

end Sys2Proof.Machine
end

