-- ==== Sys2Proof/Machine/Shelf.lean ====
section
/-! DEFINITION. Shelf management (chapter 11): the resets and the identification. -/

namespace Sys2Proof.Machine

/-- POWER_ON_RESET: every record of every block in its power-on state (R165); the commands that wait stay.
DESIGN CHOICE: notes/assumptions/4.md. -/
def execPowerOnReset (far : Vector Bool 64) (present : Vector Bool 16) (s : State) : Result :=
  .next (State.poweredOn far present s.pending)

/-! ## Soft reset in two requests (R173, R174) -/

/-- RESET_ARM (R173): the dispatcher has armed as it took the request. -/
def execResetArm (n : Port) (s : State) : Result :=
  .next (s.dispatch .resetArm n fun _ t => t.answer (.port n) .accepted)

/-- Phase 1 of a soft reset: EVU takes it, and the six owners have it to take (R168, R174). -/
def State.startReset (s : State) : State :=
  { s with
    evu := { ports := Table.build fun m => (s.events m).soft }
    lki := { s.lki with
      softReset := some { ptb := false, lcu := false, gfu := false, cmx := false, rtu := false, squ := false } } }

/-- RESET_EXECUTE (R173, R174): carried out if the arm state was ARMED; its reply leaves at completion. -/
def execResetExecute (n : Port) (s : State) : Result :=
  .next (s.dispatch .resetExecute n fun _ t =>
    if s.lki.armed then t.startReset else t.answer (.port n) .notPermitted)

/-- The soft reset in progress replaced. -/
def State.setReset (s : State) (r : Option ResetProgress) : State := { s with lki := { s.lki with softReset := r } }

/-- An owner takes the soft reset, if it has one to take (phase 2 of R174). -/
def State.ownerReset (s : State) (taken : ResetProgress → Bool) (mark : ResetProgress → ResetProgress)
    (act : State → State) : State :=
  match s.lki.softReset with
  | none => s
  | some r => if taken r then s else (act s).setReset (some (mark r))

/-- SOFT_RESET_AT_PTB (R32, R49, R66). -/
def execSoftResetAtPtb (s : State) : Result :=
  .next (s.ownerReset ResetProgress.ptb (fun r => { r with ptb := true }) State.ptbReset)

/-- SOFT_RESET_AT_LCU (R27, R28, R51). -/
def execSoftResetAtLcu (s : State) : Result :=
  .next (s.ownerReset ResetProgress.lcu (fun r => { r with lcu := true }) State.lcuReset)

/-- SOFT_RESET_AT_GFU (R57, R67, R77). -/
def execSoftResetAtGfu (s : State) : Result :=
  .next (s.ownerReset ResetProgress.gfu (fun r => { r with gfu := true }) State.gfuReset)

/-- SOFT_RESET_AT_CMX (R98, R124, R132). -/
def execSoftResetAtCmx (s : State) : Result :=
  .next (s.ownerReset ResetProgress.cmx (fun r => { r with cmx := true }) State.cmxReset)

/-- SOFT_RESET_AT_RTU (R134): taps, coverage and marks stay; the entries leave by LCU's releases of the reset. -/
def execSoftResetAtRtu (s : State) : Result :=
  .next (s.ownerReset ResetProgress.rtu (fun r => { r with rtu := true }) id)

/-- SOFT_RESET_AT_SQU (R154). -/
def execSoftResetAtSqu (s : State) : Result :=
  .next (s.ownerReset ResetProgress.squ (fun r => { r with squ := true }) State.squReset)

/-- Whether all six owners have taken the reset (R174). -/
def ResetProgress.complete (r : ResetProgress) : Bool := r.ptb && r.lcu && r.gfu && r.cmx && r.rtu && r.squ

/-- LCU's part of the completion: the far seize of each line that the reset has put in IDLE, in rising line order (R27).
DESIGN CHOICE: notes/assumptions/41.md. -/
def State.lcuComplete (s : State) : State :=
  (List.finRange 64).foldl (fun u l => u.applyLine l (lcuCompletes l (u.row l) (u.line l))) s

/-- Phase 3 (R174): LCU reads the far seizes, every leg is to be derived, RTU sends its TAP notices, and the reply leaves. -/
def State.completeReset (s : State) : State :=
  let t := s.lcuComplete
  (({ t with cmx := t.cmx.await fun _ => true }.emit tapNotices).setReset none).answer (.port mgmt) .accepted

/-- SOFT_RESET_COMPLETION (R174). -/
def execSoftResetCompletion (s : State) : Result :=
  match s.lki.softReset with
  | some r => if r.complete then .next s.completeReset else .next s
  | none => .next s

/-! ## Identification (R176, R184) -/

/-- IDENTIFY (R176): the reply carries the power-on flag, which is then CLEAR. -/
def execIdentify (n : Port) (s : State) : Result :=
  .next (s.dispatch .identify n fun _ t =>
    State.answer { t with lki := { t.lki with powerOn := false } } (.port n) .accepted
      (Config.identity ++ [onByte t.lki.powerOn]))

end Sys2Proof.Machine
end

