-- ==== Sys2Proof/Machine/Dispatch.lean ====
section
/-! DEFINITION. The meaning of every command: one arm for each row of spec/opcode_table.json. -/

namespace Sys2Proof.Machine

/-- What a command does to everything but the queue of waiting commands. -/
def exec (i : Instr) (s : State) : Host.Outcome State Fault Refusal :=
  match i with
  | .powerOnReset far present => Sys2Proof.Machine.execPowerOnReset far present s
  | .farSeizeChange l on => Sys2Proof.Machine.execFarSeizeChange l on s
  | .qualifyExpiry l => Sys2Proof.Machine.execQualifyExpiry l s
  | .answerExpiry l => Sys2Proof.Machine.execAnswerExpiry l s
  | .ringOutExpiry l => Sys2Proof.Machine.execRingOutExpiry l s
  | .holdRecallExpiry l => Sys2Proof.Machine.execHoldRecallExpiry l s
  | .guardExpiry l => Sys2Proof.Machine.execGuardExpiry l s
  | .takeLine r => Sys2Proof.Machine.execTakeLine r s
  | .takeLineAtLcu p h => Sys2Proof.Machine.execTakeLineAtLcu p h s
  | .reservationAnswer p h => Sys2Proof.Machine.execReservationAnswer p h s
  | .coverageReservation => Sys2Proof.Machine.execCoverageReservation s
  | .coverageRelease => Sys2Proof.Machine.execCoverageRelease s
  | .finalClaim o p h => Sys2Proof.Machine.execFinalClaim o p h s
  | .returnNotice o p h => Sys2Proof.Machine.execReturnNotice o p h s
  | .releaseNotice o p h => Sys2Proof.Machine.execReleaseNotice o p h s
  | .release r => Sys2Proof.Machine.execRelease r s
  | .releaseAtOwner o p h => Sys2Proof.Machine.execReleaseAtOwner o p h s
  | .hold r => Sys2Proof.Machine.execHold r s
  | .holdAtLcu p h => Sys2Proof.Machine.execHoldAtLcu p h s
  | .setPrivacy r => Sys2Proof.Machine.execSetPrivacy r s
  | .mute n => Sys2Proof.Machine.execMute n s
  | .signalLine r => Sys2Proof.Machine.execSignalLine r s
  | .assignSpeaker r => Sys2Proof.Machine.execAssignSpeaker r s
  | .speakerQuestion o p k => Sys2Proof.Machine.execSpeakerQuestion o p k s
  | .assignmentAnswer o p => Sys2Proof.Machine.execAssignmentAnswer o p s
  | .removalNotice o p => Sys2Proof.Machine.execRemovalNotice o p s
  | .setVolume r => Sys2Proof.Machine.execSetVolume r s
  | .queryLine n => Sys2Proof.Machine.execQueryLine n s
  | .queryPosition n => Sys2Proof.Machine.execQueryPosition n s
  | .talkReport l => Sys2Proof.Machine.execTalkReport l s
  | .lineConfig n => Sys2Proof.Machine.execLineConfig n s
  | .lineServiceOut n => Sys2Proof.Machine.execLineServiceOut n s
  | .lineServiceIn n => Sys2Proof.Machine.execLineServiceIn n s
  | .appearanceSet n => Sys2Proof.Machine.execAppearanceSet n s
  | .appearanceBar n => Sys2Proof.Machine.execAppearanceBar n s
  | .positionConfig n => Sys2Proof.Machine.execPositionConfig n s
  | .positionDownAtPtb p => Sys2Proof.Machine.execPositionDownAtPtb p s
  | .positionDownAtLcu p => Sys2Proof.Machine.execPositionDownAtLcu p s
  | .positionDownAtGfu p => Sys2Proof.Machine.execPositionDownAtGfu p s
  | .positionDownAtSqu p => Sys2Proof.Machine.execPositionDownAtSqu p s
  | .positionDownAtEvu n => Sys2Proof.Machine.execPositionDownAtEvu n s
  | .standingUpNotice p => Sys2Proof.Machine.execStandingUpNotice p s
  | .groupConfig n => Sys2Proof.Machine.execGroupConfig n s
  | .joinGroup r => Sys2Proof.Machine.execJoinGroup r s
  | .joinGroupAtGfu p h => Sys2Proof.Machine.execJoinGroupAtGfu p h s
  | .hootAttach n => Sys2Proof.Machine.execHootAttach n s
  | .attachQuestion l => Sys2Proof.Machine.execAttachQuestion l s
  | .attachAnswer l => Sys2Proof.Machine.execAttachAnswer l s
  | .attachOutcome l => Sys2Proof.Machine.execAttachOutcome l s
  | .hootDetach n => Sys2Proof.Machine.execHootDetach n s
  | .hootLineRemoval l => Sys2Proof.Machine.execHootLineRemoval l s
  | .listenOn => Sys2Proof.Machine.execListenOn s
  | .listenOff => Sys2Proof.Machine.execListenOff s
  | .callConfig n => Sys2Proof.Machine.execCallConfig n s
  | .callPosition r => Sys2Proof.Machine.execCallPosition r s
  | .callPositionAtGfu p h => Sys2Proof.Machine.execCallPositionAtGfu p h s
  | .answerCall n => Sys2Proof.Machine.execAnswerCall n s
  | .answerCallAtGfu p h => Sys2Proof.Machine.execAnswerCallAtGfu p h s
  | .declineCall n => Sys2Proof.Machine.execDeclineCall n s
  | .callAlertExpiry c => Sys2Proof.Machine.execCallAlertExpiry c s
  | .queryGroup n => Sys2Proof.Machine.execQueryGroup n s
  | .floorRequest r => Sys2Proof.Machine.execFloorRequest r s
  | .floorRelease r => Sys2Proof.Machine.execFloorRelease r s
  | .holdTimerExpiry g => Sys2Proof.Machine.execHoldTimerExpiry g s
  | .pinFloor n => Sys2Proof.Machine.execPinFloor n s
  | .unpin n => Sys2Proof.Machine.execUnpin n s
  | .voxActiveReport p => Sys2Proof.Machine.execVoxActiveReport p s
  | .voxQuietReport p => Sys2Proof.Machine.execVoxQuietReport p s
  | .changeNotice q => Sys2Proof.Machine.execChangeNotice q s
  | .derivationStart => Sys2Proof.Machine.execDerivationStart s
  | .listInstall => Sys2Proof.Machine.execListInstall s
  | .audioFrame mics receives => Sys2Proof.Machine.execAudioFrame mics receives s
  | .legLevel n => Sys2Proof.Machine.execLegLevel n s
  | .queryLeg n => Sys2Proof.Machine.execQueryLeg n s
  | .detectorConfig n => Sys2Proof.Machine.execDetectorConfig n s
  | .querySource n => Sys2Proof.Machine.execQuerySource n s
  | .tapSet n => Sys2Proof.Machine.execTapSet n s
  | .tapDisable n => Sys2Proof.Machine.execTapDisable n s
  | .tapEnable n => Sys2Proof.Machine.execTapEnable n s
  | .tapLock n => Sys2Proof.Machine.execTapLock n s
  | .tapUnlock n => Sys2Proof.Machine.execTapUnlock n s
  | .tapFix n => Sys2Proof.Machine.execTapFix n s
  | .queryTap n => Sys2Proof.Machine.execQueryTap n s
  | .recorderPresentChange r present => Sys2Proof.Machine.execRecorderPresentChange r present s
  | .stepWrite n => Sys2Proof.Machine.execStepWrite n s
  | .stepRead n => Sys2Proof.Machine.execStepRead n s
  | .runSequence n => Sys2Proof.Machine.execRunSequence n s
  | .stepOutcome p => Sys2Proof.Machine.execStepOutcome p s
  | .pauseExpiry p => Sys2Proof.Machine.execPauseExpiry p s
  | .abortSequence n => Sys2Proof.Machine.execAbortSequence n s
  | .syncFound n align => Sys2Proof.Machine.execSyncFound n align s
  | .receiverHunt n bytes => Sys2Proof.Machine.execReceiverHunt n bytes s
  | .frameClose n bytes => Sys2Proof.Machine.execFrameClose n bytes s
  | .frameAbort n bytes => Sys2Proof.Machine.execFrameAbort n bytes s
  | .frameError n bytes => Sys2Proof.Machine.execFrameError n bytes s
  | .linkLossTimerExpiry n => Sys2Proof.Machine.execLinkLossTimerExpiry n s
  | .linkUpTimerExpiry n => Sys2Proof.Machine.execLinkUpTimerExpiry n s
  | .replySend n => Sys2Proof.Machine.execReplySend n s
  | .eventFrame n => Sys2Proof.Machine.execEventFrame n s
  | .testFrameSend n => Sys2Proof.Machine.execTestFrameSend n s
  | .unknownRequest n => Sys2Proof.Machine.execUnknownRequest n s
  | .recordPlacement b => Sys2Proof.Machine.execRecordPlacement b s
  | .statusRead n => Sys2Proof.Machine.execStatusRead n s
  | .portMode n => Sys2Proof.Machine.execPortMode n s
  | .testFrame n => Sys2Proof.Machine.execTestFrame n s
  | .eventSetup n => Sys2Proof.Machine.execEventSetup n s
  | .fetchEvents n => Sys2Proof.Machine.execFetchEvents n s
  | .summary n => Sys2Proof.Machine.execSummary n s
  | .portReset n => Sys2Proof.Machine.execPortReset n s
  | .resetArm n => Sys2Proof.Machine.execResetArm n s
  | .resetExecute n => Sys2Proof.Machine.execResetExecute n s
  | .softResetAtPtb => Sys2Proof.Machine.execSoftResetAtPtb s
  | .softResetAtLcu => Sys2Proof.Machine.execSoftResetAtLcu s
  | .softResetAtGfu => Sys2Proof.Machine.execSoftResetAtGfu s
  | .softResetAtCmx => Sys2Proof.Machine.execSoftResetAtCmx s
  | .softResetAtRtu => Sys2Proof.Machine.execSoftResetAtRtu s
  | .softResetAtSqu => Sys2Proof.Machine.execSoftResetAtSqu s
  | .softResetCompletion => Sys2Proof.Machine.execSoftResetCompletion s
  | .identify n => Sys2Proof.Machine.execIdentify n s
  | .frameOpen n => Sys2Proof.Machine.execFrameOpen n s
  | .frameSent n => Sys2Proof.Machine.execFrameSent n s

end Sys2Proof.Machine
end

