-- ==== Sys2Proof/Machine/Timebase.lean ====
section
/-! DEFINITION. The timebase (R2): one tick of 8 ms, and at every 125th of them one tick of 1 s. The table has no row for a
tick; it is what the part does when no command waits. A timer that reaches 0 has its expiry put in the queue. -/

namespace Sys2Proof.Machine

/-- A running timer after one tick of its unit. -/
def Timer.next (t : Timer) : Timer := t.map fun n => n - 1

/-- Whether a timer expires at this tick. -/
def Timer.due (t : Timer) : Bool := t == some 1

/-- A timer after a tick that is one of its unit's only where `on` holds. -/
def Timer.nextIf (on : Bool) (t : Timer) : Timer := if on then Timer.next t else t

/-- Whether the state timer of a line counts 1 s units in its present state (R9): the answer and hold-recall timers do, the
ring-out and guard timers count 8 ms units. -/
def LineState.inSeconds (s : LineState) : Bool := match s with
  | .connected | .releasing => false
  | _ => true

/-- Whether the state timer of a line moves at this tick. -/
def LineRec.moves (r : LineRec) (second : Bool) : Bool := second || !r.state.inSeconds

/-- A line after a tick. -/
def LineRec.tick (r : LineRec) (second : Bool) : LineRec :=
  { r with qualifyTimer := Timer.next r.qualifyTimer, stateTimer := Timer.nextIf (r.moves second) r.stateTimer }

/-- What the outgoing link of a port carries while no command comes. In REMOTE_ECHO it is the idle fill that comes in to a receiver
in SYNCED, from the second byte of the pair where the first has been taken (R163). In the other modes it is the transmitter's own
idle fill, if it has no frame to send (R155). -/
def PortRec.fill (r : PortRec) : List Byte := match r.mode with
  | .remoteEcho =>
    if r.rx.inPair then Config.syncB :: fillPair
    else if r.rx.state = .synced ∧ r.rx.held = none then fillPair else r.linkOut
  | .normal | .localLoop => if r.tx.isNone then fillPair else r.linkOut

/-- A port after a tick. The idle fill that comes in from outside completes a pair that its receiver has begun (R155, R157).
DEDUCED: notes/assumptions/43.md. -/
def PortRec.tick (r : PortRec) : PortRec :=
  { r with
    rx := if r.mode ≠ .localLoop ∧ r.rx.inPair = true then Rx.insync else r.rx
    lossTimer := Timer.next r.lossTimer, upTimer := Timer.next r.upTimer, linkOut := r.fill }

/-- A group after a tick. -/
def GroupRec.tick (r : GroupRec) (second : Bool) : GroupRec :=
  { r with floor := { r.floor with holdTimer := Timer.nextIf second r.floor.holdTimer } }

/-- A call record after a tick. -/
def CallRec.tick (c : CallRec) (second : Bool) : CallRec := match c with
  | .alerting p h q v t => .alerting p h q v (Timer.nextIf second t)
  | _ => c

/-- Whether a call's alert timer expires at a tick of 1 s. -/
def CallRec.due (c : CallRec) : Bool := match c with
  | .alerting _ _ _ _ t => Timer.due t
  | _ => false

/-- A run after a tick. -/
def RunRec.tick (r : RunRec) : RunRec := match r.state with
  | .pausing k f t => { r with state := .pausing k f (Timer.next t) }
  | _ => r

/-- Whether a run's pause timer expires at this tick. -/
def RunRec.due (r : RunRec) : Bool := match r.state with
  | .pausing _ _ t => Timer.due t
  | _ => false

/-- The expiry of a line's state timer, by the state of the line (R9). -/
def stateExpiry (s : LineState) (l : Line) : Instr := match s with
  | .connected => .ringOutExpiry l
  | .held => .holdRecallExpiry l
  | .releasing => .guardExpiry l
  | _ => .answerExpiry l

/-- The expiries of one tick. Those of one line have the state timer's before the qualify timer's; the others concern
different records. DESIGN CHOICE: notes/assumptions/3.md. -/
def State.expiries (s : State) (second : Bool) : List Instr :=
  ((List.finRange 17).filter fun n => Timer.due (s.port n).lossTimer).map .linkLossTimerExpiry
    ++ ((List.finRange 17).filter fun n => Timer.due (s.port n).upTimer).map .linkUpTimerExpiry
    ++ ((List.finRange 64).filter fun l => (s.line l).moves second && Timer.due (s.line l).stateTimer).map
        (fun l => stateExpiry (s.line l).state l)
    ++ ((List.finRange 64).filter fun l => Timer.due (s.line l).qualifyTimer).map .qualifyExpiry
    ++ ((List.finRange 16).filter fun g => second && Timer.due (s.group g).floor.holdTimer).map .holdTimerExpiry
    ++ ((List.finRange 8).filter fun c => second && (s.call c).due).map .callAlertExpiry
    ++ ((List.finRange 16).filter fun p => (s.runOf p).due).map .pauseExpiry

/-- One tick of 8 ms (R2). -/
def State.tick (s : State) : State :=
  let ticks := (s.ticks + 1) % Config.ticksPerSecond
  let second := ticks == 0
  { s with
    lki := { s.lki with ports := Table.build fun n => (s.port n).tick }
    lcu := { s.lcu with lines := Table.build fun l => (s.line l).tick second }
    gfu := { s.gfu with
      groups := Table.build fun g => (s.group g).tick second
      calls := Table.build fun c => (s.call c).tick second }
    squ := { s.squ with runs := Table.build fun p => (s.runOf p).tick }
    ticks := ticks
    pending := s.pending ++ s.expiries second }

end Sys2Proof.Machine
end

