-- ==== Sys2Proof/Safety.lean ====
section
/-! DEFINITION. The terms in which claims about the part are stated: when a command has something to take, what a safe state
is, and the command that takes a port's request. -/

namespace Sys2Proof.Machine

/-! ## What there is to take -/

/-- The frame `f` is the next thing the dispatcher of port `n` takes, and its kind byte names `k`: it heads the request
queue, no request is in flight and no reply waits (R162, R166). -/
abbrev State.Heads (s : State) (n : Port) (k : ReqKind) (f : Frame) : Prop :=
  (s.port n).inFlight = none ∧ (s.port n).reply = none ∧ (s.port n).queue.head? = some f ∧ reqKindOf f.kind = some k

/-- The frame `f` heads the queue of port `n` and passes the three checks of R166 as a request of kind `k`. -/
abbrev State.Offers (s : State) (n : Port) (k : ReqKind) (f : Frame) : Prop :=
  s.Heads n k f ∧ k.permitted n = true ∧ k.lengthOk f.body.length = true

/-- Requester `r`, which acts for position `p`, has a request of kind `k` with this body for its owner to take, and `t` is
the state once it is taken: a frame of its port (R166), or the step that its run has submitted (R149). -/
abbrev State.Submits (s : State) (r : Requester) (k : ReqKind) (p : Pos) (body : List Byte) (t : State) : Prop :=
  match r with
  | .port n =>
    posOf n = some p ∧ ∃ f, s.Offers n k f ∧ body = f.body ∧ t = s.takeFrame n f
  | .run q =>
    q = p ∧ ∃ o, s.chan.submitted.look p = some ⟨k, o⟩ ∧ body = o.bytes
      ∧ t = { s with chan := { s.chan with submitted := s.chan.submitted.put p none } }

/-- The wait queue of a floor with one entry named: those before it and after it, and the deferred entries that move up when it
leaves, because it is the last of its level, with those that stay (R84). -/
abbrev Floor.Splits (f : Floor) (w : Waiter) (before after up stay : List Waiter) : Prop :=
  f.wait = before ++ w :: after ∧ (∀ x ∈ before ++ after, x.pos ≠ w.pos)
    ∧ (up, stay) = if ∃ x ∈ before ++ after, x.level = w.level then ([], f.deferred)
      else (f.deferred.filter fun x => x.level == w.level, f.deferred.filter fun x => x.level != w.level)

/-- The named entry is the one that the grant rule picks: of the highest level, and of those the earliest arrival (R80). -/
abbrev Floor.Picks (f : Floor) (w : Waiter) (before after up stay : List Waiter) : Prop :=
  f.Splits w before after up stay ∧ (∀ x ∈ before, x.level < w.level) ∧ ∀ x ∈ after, x.level ≤ w.level

/-- The LINE_STATE records of one event of a line: one for every position with a FULL or LISTEN appearance (R25). -/
def lineStates (num : Line) (row : Table 16 Appearance) (r : LineRec) (why : StateReason) : List Given :=
  (viewers row).map fun p => ⟨.lcu, portOf p, .lineState num r.state r.connected.length why r.privacy⟩

/-- One record of LCU for each of some positions. -/
def lcuRecords (ps : List Pos) (e : Event) : List Given := ps.map fun p => ⟨.lcu, portOf p, e⟩

/-- The command that takes a request of this kind from a port. LINE_SERVICE has a row for each of its settings; this is the
row of its OUT setting. -/
def commandOf (k : ReqKind) (n : Port) : Instr := match k with
  | .takeLine => .takeLine (.port n)
  | .release => .release (.port n)
  | .hold => .hold (.port n)
  | .setPrivacy => .setPrivacy (.port n)
  | .mute => .mute n
  | .signalLine => .signalLine (.port n)
  | .assignSpeaker => .assignSpeaker (.port n)
  | .joinGroup => .joinGroup (.port n)
  | .callPosition => .callPosition (.port n)
  | .answerCall => .answerCall n
  | .declineCall => .declineCall n
  | .floorRequest => .floorRequest (.port n)
  | .floorRelease => .floorRelease (.port n)
  | .runSequence => .runSequence n
  | .abortSequence => .abortSequence n
  | .setVolume => .setVolume (.port n)
  | .queryLine => .queryLine n
  | .queryPosition => .queryPosition n
  | .queryGroup => .queryGroup n
  | .statusRead => .statusRead n
  | .eventSetup => .eventSetup n
  | .fetchEvents => .fetchEvents n
  | .summary => .summary n
  | .portReset => .portReset n
  | .lineConfig => .lineConfig n
  | .lineService => .lineServiceOut n
  | .appearanceSet => .appearanceSet n
  | .appearanceBar => .appearanceBar n
  | .positionConfig => .positionConfig n
  | .groupConfig => .groupConfig n
  | .hootAttach => .hootAttach n
  | .hootDetach => .hootDetach n
  | .callConfig => .callConfig n
  | .pinFloor => .pinFloor n
  | .unpin => .unpin n
  | .legLevel => .legLevel n
  | .queryLeg => .queryLeg n
  | .detectorConfig => .detectorConfig n
  | .querySource => .querySource n
  | .tapSet => .tapSet n
  | .tapEnable => .tapEnable n
  | .tapDisable => .tapDisable n
  | .tapLock => .tapLock n
  | .tapUnlock => .tapUnlock n
  | .tapFix => .tapFix n
  | .queryTap => .queryTap n
  | .stepWrite => .stepWrite n
  | .stepRead => .stepRead n
  | .portMode => .portMode n
  | .testFrame => .testFrame n
  | .resetArm => .resetArm n
  | .resetExecute => .resetExecute n
  | .identify => .identify n

/-! ## Safe states -/

/-- The pool is accounted for and no mix list is longer than 16 entries (R97, R117). -/
def State.PoolBalanced (s : State) : Prop :=
  s.cmx.free + (s.cmx.legs.toList.map fun r => r.list.length).sum = Config.poolSize
    ∧ ∀ k, (s.leg k).list.length ≤ Config.listLimit

/-- No mix list holds a source twice, and neither does the list of the leg in derivation (R97). -/
def State.SourcesOnce (s : State) : Prop :=
  (∀ k, ((s.leg k).list.map fun e => e.src).Nodup) ∧ ∀ d, s.cmx.inProgress = some d → (d.list.map fun e => e.src).Nodup

/-- A position that PTB holds DOWN has both claims NONE, both mutes OFF and every speaker unassigned (R49). -/
def State.DownIsEmpty (s : State) : Prop :=
  ∀ p, (s.pos p).up = false →
    (s.pos p).claim = ⟨.none, .none⟩ ∧ (s.pos p).mute = ⟨false, false⟩ ∧ ∀ k, (s.pos p).assign.look k = .none

/-- The handsets that stand in the coverage lists of the sixteen taps, in tap and list order (R133). -/
def State.coveredHandsets (s : State) : List (Pos × Handset) :=
  (List.finRange 16).flatMap fun r => (s.tap r).coverage.map fun c => (c.pos, c.hs)

/-- No coverage list is longer than four entries, a DISABLED tap covers nothing, and no handset stands in two coverage lists or twice
in one (R133, R135, R138). -/
def State.CoverageKept (s : State) : Prop :=
  (∀ r, (s.tap r).coverage.length ≤ Config.coverageRoom ∧ ((s.tap r).enabled = false → (s.tap r).coverage = []))
    ∧ s.coveredHandsets.Nodup

/-- No request queue holds more than four frames (R158). -/
def State.RequestsFit (s : State) : Prop := ∀ n, (s.port n).queue.length ≤ Config.requestRoom

/-- No event queue holds more than 32 records, and EVU's images follow the standing of the ports: a running link up timer
belongs to a DOWN port, and EVU holds a DOWN port DOWN, with an empty queue, or has a down notice of it to take (R161,
R168). -/
def State.EventsFit (s : State) : Prop :=
  ∀ n, (s.events n).queue.length ≤ Config.eventRoom
    ∧ ((s.events n).up = false → (s.events n).queue = [])
    ∧ ((s.port n).upTimer.isSome = true → (s.port n).up = false)
    ∧ ((s.port n).up = false → (s.events n).up = false ∨ n ∈ s.chan.downEvu)

/-- A line record as its rules leave it: handsets only on an OUTGOING or CONNECTED line, no more of them than the bridge limit of 1
to 4 (R3, R4), near seize ON exactly while the line is OUTGOING, CONNECTED, HELD or RELEASING, and ring out only while it is
CONNECTED (R6). -/
def LineRec.Sound (r : LineRec) : Prop :=
  (r.connected ≠ [] → r.state = .outgoing ∨ r.state = .connected)
    ∧ r.connected.length ≤ r.cfg.bridgeLimit ∧ 1 ≤ r.cfg.bridgeLimit ∧ r.cfg.bridgeLimit ≤ 4
    ∧ (r.nearSeize = true ↔ r.state = .outgoing ∨ r.state = .connected ∨ r.state = .held ∨ r.state = .releasing)
    ∧ (r.ringOut = true → r.state = .connected)

/-- Every line record is sound. -/
def State.LinesSound (s : State) : Prop := ∀ l, (s.line l).Sound

/-- The handsets in the connected lists of the sixty-four lines, in line and list order (R3). -/
def State.lineHandsets (s : State) : List (Pos × Handset) :=
  (List.finRange 64).flatMap fun l => (s.line l).connected.map fun c => (c.pos, c.hs)

/-- The handsets in the joined lists of the sixteen groups and in the eight call records (R57, R67). -/
def State.talkHandsets (s : State) : List (Pos × Handset) :=
  ((List.finRange 16).flatMap fun g => (s.group g).joined) ++ (List.finRange 8).flatMap fun c => (s.call c).handsets

/-- No handset stands twice at its owner: at most once over all connected lists at LCU, and at most once over all joined lists
and call records at GFU (R3, R35, R60, R67). -/
def State.HandsetsStandOnce (s : State) : Prop := s.lineHandsets.Nodup ∧ s.talkHandsets.Nodup

/-- Whether a call record names a position, as its caller or its callee (R67). -/
def CallRec.names (c : CallRec) (p : Pos) : Bool := match c with
  | .free => false
  | .alerting q _ callee _ _ | .active q _ callee _ _ => q == p || callee == p

/-- No ALERTING or ACTIVE call names a position whose standing image at GFU is DOWN (R74). -/
def State.CallsNameUp (s : State) : Prop := ∀ c p, (s.call c).names p = true → s.gfu.up.look p = true

/-- A group of kind UNUSED is idle (R56). -/
def State.UnusedGroupsIdle (s : State) : Prop := ∀ g, (s.group g).kind = .unused → (s.group g).inUse = false

/-- A floor as its rules leave it: nobody is engaged twice, a MANAGED floor that is free has nobody waiting (R80), and a
deferred entry has an entry of its own level in the wait queue (R84). -/
def Floor.Sound (f : Floor) (openMode : Bool) : Prop :=
  f.everyone.Nodup
    ∧ (openMode = false → f.talkers = [] ∧ (f.holder = none → f.wait = []))
    ∧ (openMode = true → f.holder = none ∧ f.wait = [] ∧ f.deferred = [])
    ∧ (∀ w ∈ f.deferred, ∃ v ∈ f.wait, v.level = w.level)

/-- Every group's floor is sound, and a group that is not of kind HOOT has nobody engaged (R76). -/
def State.FloorsSound (s : State) : Prop :=
  ∀ g, (s.group g).floor.Sound (s.group g).openMode ∧ ((s.group g).kind ≠ .hoot → (s.group g).floor.everyone = [])

/-- The desk microphone of a position is engaged on the floor of at most one group (R76). -/
def State.MicsEngagedOnce (s : State) : Prop :=
  ∀ p g k, (s.group g).floor.engaged p = true → (s.group k).floor.engaged p = true → g = k

end Sys2Proof.Machine
end

