-- ==== Sys2Proof/Certificates/Slice0/Obligations.lean ====
section
/-! DEFINITION. The statements for the provers, in the order of OBLIGATIONS.json: the machine as a whole, then the eight
blocks, then the invariants. Each names the rules of spec/ that it rests on; a completion statement gives the whole next state,
so that its equation is also the command's frame. -/

open Sys2Proof Sys2Proof.Machine

/-! ## The machine -/

/-- The part takes the command at the front of its queue, and what it does is that command's effect on everything but the
queue. -/
def Obligations.StepTakesTheFrontCommand : Prop :=
  ∀ (c : Instr) (rest : List Instr) (s : State),
    step { s with pending := c :: rest } = exec c { s with pending := rest }

/-- No command stops the part, whatever the state: each answers a next state, with the queue of waiting commands as it was. -/
def Obligations.NoCommandStops : Prop :=
  ∀ (c : Instr) (s : State), ∃ t, exec c s = .next t ∧ t.pending = s.pending

/-- With no command waiting, a tick of 8 ms passes (R2); that the idle step is the tick is the model's choice
(notes/assumptions/2.md), and so is the 1 s tick at every 125th tick counted from power-on (notes/assumptions/3.md). Running
timers count down, those of 1 s units at every 125th tick alone (R9, R67, R82, R151, R160, R161): a timer that reaches 0 has
its expiry put in the queue once, and the queue holds nothing else. An outgoing link whose transmitter is idle carries the
fill pair (R155, the model's picture of the link: notes/assumptions/9.md), and that of a REMOTE_ECHO port the fill that comes
in (R163). Where a receiver has taken the SYNC_A of a pair, that fill begins with the SYNC_B and the receiver has the pair
(R157; notes/assumptions/43.md, DEDUCED). Nothing else moves, in any block. -/
def Obligations.IdleStepIsATick : Prop :=
  ∀ s : State, s.pending = [] → ∃ t, step s = .next t ∧ t.ticks = (s.ticks + 1) % 125
    ∧ t.ptb = s.ptb ∧ t.cmx = s.cmx ∧ t.rtu = s.rtu ∧ t.evu = s.evu ∧ t.chan = s.chan
    ∧ t.lki = { s.lki with ports := t.lki.ports } ∧ t.lcu = { s.lcu with lines := t.lcu.lines }
    ∧ t.gfu = { s.gfu with groups := t.gfu.groups, calls := t.gfu.calls } ∧ t.squ = { s.squ with runs := t.squ.runs }
    ∧ (∀ n r (begun : Bool), s.port n = r → (begun = true ↔ r.rx.state = .synced ∧ r.rx.held = some 0x96#8) → t.port n = { r with
        rx := if begun ∧ r.mode ≠ .localLoop then Rx.insync else r.rx
        lossTimer := r.lossTimer.map (· - 1), upTimer := r.upTimer.map (· - 1)
        linkOut :=
          if r.mode ≠ .remoteEcho then if r.tx = none then [0x96#8, 0x69#8] else r.linkOut
          else if begun then [0x69#8, 0x96#8, 0x69#8]
          else if r.rx.state = .synced ∧ r.rx.held = none then [0x96#8, 0x69#8] else r.linkOut })
    ∧ (∀ l, t.line l = { s.line l with
        qualifyTimer := (s.line l).qualifyTimer.map (· - 1)
        stateTimer :=
          if (s.line l).state = .connected ∨ (s.line l).state = .releasing ∨ t.ticks = 0 then
            (s.line l).stateTimer.map (· - 1)
          else (s.line l).stateTimer })
    ∧ (∀ g, t.group g = { s.group g with floor := { (s.group g).floor with
        holdTimer := if t.ticks = 0 then (s.group g).floor.holdTimer.map (· - 1) else (s.group g).floor.holdTimer } })
    ∧ (∀ c, t.call c = match s.call c with
      | .alerting p h q v x => .alerting p h q v (if t.ticks = 0 then x.map (· - 1) else x)
      | r => r)
    ∧ (∀ p, t.runOf p = match s.runOf p with
      | ⟨.pausing k first x, done⟩ => ⟨.pausing k first (x.map (· - 1)), done⟩
      | r => r)
    ∧ (∀ n, .linkLossTimerExpiry n ∈ t.pending ↔ (s.port n).lossTimer = some 1)
    ∧ (∀ n, .linkUpTimerExpiry n ∈ t.pending ↔ (s.port n).upTimer = some 1)
    ∧ (∀ l, .qualifyExpiry l ∈ t.pending ↔ (s.line l).qualifyTimer = some 1)
    ∧ (∀ l, .guardExpiry l ∈ t.pending ↔ (s.line l).state = .releasing ∧ (s.line l).stateTimer = some 1)
    ∧ (∀ l, .ringOutExpiry l ∈ t.pending ↔ (s.line l).state = .connected ∧ (s.line l).stateTimer = some 1)
    ∧ (∀ l, .holdRecallExpiry l ∈ t.pending ↔
        (s.line l).state = .held ∧ (s.line l).stateTimer = some 1 ∧ t.ticks = 0)
    ∧ (∀ l, .answerExpiry l ∈ t.pending ↔ (s.line l).state ≠ .connected ∧ (s.line l).state ≠ .held
        ∧ (s.line l).state ≠ .releasing ∧ (s.line l).stateTimer = some 1 ∧ t.ticks = 0)
    ∧ (∀ g, .holdTimerExpiry g ∈ t.pending ↔ (s.group g).floor.holdTimer = some 1 ∧ t.ticks = 0)
    ∧ (∀ c, .callAlertExpiry c ∈ t.pending ↔ (∃ p h q v, s.call c = .alerting p h q v (some 1)) ∧ t.ticks = 0)
    ∧ (∀ p, .pauseExpiry p ∈ t.pending ↔ ∃ k first done, s.runOf p = ⟨.pausing k first (some 1), done⟩)
    ∧ t.pending.Nodup
    ∧ (∀ i ∈ t.pending, (∃ n, i = .linkLossTimerExpiry n ∨ i = .linkUpTimerExpiry n)
        ∨ (∃ l, i = .qualifyExpiry l ∨ i = .answerExpiry l ∨ i = .ringOutExpiry l ∨ i = .holdRecallExpiry l ∨ i = .guardExpiry l)
        ∨ (∃ g, i = .holdTimerExpiry g) ∨ (∃ c, i = .callAlertExpiry c) ∨ ∃ p, i = .pauseExpiry p)

/-- Power-on reset puts every record at its power-on value, whatever stood before: ports (R165), lines, appearances and
waiting takes (R26, R28), positions (R32), groups, calls and standing images (R57, R67), legs, detectors and tone generators
(R98, R125, R126, R132), taps (R134), steps and runs (R144, R147), event queues (R168), the paths between the blocks and the
power-on flag (R176). The commands that wait stay: the model's choice (notes/assumptions/4.md). The picture of a link that
carries the fill pair, and the outputs at 0 before the first audio frame, are the model's (notes/assumptions/9.md,
notes/assumptions/8.md). -/
def Obligations.PowerOnReset : Prop :=
  ∀ (s : State) (far : Vector Bool 64) (present : Vector Bool 16),
    ∃ t, exec (.powerOnReset far present) s = .next t ∧ t.pending = s.pending ∧ t.ticks = 0
      ∧ t.chan =
        { given := [], notices := [], fromLcu := [], fromGfu := [], toLcu := [], toGfu := [], listening := [], ups := [],
          downPtb := [], downLcu := [], downGfu := [], downSqu := [], downEvu := [], toRtu := [], fromRtu := [],
          attachToLcu := [], attachToGfu := [], talk := [], vox := [], submitted := Table.fill none,
          outcomes := Table.fill none }
      ∧ t.lki.armed = false ∧ t.lki.softReset = none ∧ t.lki.powerOn = true
      ∧ (∀ n, t.port n =
          { rx := { state := .hunt, held := none, buffer := [] }, align := none, tx := none, linkOut := [0x96#8, 0x69#8],
            loop := [], reply := none, up := false, mode := .normal, queue := [], inFlight := none, frameError := false,
            checkError := false, overrun := false, lossTimer := none, upTimer := none, test := none })
      ∧ (∀ p, t.pos p =
          { up := false, claim := ⟨.none, .none⟩, mute := ⟨false, false⟩, assign := Table.fill .none,
            asking := Table.fill none, volume := Table.fill 96,
            settings := { alertSpeaker := 5, sidetone := 16, handsetDuck := 48, talkingDuck := 0, alertLevel := 64,
                          attentionLevel := 32, floorLevel := 0, fair := false, vox := false } })
      ∧ t.lcu.waiting = []
      ∧ (∀ l, t.line l =
            { cfg :=
                { kind := .unused, bridgeLimit := 4, answerPrivate := true, recordRequired := false, receiveLevel := 128,
                  bridgeLevel := 128, sendLevel := 128, idleSample := 0, qualifyCount := 5, answerCount := 30,
                  ringOutCount := 125, recallCount := 60, guardCount := 5 }
              hoot := none, state := .outOfService, raw := far.get l, qualified := false
              candidate := if far.get l then some true else none
              qualifyTimer := if far.get l then some 5 else none, stateTimer := none, nearSeize := false
              ringOut := false, direction := none, privacy := false, connected := [], owner := none, talk := false
              attachHold := false, resetIdle := false }
          ∧ ∀ p, (t.row l).look p = { mode := .none, barred := true })
      ∧ (∀ g, t.group g =
          { kind := .unused, allow := Table.fill false, talkLevel := 128, joined := [], openMode := false, holdLimit := 0,
            attached := [], listening := Table.fill false, floor := Floor.empty })
      ∧ (∀ c, t.call c = .free) ∧ t.gfu.alertCount = 20
      ∧ (∀ p, t.gfu.up.look p = false ∧ t.gfu.keptUp.look p = 0)
      ∧ (∀ k, t.leg k = { list := [], idle := 0, level := 128, clip := 0, out := 0 }
          ∧ t.cmx.awaited.look k = false ∧ t.cmx.truncated.look k = false)
      ∧ t.cmx.free = 1536 ∧ t.cmx.inProgress = none
      ∧ (∀ i, t.cmx.detectors.look i = { envelope := 0, state := .quiet, hang := 0 })
      ∧ t.cmx.micSet = { on := 1000, off := 500, hang := 25 } ∧ t.cmx.lineSet = { on := 1000, off := 500, hang := 25 }
      ∧ t.cmx.alertCount = 0 ∧ t.cmx.attentionCount = 0
      ∧ (∀ r, t.tap r =
          { target := .none, receive := false, send := false, incoming := false, outgoing := false, enabled := false,
            lock := .opened, coverage := [], present := present.get r })
      ∧ (∀ p, t.rtu.faults.look p = ⟨false, false⟩)
      ∧ (∀ k, t.stepRec k =
          { action := .none, operands := ⟨0, 0, 0⟩, notify := false, next := none, mask := Table.fill false })
      ∧ (∀ p, t.runOf p = ⟨.idle, 0⟩)
      ∧ (∀ n, t.events n =
          { queue := [], masked := Table.fill false, marks := Table.fill false, poll := false, up := false })

/-- The dispatcher's three checks, in order, for every kind of request (R166): a kind that is none of R178's is refused
UNKNOWN_REQUEST; a request that the port may not send is refused NOT_PERMITTED; a body of another length than the kind calls
for is refused BAD_VALUE. The owner is not asked: nothing but the port's request and reply, and the arm state, moves. -/
def Obligations.DispatcherChecksInOrder : Prop :=
  (∀ (s : State) (n : Port) (f : Frame),
    (s.port n).inFlight = none → (s.port n).reply = none → (s.port n).queue.head? = some f → reqKindOf f.kind = none →
    exec (.unknownRequest n) s = .next ((s.takeFrame n f).answer (.port n) .unknownRequest))
  ∧ (∀ (s : State) (n : Port) (k : ReqKind) (f : Frame), s.Heads n k f → k.permitted n = false →
    exec (commandOf k n) s = .next ((s.takeFrame n f).answer (.port n) .notPermitted))
  ∧ (∀ (s : State) (n : Port) (k : ReqKind) (f : Frame), s.Heads n k f → k.permitted n = true →
    k.lengthOk f.body.length = false →
    exec (commandOf k n) s = .next ((s.takeFrame n f).answer (.port n) .badValue))

/-- What taking a frame and answering it do to the ports (R162, R166, R173): the frame leaves the head of the queue and its
tag and kind are in flight; the answer ends that and leaves, on an UP port, a reply with the same tag and kind whose body is
the result code and the body given. The reply of a request in flight when its port goes DOWN is discarded, on a DOWN port and
on one that is UP again: that the request in flight remembers the loss is read from R166 (notes/assumptions/37.md, DEDUCED;
the going DOWN is O49's and O51's). Other ports keep everything. RESET_ARM on port 16 arms, any other request there disarms;
that a malformed or refused RESET_ARM arms too is the model's reading of R173 (notes/assumptions/23.md). -/
def Obligations.TakenRequestGetsItsReply : Prop :=
  ∀ (s : State) (n : Port) (f : Frame) (c : Code) (b : List Byte),
    ((s.takeFrame n f).port n = { s.port n with queue := (s.port n).queue.tail, inFlight := some ⟨f.tag, f.kind, false⟩ })
    ∧ ((s.takeFrame n f).lki.armed = if n = 16 then f.kind == 0x5A#8 else s.lki.armed)
    ∧ (∀ m, m ≠ n → ((s.takeFrame n f).answer (.port n) c b).port m = s.port m)
    ∧ (((s.takeFrame n f).answer (.port n) c b).port n =
        { s.port n with
          queue := (s.port n).queue.tail
          inFlight := none
          reply := if (s.port n).up then some ⟨f.tag, f.kind, c.byte :: b⟩ else (s.port n).reply })
    ∧ ((s.takeFrame n f).answer (.port n) c b).chan = s.chan
    ∧ ((s.port n).inFlight = none → s.answer (.port n) c b = s)
    ∧ (∀ tag kind lost, (s.port n).inFlight = some ⟨tag, kind, lost⟩ →
      s.answer (.port n) c b = s.setPort n { s.port n with
        inFlight := none
        reply := if (s.port n).up = true ∧ lost = false then some ⟨tag, kind, c.byte :: b⟩ else (s.port n).reply })
    ∧ (∀ p, (s.answer (.run p) c b) =
        { s with chan := { s.chan with outcomes := s.chan.outcomes.put p (some c) } })

/-- The kind bytes of R178: each request's own byte names it, and no other byte names a request. -/
def Obligations.KindBytesNameTheirRequests : Prop :=
  (∀ k : ReqKind, reqKindOf k.code = some k)
  ∧ (∀ b : Byte, ∀ k : ReqKind, reqKindOf b = some k → b = k.code)
  ∧ ReqKind.takeLine.code = 0x10 ∧ ReqKind.abortSequence.code = 0x1E ∧ ReqKind.setVolume.code = 0x20
  ∧ ReqKind.portReset.code = 0x28 ∧ ReqKind.lineConfig.code = 0x40 ∧ ReqKind.identify.code = 0x5C

/-! ## Lines (chapter 1) -/

/-- The far end of a line. A change of the far-seize input is recorded and qualified (R7); once the qualify timer has run out
(notes/assumptions/5.md) a candidate equal to the qualified value is discarded, and one that differs changes it and is
reported (R8), with no other effect on a line that is HOOT, UNUSED or OUT_OF_SERVICE. A qualified rise and a qualified fall
then act state by state: RINGDOWN in IDLE, INCOMING, CONNECTED, HELD and RELEASING (R12, R13, R14, R16, R21), AUTOMATIC in
every state (R17 to R21). FAR_STATUS goes first. That CMX gets one LINE notice where state, connected list or direction
changed, as at AUTOMATIC OUTGOING to CONNECTED and HELD to RELEASING, is the model's choice (notes/assumptions/18.md); a guard
count of 0 ends the guard in the same step, read so from R9 (notes/assumptions/6.md). -/
def Obligations.FarSeizeMovesTheLine : Prop :=
  (∀ (s : State) (l : Line) (r : LineRec) (v : Bool), s.line l = r →
    (r.raw = !v → exec (.farSeizeChange l v) s = .next (s.setLine l
      { r with raw := v, candidate := some v, qualifyTimer := some r.cfg.qualifyCount.val }))
    ∧ (r.qualifyTimer = some 0 → r.candidate = some v → r.qualified = v →
      exec (.qualifyExpiry l) s = .next (s.setLine l { r with candidate := none, qualifyTimer := none }))
    ∧ (r.qualifyTimer = some 0 → r.candidate = some v → r.qualified = !v →
      r.state = .outOfService ∨ r.cfg.kind = .hoot ∨ r.cfg.kind = .unused →
      exec (.qualifyExpiry l) s = .next ((s.setLine l
        { r with candidate := none, qualifyTimer := none, qualified := v }).emit
          { given := [⟨.lcu, mgmt, .farStatus l v⟩] }))
    ∧ (r.qualifyTimer ≠ some 0 → exec (.qualifyExpiry l) s = .next s)
    ∧ (r.raw = v → exec (.farSeizeChange l v) s = .next s))
  ∧ (∀ (s : State) (l : Line) (r q : LineRec) (far : Given), s.line l = r → r.qualifyTimer = some 0 →
    r.candidate = some true → r.qualified = false → far = ⟨.lcu, mgmt, .farStatus l true⟩ →
    q = { r with candidate := none, qualifyTimer := none, qualified := true } →
    (r.cfg.kind = .ringdown → r.state = .idle → ∀ x, x = { q with
        state := .incoming, nearSeize := false, ringOut := false, stateTimer := some r.cfg.answerCount.val } →
      exec (.qualifyExpiry l) s = .next ((s.setLine l x).emit
        { given := far :: lineStates l (s.row l) x .none, notices := [.line l] }))
    ∧ (r.cfg.kind = .ringdown → r.state = .incoming →
      exec (.qualifyExpiry l) s = .next ((s.setLine l { q with stateTimer := some r.cfg.answerCount.val }).emit
        { given := [far] }))
    ∧ (r.cfg.kind = .ringdown → r.state = .connected →
      exec (.qualifyExpiry l) s = .next ((s.setLine l q).emit
        { given := far :: lcuRecords (connectedPositions r) (.farSignal l) }))
    ∧ (r.cfg.kind = .ringdown → r.state = .held →
      exec (.qualifyExpiry l) s = .next ((s.setLine l q).emit
        { given := far :: lcuRecords (match r.owner with
            | some p => [p]
            | none => fullViewers (s.row l)) (.farSignal l) }))
    ∧ (r.cfg.kind = .automatic → r.state = .idle → ∀ x, x = { q with
        state := .incoming, nearSeize := false, ringOut := false, stateTimer := none } →
      exec (.qualifyExpiry l) s = .next ((s.setLine l x).emit
        { given := far :: lineStates l (s.row l) x .none, notices := [.line l] }))
    ∧ (r.cfg.kind = .automatic → r.state = .outgoing → ∀ x, x = { q with state := .connected, stateTimer := none } →
      exec (.qualifyExpiry l) s = .next ((s.setLine l x).emit
        { given := far :: lineStates l (s.row l) x .answered, notices := [.line l] }))
    ∧ ((r.cfg.kind = .ringdown ∧ r.state = .releasing
          ∨ r.cfg.kind = .automatic ∧
            (r.state = .incoming ∨ r.state = .connected ∨ r.state = .held ∨ r.state = .releasing)) →
      exec (.qualifyExpiry l) s = .next ((s.setLine l q).emit { given := [far] })))
  ∧ (∀ (s : State) (l : Line) (r q : LineRec) (far : Given), s.line l = r → r.qualifyTimer = some 0 →
    r.candidate = some false → r.qualified = true → far = ⟨.lcu, mgmt, .farStatus l false⟩ →
    q = { r with candidate := none, qualifyTimer := none, qualified := false } →
    ((r.cfg.kind = .ringdown
          ∨ r.cfg.kind = .automatic ∧ (r.state = .idle ∨ r.state = .outgoing ∨ r.state = .releasing)) →
      exec (.qualifyExpiry l) s = .next ((s.setLine l q).emit { given := [far] }))
    ∧ (r.cfg.kind = .automatic → r.state = .incoming → ∀ x, x = { q with
        state := .idle, nearSeize := false, ringOut := false, stateTimer := none, direction := none, privacy := false,
        connected := [], owner := none } →
      exec (.qualifyExpiry l) s = .next ((s.setLine l x).emit
        { given := far :: lineStates l (s.row l) x .abandoned, notices := [.line l] }))
    ∧ (r.cfg.kind = .automatic → r.state = .connected → r.cfg.guardCount ≠ 0 → ∀ x, x = { q with
        state := .releasing, nearSeize := true, ringOut := false, stateTimer := some r.cfg.guardCount.val,
        connected := [], owner := none } →
      exec (.qualifyExpiry l) s = .next ((s.setLine l x).emit
        { given := far :: (r.connected.map fun c => ⟨.lcu, portOf c.pos, .handsetReleased l c.hs .farCleared⟩)
            ++ lineStates l (s.row l) x .none
          notices := r.connected.map (fun c => .position c.pos) ++ [.line l]
          fromLcu := r.connected.map fun c => .released c.pos c.hs (.line l)
          toRtu := (r.connected.filter fun c => c.covered).map fun c => .release c.pos c.hs l false }))
    ∧ (r.cfg.kind = .automatic → r.state = .held → r.cfg.guardCount ≠ 0 → ∀ x, x = { q with
        state := .releasing, nearSeize := true, ringOut := false, stateTimer := some r.cfg.guardCount.val,
        connected := [], owner := none } →
      exec (.qualifyExpiry l) s = .next ((s.setLine l x).emit
        { given := far :: lineStates l (s.row l) x .none, notices := [.line l] }))
    ∧ (r.cfg.kind = .automatic → r.cfg.guardCount = 0 → ∀ x y, x = { q with
        state := .releasing, nearSeize := true, ringOut := false, stateTimer := some 0, connected := [], owner := none } →
      y = { q with
        state := .idle, nearSeize := false, ringOut := false, stateTimer := none, direction := none, privacy := false,
        connected := [], owner := none } →
      (r.state = .connected → exec (.qualifyExpiry l) s = .next ((s.setLine l y).emit
        { given := far :: (r.connected.map fun c => ⟨.lcu, portOf c.pos, .handsetReleased l c.hs .farCleared⟩)
            ++ lineStates l (s.row l) x .none ++ lineStates l (s.row l) y .none
          notices := r.connected.map (fun c => .position c.pos) ++ [.line l, .line l]
          fromLcu := r.connected.map fun c => .released c.pos c.hs (.line l)
          toRtu := (r.connected.filter fun c => c.covered).map fun c => .release c.pos c.hs l false }))
      ∧ (r.state = .held → exec (.qualifyExpiry l) s = .next ((s.setLine l y).emit
        { given := far :: lineStates l (s.row l) x .none ++ lineStates l (s.row l) y .none
          notices := [.line l, .line l] }))))

/-- The expiry of the state timer, by the state of the line: MISSED (R13), NO_ANSWER with the handsets released in list order
(R18), RING_DONE once for each position on the call (R15), HOLD_RECALL to the owner or else every FULL appearance with the
timer restarted (R21), and the end of the guard, into INCOMING where the far end still seizes (R16, R20). In any other state,
or while the timer has not run out, there is no expiry and nothing moves (R9, notes/assumptions/5.md). The LINE notice at each
change of state, as at the guard's end into IDLE, is the model's choice (notes/assumptions/18.md); a guard count of 0 ends the
guard in the same step, read so from R9 (notes/assumptions/6.md). -/
def Obligations.StateTimerExpiries : Prop :=
  (∀ (s : State) (l : Line) (r : LineRec), s.line l = r →
    (r.stateTimer ≠ some 0 ∨ r.state ≠ .incoming ∧ r.state ≠ .outgoing → exec (.answerExpiry l) s = .next s)
    ∧ (r.stateTimer ≠ some 0 ∨ r.state ≠ .connected → exec (.ringOutExpiry l) s = .next s)
    ∧ (r.stateTimer ≠ some 0 ∨ r.state ≠ .held → exec (.holdRecallExpiry l) s = .next s)
    ∧ (r.stateTimer ≠ some 0 ∨ r.state ≠ .releasing → exec (.guardExpiry l) s = .next s))
  ∧ (∀ (s : State) (l : Line) (r : LineRec), s.line l = r → r.stateTimer = some 0 →
    (r.cfg.kind = .ringdown → r.state = .incoming → ∀ x, x = { r with
        state := .idle, nearSeize := false, ringOut := false, stateTimer := none, direction := none, privacy := false,
        connected := [], owner := none } →
      exec (.answerExpiry l) s = .next ((s.setLine l x).emit
        { given := lineStates l (s.row l) x .missed, notices := [.line l] }))
    ∧ (r.cfg.kind = .automatic → r.state = .outgoing → r.cfg.guardCount ≠ 0 → ∀ x, x = { r with
        state := .releasing, nearSeize := true, ringOut := false, stateTimer := some r.cfg.guardCount.val,
        connected := [], owner := none } →
      exec (.answerExpiry l) s = .next ((s.setLine l x).emit
        { given := (r.connected.map fun c => ⟨.lcu, portOf c.pos, .handsetReleased l c.hs .noAnswer⟩)
            ++ lineStates l (s.row l) x .none
          notices := r.connected.map (fun c => .position c.pos) ++ [.line l]
          fromLcu := r.connected.map fun c => .released c.pos c.hs (.line l)
          toRtu := (r.connected.filter fun c => c.covered).map fun c => .release c.pos c.hs l false }))
    ∧ (r.cfg.kind = .automatic → r.state = .outgoing → r.cfg.guardCount = 0 → ∀ x y, x = { r with
        state := .releasing, nearSeize := true, ringOut := false, stateTimer := some 0, connected := [], owner := none } →
      y = { r with
        state := if r.qualified then .incoming else .idle, nearSeize := false, ringOut := false, stateTimer := none,
        direction := none, privacy := false, connected := [], owner := none } →
      exec (.answerExpiry l) s = .next ((s.setLine l y).emit
        { given := (r.connected.map fun c => ⟨.lcu, portOf c.pos, .handsetReleased l c.hs .noAnswer⟩)
            ++ lineStates l (s.row l) x .none ++ lineStates l (s.row l) y .none
          notices := r.connected.map (fun c => .position c.pos) ++ [.line l, .line l]
          fromLcu := r.connected.map fun c => .released c.pos c.hs (.line l)
          toRtu := (r.connected.filter fun c => c.covered).map fun c => .release c.pos c.hs l false }))
    ∧ (r.state = .connected →
      exec (.ringOutExpiry l) s = .next ((s.setLine l { r with ringOut := false, stateTimer := none }).emit
        { given := lcuRecords (connectedPositions r) (.ringDone l) }))
    ∧ (r.state = .held →
      exec (.holdRecallExpiry l) s = .next ((s.setLine l { r with
        stateTimer := if r.cfg.recallCount = 0 then none else some r.cfg.recallCount.val }).emit
        { given := lcuRecords (match r.owner with
            | some p => [p]
            | none => fullViewers (s.row l)) (.holdRecall l) }))
    ∧ (r.state = .releasing → ∀ x, x = { r with
        state := if r.qualified then .incoming else .idle, nearSeize := false, ringOut := false, direction := none,
        privacy := false, connected := [], owner := none,
        stateTimer := if r.qualified = true ∧ r.cfg.kind = .ringdown then some r.cfg.answerCount.val else none } →
      exec (.guardExpiry l) s = .next ((s.setLine l x).emit
        { given := lineStates l (s.row l) x .none, notices := [.line l] })))

/-- LINE_CONFIG of a line that is IDLE or OUT_OF_SERVICE and keeps its kind: all carried fields are replaced together,
clamped, with a LINE notice where a level or the idle sample changed; in any other state it is refused LINE_BUSY, and bad
operands are refused BAD_VALUE in every state (R4, R5). LINE_CONFIG that changes the kind of an IDLE line (R5): to UNUSED it
goes OUT_OF_SERVICE; to RINGDOWN or AUTOMATIC it goes to INCOMING at once where the far seize is high, and stays IDLE where it
is low; an OUT_OF_SERVICE line stays so whatever its new kind. Speakers leave a line that becomes HOOT or UNUSED by removal
notices: that they go to every position is the model's choice (notes/assumptions/17.md). A line held for an attachment takes
the request once the outcome is known (R62, notes/assumptions/19.md). -/
def Obligations.LineConfigReplacesTogether : Prop :=
  (∀ (s : State) (n : Port) (f : Frame), s.Offers n .lineConfig f → s.lineHeld (byteAt f.body 0) = false →
    (numOf 64 (byteAt f.body 0) = none ∨ lineConfigOf f.body = none →
      exec (.lineConfig n) s = .next ((s.takeFrame n f).answer (.port n) .badValue))
    ∧ (∀ l cfg, numOf 64 (byteAt f.body 0) = some l → lineConfigOf f.body = some cfg →
      ((s.line l).state ≠ .idle → (s.line l).state ≠ .outOfService →
        exec (.lineConfig n) s = .next ((s.takeFrame n f).answer (.port n) .lineBusy))
      ∧ ((s.line l).state = .idle ∨ (s.line l).state = .outOfService → cfg.kind = (s.line l).cfg.kind →
        cfg.kind ≠ .unused ∨ (s.line l).state = .outOfService →
        exec (.lineConfig n) s = .next
          ((((s.takeFrame n f).setLine l { s.line l with cfg := cfg }).emit
            { notices :=
                if cfg.receiveLevel = (s.line l).cfg.receiveLevel ∧ cfg.bridgeLevel = (s.line l).cfg.bridgeLevel
                    ∧ cfg.sendLevel = (s.line l).cfg.sendLevel ∧ cfg.idleSample = (s.line l).cfg.idleSample
                then [] else [.line l] }).answer (.port n) .accepted))
      ∧ (1 ≤ cfg.bridgeLimit ∧ cfg.bridgeLimit ≤ 4 ∧ cfg.qualifyCount ≠ 0 ∧ cfg.answerCount ≠ 0)))
  ∧ (∀ (s : State) (n : Port) (f : Frame) (l : Line) (cfg : LineConfig) (r : LineRec), s.Offers n .lineConfig f →
    s.lineHeld (byteAt f.body 0) = false → numOf 64 (byteAt f.body 0) = some l → lineConfigOf f.body = some cfg →
    s.line l = r → r.state = .idle → cfg.kind ≠ r.cfg.kind →
    (cfg.kind = .unused → ∀ x, x = { r with
        cfg := cfg, state := .outOfService, hoot := none, nearSeize := false, ringOut := false, stateTimer := none,
        direction := none, privacy := false, connected := [], owner := none } →
      exec (.lineConfig n) s = .next ((((s.takeFrame n f).setLine l x).emit
        { given := lineStates l (s.row l) x .none, notices := [.line l]
          fromLcu := (List.finRange 16).map fun p => .remove p (.line l) }).answer (.port n) .accepted))
    ∧ (cfg.kind = .hoot →
      exec (.lineConfig n) s = .next ((((s.takeFrame n f).setLine l { r with cfg := cfg }).emit
        { notices := [.line l], fromLcu := (List.finRange 16).map fun p => .remove p (.line l) }).answer (.port n)
          .accepted))
    ∧ (cfg.kind = .ringdown ∨ cfg.kind = .automatic → r.qualified = true → ∀ x, x = { r with
        cfg := cfg, state := .incoming, nearSeize := false, ringOut := false,
        stateTimer := if cfg.kind = .ringdown then some cfg.answerCount.val else none } →
      exec (.lineConfig n) s = .next ((((s.takeFrame n f).setLine l x).emit
        { given := lineStates l (s.row l) x .none, notices := [.line l] }).answer (.port n) .accepted))
    ∧ (cfg.kind = .ringdown ∨ cfg.kind = .automatic → r.qualified = false →
      exec (.lineConfig n) s = .next ((((s.takeFrame n f).setLine l { r with cfg := cfg }).emit
        { notices := [.line l] }).answer (.port n) .accepted)))
  ∧ (∀ (s : State) (n : Port) (f : Frame) (l : Line) (cfg : LineConfig) (r : LineRec), s.Offers n .lineConfig f →
    numOf 64 (byteAt f.body 0) = some l → lineConfigOf f.body = some cfg → s.line l = r →
    (r.attachHold = true → exec (.lineConfig n) s = .next s)
    ∧ (r.attachHold = false → r.state = .outOfService → cfg.kind ≠ r.cfg.kind →
      exec (.lineConfig n) s = .next ((((s.takeFrame n f).setLine l { r with cfg := cfg }).emit
        { notices := [.line l]
          fromLcu := if cfg.kind = .hoot ∨ cfg.kind = .unused then (List.finRange 16).map fun p => .remove p (.line l)
            else [] }).answer (.port n) .accepted)))

/-- LINE_SERVICE out of a line in service releases its handsets with REMOVED in list order, takes every speaker off it, and
puts it OUT_OF_SERVICE; of a line already out it changes nothing (R23). LINE_SERVICE in refuses an UNUSED line BAD_KIND,
changes nothing in service, and puts an OUT_OF_SERVICE line in IDLE; a RINGDOWN or AUTOMATIC line whose far seize is high goes
on to INCOMING at once, each change with its own LINE_STATE (R24). Operands out of range are BAD_VALUE. The model's choices:
the removal notices go to every position (notes/assumptions/17.md), a LINE notice goes with each change of state
(notes/assumptions/18.md), a body of neither setting is refused by whichever of the two rows takes it
(notes/assumptions/20.md), and a line held for an attachment goes out once the outcome is known (notes/assumptions/19.md). -/
def Obligations.LineServiceOutAndIn : Prop :=
  (∀ (s : State) (n : Port) (f : Frame) (l : Line) (r : LineRec), s.Offers n .lineService f →
    numOf 64 (byteAt f.body 0) = some l → s.line l = r →
    (byteAt f.body 1 = 0 → r.attachHold = false → r.state = .outOfService →
      exec (.lineServiceOut n) s = .next ((s.takeFrame n f).answer (.port n) .accepted))
    ∧ (byteAt f.body 1 = 0 → r.attachHold = false → r.state ≠ .outOfService → r.hoot = none → ∀ x, x = { r with
        state := .outOfService, hoot := none, nearSeize := false, ringOut := false, stateTimer := none,
        direction := none, privacy := false, connected := [], owner := none } →
      exec (.lineServiceOut n) s = .next ((((s.takeFrame n f).setLine l x).emit
        { given := (r.connected.map fun c => ⟨.lcu, portOf c.pos, .handsetReleased l c.hs .removed⟩)
            ++ lineStates l (s.row l) x .none
          notices := r.connected.map (fun c => .position c.pos) ++ [.line l]
          fromLcu := r.connected.map (fun c => .released c.pos c.hs (.line l))
            ++ (List.finRange 16).map fun p => .remove p (.line l)
          toRtu := (r.connected.filter fun c => c.covered).map fun c => .release c.pos c.hs l false }).answer (.port n)
            .accepted))
    ∧ (byteAt f.body 1 = 1 → r.cfg.kind = .unused →
      exec (.lineServiceIn n) s = .next ((s.takeFrame n f).answer (.port n) .badKind))
    ∧ (byteAt f.body 1 = 1 → r.cfg.kind ≠ .unused → r.state ≠ .outOfService →
      exec (.lineServiceIn n) s = .next ((s.takeFrame n f).answer (.port n) .accepted))
    ∧ (byteAt f.body 1 = 1 → r.cfg.kind ≠ .unused → r.state = .outOfService →
      r.qualified = false ∨ r.cfg.kind = .hoot → r.connected = [] →
      ∀ x, x = { r with
        state := .idle, nearSeize := false, ringOut := false, stateTimer := none, direction := none, privacy := false,
        connected := [], owner := none } →
      exec (.lineServiceIn n) s = .next ((((s.takeFrame n f).setLine l x).emit
        { given := lineStates l (s.row l) x .none, notices := [.line l] }).answer (.port n) .accepted))
    ∧ (byteAt f.body 1 = 1 → r.cfg.kind = .ringdown ∨ r.cfg.kind = .automatic → r.state = .outOfService →
      r.qualified = true → r.connected = [] → ∀ x y, x = { r with
        state := .idle, nearSeize := false, ringOut := false, stateTimer := none, direction := none, privacy := false,
        connected := [], owner := none } →
      y = { x with
        state := .incoming, stateTimer := if r.cfg.kind = .ringdown then some r.cfg.answerCount.val else none } →
      exec (.lineServiceIn n) s = .next ((((s.takeFrame n f).setLine l y).emit
        { given := lineStates l (s.row l) x .none ++ lineStates l (s.row l) y .none
          notices := [.line l, .line l] }).answer (.port n) .accepted))
    ∧ (byteAt f.body 1 = 0 → r.attachHold = true → exec (.lineServiceOut n) s = .next s))
  ∧ (∀ (s : State) (n : Port) (f : Frame), s.Offers n .lineService f →
    numOf 64 (byteAt f.body 0) = none ∨ byteAt f.body 1 ≠ 0 ∧ byteAt f.body 1 ≠ 1 →
    exec (.lineServiceIn n) s = .next ((s.takeFrame n f).answer (.port n) .badValue)
    ∧ ((∀ l, numOf 64 (byteAt f.body 0) = some l → (s.line l).attachHold = false) →
      exec (.lineServiceOut n) s = .next ((s.takeFrame n f).answer (.port n) .badValue)))

/-! ## Handsets and lines (chapter 2) -/

/-- The first step of a connecting request (R35, R38, R60, R68, R70): PTB makes a free handset of an UP position PENDING and
forwards the request to its owner; a handset that is claimed, or of a DOWN position (R49), is refused HANDSET_BUSY and nothing
is forwarded. -/
def Obligations.ConnectingRequestsClaimTheHandset : Prop :=
  ∀ (s t : State) (r : Requester) (p : Pos) (h : Handset) (b : List Byte),
    (∀ l, s.Submits r .takeLine p b t → numOf 64 (byteAt b 0) = some l → handsetOf (byteAt b 1) = some h →
      exec (.takeLine r) s = .next (
        if (s.pos p).up = true ∧ (s.pos p).claim.of h = .none then
          (t.setPos p { s.pos p with claim := (s.pos p).claim.set h (.pending (requesterVia r)) }).forward .lcu
            (.take p h (requesterVia r) l)
        else t.answer r .handsetBusy))
    ∧ (∀ g, s.Submits r .joinGroup p b t → numOf 16 (byteAt b 0) = some g → handsetOf (byteAt b 1) = some h →
      exec (.joinGroup r) s = .next (
        if (s.pos p).up = true ∧ (s.pos p).claim.of h = .none then
          (t.setPos p { s.pos p with claim := (s.pos p).claim.set h (.pending (requesterVia r)) }).forward .gfu
            (.join p h (requesterVia r) g)
        else t.answer r .handsetBusy))
    ∧ (∀ voice, s.Submits r .callPosition p b t → handsetOf (byteAt b 1) = some h → onOffOf (byteAt b 2) = some voice →
      exec (.callPosition r) s = .next (
        if (s.pos p).up = true ∧ (s.pos p).claim.of h = .none then
          (t.setPos p { s.pos p with claim := (s.pos p).claim.set h (.pending (requesterVia r)) }).forward .gfu
            (.call p h (requesterVia r) (byteAt b 0) voice)
        else t.answer r .handsetBusy))
    ∧ (∀ n c, s.Submits (.port n) .answerCall p b t → numOf 8 (byteAt b 0) = some c → handsetOf (byteAt b 1) = some h →
      exec (.answerCall n) s = .next (
        if (s.pos p).up = true ∧ (s.pos p).claim.of h = .none then
          (t.setPos p { s.pos p with claim := (s.pos p).claim.set h (.pending .link) }).forward .gfu (.answer p h .link c)
        else t.answer (.port n) .handsetBusy))
    ∧ (s.Submits r .takeLine p b t → numOf 64 (byteAt b 0) = none ∨ handsetOf (byteAt b 1) = none →
      exec (.takeLine r) s = .next (t.answer r .badValue))
    ∧ (s.Submits r .joinGroup p b t → numOf 16 (byteAt b 0) = none ∨ handsetOf (byteAt b 1) = none →
      exec (.joinGroup r) s = .next (t.answer r .badValue))
    ∧ (s.Submits r .callPosition p b t → handsetOf (byteAt b 1) = none ∨ onOffOf (byteAt b 2) = none →
      exec (.callPosition r) s = .next (t.answer r .badValue))
    ∧ (∀ n, s.Submits (.port n) .answerCall p b t → numOf 8 (byteAt b 0) = none ∨ handsetOf (byteAt b 1) = none →
      exec (.answerCall n) s = .next (t.answer (.port n) .badValue))

/-- Checks 2 to 5 of TAKE_LINE in their order (R38, R39): the first that fails gives its code, which goes to PTB as the
outcome; the line is left as it was. A take that completes at once on a line that is not record-required (R10), by the state
of the line: a seizure (R12, R17), an answer (R13, R17), a bridge (R14, R19), a pick-up (R21) and a return in the guard (R16,
R20). The handset joins at the end, PTB is given the final claim, CMX its two notices, and the viewers one LINE_STATE. So that
a handset stands on one line at most (R3, R35), a handset that LCU still holds on some line is refused HANDSET_BUSY once the
other checks pass (the model's choice, notes/assumptions/34.md), and a take of a handset whose earlier take still waits for
RTU waits behind it (the model's choice, notes/assumptions/35.md). -/
def Obligations.TakesAreDecidedInOrder : Prop :=
  (∀ (s t : State) (p : Pos) (h : Handset) (v : Via) (l : Line) (r : LineRec) (a : Appearance) (c : Code),
    s.nextForHandset .lcu p h = some (.take p h v l, t) → (∀ w ∈ s.lcu.waiting, ¬(w.pos = p ∧ w.hs = h)) →
    s.line l = r → (s.row l).look p = a →
    (r.state = .outOfService ∧ c = .outOfService
      ∨ r.state ≠ .outOfService ∧ r.cfg.kind = .hoot ∧ c = .badKind
      ∨ r.state ≠ .outOfService ∧ r.cfg.kind ≠ .hoot ∧
        (a.mode = .none ∧ c = .noAppearance
          ∨ a.mode = .listen ∧ c = .listenOnly
          ∨ a.mode = .full ∧ a.barred = true ∧ c = .barred
          ∨ a.mode = .full ∧ a.barred = false ∧
            (r.state = .outgoing ∧ c = .lineBusy
              ∨ r.state = .connected ∧ r.privacy = true ∧ c = .isPrivate
              ∨ r.state = .connected ∧ r.privacy = false ∧ r.connected.length = r.cfg.bridgeLimit ∧ c = .lineFull
              ∨ r.state = .held ∧ r.privacy = true ∧ (∃ q, r.owner = some q ∧ q ≠ p) ∧ c = .isPrivate))) →
    exec (.takeLineAtLcu p h) s = .next (t.emit { fromLcu := [.outcome p h v (.inr c)] }))
  ∧ (∀ (s t : State) (p : Pos) (h : Handset) (v : Via) (l : Line) (r x : LineRec) (why : StateReason),
    s.nextForHandset .lcu p h = some (.take p h v l, t) → (∀ w ∈ s.lcu.waiting, ¬(w.pos = p ∧ w.hs = h)) →
    (∀ m, (s.line m).entry p h = none) → s.line l = r → (s.row l).look p = ⟨.full, false⟩ →
    r.cfg.kind = .ringdown ∨ r.cfg.kind = .automatic → r.cfg.recordRequired = false →
    (r.state = .idle ∧ r.cfg.kind = .ringdown ∧ why = .none ∧ x = { r with
          state := .connected, direction := some .outgoing, privacy := false, nearSeize := true, stateTimer := none,
          connected := r.connected ++ [⟨p, h, false⟩] }
      ∨ r.state = .idle ∧ r.cfg.kind = .automatic ∧ why = .none ∧ x = { r with
          state := .outgoing, direction := some .outgoing, privacy := false, nearSeize := true,
          stateTimer := some r.cfg.answerCount.val, connected := r.connected ++ [⟨p, h, false⟩] }
      ∨ r.state = .incoming ∧ why = .answered ∧ x = { r with
          state := .connected, direction := some .incoming, privacy := r.cfg.answerPrivate, nearSeize := true,
          stateTimer := none, connected := r.connected ++ [⟨p, h, false⟩] }
      ∨ r.state = .connected ∧ r.privacy = false ∧ r.connected.length < r.cfg.bridgeLimit ∧ why = .none ∧ x = { r with
          nearSeize := true, connected := r.connected ++ [⟨p, h, false⟩] }
      ∨ r.state = .held ∧ (r.privacy = false ∨ r.owner = none ∨ r.owner = some p) ∧ why = .none ∧ x = { r with
          state := .connected, nearSeize := true, owner := none, stateTimer := none,
          connected := r.connected ++ [⟨p, h, false⟩] }
      ∨ r.state = .releasing ∧ (r.cfg.kind = .ringdown ∨ r.qualified = true) ∧ why = .none ∧ x = { r with
          state := .connected, direction := some .outgoing, privacy := false, nearSeize := true, stateTimer := none,
          connected := r.connected ++ [⟨p, h, false⟩] }
      ∨ r.state = .releasing ∧ r.cfg.kind = .automatic ∧ r.qualified = false ∧ why = .none ∧ x = { r with
          state := .outgoing, direction := some .outgoing, privacy := false, nearSeize := true,
          stateTimer := some r.cfg.answerCount.val, connected := r.connected ++ [⟨p, h, false⟩] }) →
    exec (.takeLineAtLcu p h) s = .next ((t.setLine l x).emit
      { given := lineStates l (s.row l) x why, notices := [.position p, .line l]
        fromLcu := [.outcome p h v (.inl (.line l))] }))
  ∧ (∀ (s t : State) (p : Pos) (h : Handset) (v : Via) (l : Line),
    s.nextForHandset .lcu p h = some (.take p h v l, t) →
    ((∃ w ∈ s.lcu.waiting, w.pos = p ∧ w.hs = h) → exec (.takeLineAtLcu p h) s = .next s)
    ∧ ((∀ w ∈ s.lcu.waiting, ¬(w.pos = p ∧ w.hs = h)) → takeCheck (s.line l) ((s.row l).look p) p = none →
      (∃ m, ((s.line m).entry p h).isSome = true) →
      exec (.takeLineAtLcu p h) s = .next (t.emit { fromLcu := [.outcome p h v (.inr .handsetBusy)] })))

/-- A take on a record-required line waits for RTU (R10, R40): LCU asks with the direction the line will have. At the answer
the take is checked again: a failing check refuses it and returns the grant; a direction that has changed, whichever way, asks
again; a grant completes it, by the state of the line as for any take (R12 to R14, R16, R17, R19 to R21), with the handset
holding coverage; without one it is refused NOT_RECORDED. Where the line has ceased to be record-required it completes
whatever the answer and the direction. A take ended meanwhile (R51) only returns its grant. A handset that LCU holds on some
line by then is refused HANDSET_BUSY (the model's choice, notes/assumptions/34.md). That LCU marks the ended takes and the
covered handsets in its own records is the model's reading (notes/assumptions/15.md, notes/assumptions/16.md). -/
def Obligations.RecordedTakesWaitForCoverage : Prop :=
  (∀ (s t : State) (p : Pos) (h : Handset) (v : Via) (l : Line) (r : LineRec) (d : Direction),
    s.nextForHandset .lcu p h = some (.take p h v l, t) → (∀ w ∈ s.lcu.waiting, ¬(w.pos = p ∧ w.hs = h)) →
    (∀ m, (s.line m).entry p h = none) → s.line l = r → takeCheck r ((s.row l).look p) p = none →
    r.cfg.recordRequired = true →
    (r.state = .idle ∨ r.state = .releasing → d = .outgoing) → (r.state = .incoming → d = .incoming) →
    (r.state = .connected ∨ r.state = .held → r.direction = some d) →
    exec (.takeLineAtLcu p h) s = .next
      { t with
        lcu := { s.lcu with waiting := s.lcu.waiting ++ [⟨p, h, v, l, d, none⟩] }
        chan := { t.chan with toRtu := s.chan.toRtu ++ [.reserve p h l d] } })
  ∧ (∀ (s u : State) (p : Pos) (h : Handset) (a : RtuAnswer) (w : Waiting) (answers : List RtuAnswer)
      (waiting : List Waiting) (r : LineRec),
    takeFirst (fun a => a.pos == p && a.hs == h) s.chan.fromRtu = some (a, answers) →
    takeFirst (fun w => w.pos == p && w.hs == h) s.lcu.waiting = some (w, waiting) →
    u = { s with chan := { s.chan with fromRtu := answers }, lcu := { s.lcu with waiting := waiting } } →
    s.line w.line = r →
    (∀ ofReset, w.ended = some ofReset →
      exec (.reservationAnswer p h) s = .next (u.emit
        { toRtu := if a.granted then [.release w.pos w.hs w.line ofReset] else [] }))
    ∧ (∀ c, w.ended = none → takeCheck r ((s.row w.line).look w.pos) w.pos = some c →
      exec (.reservationAnswer p h) s = .next (u.emit
        { toRtu := if a.granted then [.release w.pos w.hs w.line false] else []
          fromLcu := [.outcome w.pos w.hs w.via (.inr c)] }))
    ∧ (w.ended = none → takeCheck r ((s.row w.line).look w.pos) w.pos = none →
        (∃ m, ((s.line m).entry w.pos w.hs).isSome = true) →
      exec (.reservationAnswer p h) s = .next (u.emit
        { toRtu := if a.granted then [.release w.pos w.hs w.line false] else []
          fromLcu := [.outcome w.pos w.hs w.via (.inr .handsetBusy)] }))
    ∧ (∀ d, w.ended = none → takeCheck r ((s.row w.line).look w.pos) w.pos = none →
        (∀ m, (s.line m).entry w.pos w.hs = none) →
        (r.state = .idle ∨ r.state = .releasing → d = .outgoing) → (r.state = .incoming → d = .incoming) →
        (r.state = .connected ∨ r.state = .held → r.direction = some d) →
      (r.cfg.recordRequired = true → d ≠ w.direction →
        exec (.reservationAnswer p h) s = .next
          { u with
            lcu := { u.lcu with waiting := waiting ++ [⟨w.pos, w.hs, w.via, w.line, d, none⟩] }
            chan := { u.chan with
              toRtu := s.chan.toRtu ++ (if a.granted then [.release w.pos w.hs w.line false] else [])
                ++ [.reserve w.pos w.hs w.line d] } })
      ∧ (r.cfg.recordRequired = true → d = w.direction → a.granted = false →
        exec (.reservationAnswer p h) s = .next (u.emit
          { fromLcu := [.outcome w.pos w.hs w.via (.inr .notRecorded)] }))
      ∧ (∀ x why joined, r.cfg.recordRequired = false ∨ d = w.direction ∧ a.granted = true →
        r.cfg.kind = .ringdown ∨ r.cfg.kind = .automatic → joined = r.connected ++ [⟨w.pos, w.hs, a.granted⟩] →
        (r.state = .idle ∧ r.cfg.kind = .ringdown ∧ why = .none ∧ x = { r with
              state := .connected, direction := some .outgoing, privacy := false, nearSeize := true, stateTimer := none,
              connected := joined }
          ∨ r.state = .idle ∧ r.cfg.kind = .automatic ∧ why = .none ∧ x = { r with
              state := .outgoing, direction := some .outgoing, privacy := false, nearSeize := true,
              stateTimer := some r.cfg.answerCount.val, connected := joined }
          ∨ r.state = .incoming ∧ why = .answered ∧ x = { r with
              state := .connected, direction := some .incoming, privacy := r.cfg.answerPrivate, nearSeize := true,
              stateTimer := none, connected := joined }
          ∨ r.state = .connected ∧ why = .none ∧ x = { r with nearSeize := true, connected := joined }
          ∨ r.state = .held ∧ why = .none ∧ x = { r with
              state := .connected, nearSeize := true, owner := none, stateTimer := none, connected := joined }
          ∨ r.state = .releasing ∧ (r.cfg.kind = .ringdown ∨ r.qualified = true) ∧ why = .none ∧ x = { r with
              state := .connected, direction := some .outgoing, privacy := false, nearSeize := true, stateTimer := none,
              connected := joined }
          ∨ r.state = .releasing ∧ r.cfg.kind = .automatic ∧ r.qualified = false ∧ why = .none ∧ x = { r with
              state := .outgoing, direction := some .outgoing, privacy := false, nearSeize := true,
              stateTimer := some r.cfg.answerCount.val, connected := joined }) →
        exec (.reservationAnswer p h) s = .next ((u.setLine w.line x).emit
          { given := lineStates w.line (s.row w.line) x why, notices := [.position w.pos, .line w.line]
            fromLcu := [.outcome w.pos w.hs w.via (.inl (.line w.line))] }))))

/-- What PTB does with an owner's message about a handset (R35, R36): an acceptance replaces the PENDING of the request it
answers and is replied ACCEPTED; one that finds the claim otherwise leaves it and goes back as a return notice; a refusal frees
the handset and carries the code; a release notice frees a claim that still names what was released, and no other. -/
def Obligations.OwnersSettleTheClaim : Prop :=
  ∀ (s t : State) (o : Owner) (p : Pos) (h : Handset) (v : Via) (c : Claim) (code : Code),
    (s.heardOfHandset o p h = some (.outcome p h v (.inl c), t) → (s.pos p).claim.of h = .pending v →
      exec (.finalClaim o p h) s = .next
        ((t.setPos p { s.pos p with claim := (s.pos p).claim.set h c }).answer (requesterOf p v) .accepted))
    ∧ (s.heardOfHandset o p h = some (.outcome p h v (.inl c), t) → (s.pos p).claim.of h ≠ .pending v →
      exec (.finalClaim o p h) s = .next ((t.forward o (.giveBack p h c)).answer (requesterOf p v) .accepted))
    ∧ (s.heardOfHandset o p h = some (.outcome p h v (.inr code), t) → (s.pos p).claim.of h = .pending v →
      exec (.finalClaim o p h) s = .next
        (((t.setPos p { s.pos p with
            claim := (s.pos p).claim.set h .none, mute := (s.pos p).mute.set h false }).emit
          { notices := [.position p] }).answer (requesterOf p v) code))
    ∧ (s.heardOfHandset o p h = some (.released p h c, t) → (s.pos p).claim.of h = c →
      exec (.releaseNotice o p h) s = .next
        ((t.setPos p { s.pos p with
            claim := (s.pos p).claim.set h .none, mute := (s.pos p).mute.set h false }).emit
          { notices := [.position p] }))
    ∧ (s.heardOfHandset o p h = some (.released p h c, t) → (s.pos p).claim.of h ≠ c →
      exec (.releaseNotice o p h) s = .next t)

/-- RELEASE and HOLD at PTB by the claim, and MUTE (R42, R44, R47): an operand out of its codes is refused BAD_VALUE; else the
request is forwarded for what it can end, refused HANDSET_BUSY while PENDING, NOT_CONNECTED otherwise; a mute taken is
replaced, with a notice if it changed. -/
def Obligations.ReleaseHoldAndMuteReadTheClaim : Prop :=
  (∀ (s t : State) (r : Requester) (p : Pos) (b : List Byte),
    (handsetOf (byteAt b 0) = none → (s.Submits r .release p b t → exec (.release r) s = .next (t.answer r .badValue))
      ∧ (s.Submits r .hold p b t → exec (.hold r) s = .next (t.answer r .badValue)))
    ∧ (∀ n, s.Submits (.port n) .mute p b t → handsetOf (byteAt b 0) = none ∨ onOffOf (byteAt b 1) = none →
      exec (.mute n) s = .next (t.answer (.port n) .badValue)))
  ∧ (∀ (s t : State) (r : Requester) (p : Pos) (h : Handset) (b : List Byte), handsetOf (byteAt b 0) = some h →
    (s.Submits r .release p b t → exec (.release r) s = .next (match (s.pos p).claim.of h with
      | .none => t.answer r .notConnected
      | .pending _ => t.answer r .handsetBusy
      | .line l => t.forward .lcu (.release p h (requesterVia r) (.line l))
      | .group g => t.forward .gfu (.release p h (requesterVia r) (.group g))
      | .call c => t.forward .gfu (.release p h (requesterVia r) (.call c))))
    ∧ (s.Submits r .hold p b t → exec (.hold r) s = .next (match (s.pos p).claim.of h with
      | .pending _ => t.answer r .handsetBusy
      | .line l => t.forward .lcu (.hold p h (requesterVia r) l)
      | _ => t.answer r .notConnected))
    ∧ (∀ n on, s.Submits (.port n) .mute p b t → onOffOf (byteAt b 1) = some on →
      exec (.mute n) s = .next (match (s.pos p).claim.of h with
        | .none => t.answer (.port n) .notConnected
        | .pending _ => t.answer (.port n) .handsetBusy
        | _ =>
          ((t.setPos p { s.pos p with mute := (s.pos p).mute.set h on }).emit
            { notices := if (s.pos p).mute.of h = on then [] else [.position p] }).answer (.port n) .accepted)))

/-- A handset that an owner is told to release, or to take back (R35), leaves it as R11, R61 and R73 give, and at a release
its claim is free before the reply leaves (R36, R42); one that stands there no more is NOT_CONNECTED (R43), and a return
notice for it does nothing (R35); that PTB is told of a handset that a return notice removes, by a release notice, is the model's
reading (notes/assumptions/53.md). A line that keeps other handsets gives one LINE_STATE; one that loses its last goes to
RELEASING with near seize ON, ring out OFF and the guard running (R14, R18, R19), and a guard count of 0 ends the guard in the
same step (read so from R9, notes/assumptions/6.md). The second LINE notice of that step, at the guard's end, is named by no
rule where the line becomes IDLE: it is the model's choice (notes/assumptions/18.md, DESIGN CHOICE). A group tells those that
stay (R61). A call ends whichever party leaves it: the other party of an ACTIVE call is released CALL_ENDED, and the callee of
an ALERTING one is told (R73). -/
def Obligations.OwnersReleaseTheHandset : Prop :=
  (∀ (s t : State) (p : Pos) (h : Handset) (v : Via),
    (∀ (l : Line) (r x : LineRec) (c : Conn), s.line l = r → r.state ≠ .releasing →
      r.connected.filter (fun d => d.pos == p && d.hs == h) = [c] →
      x = { r with connected := r.connected.filter fun d => !(d.pos == p && d.hs == h) } → x.connected ≠ [] →
      (s.nextForHandset .lcu p h = some (.giveBack p h (.line l), t) →
        exec (.returnNotice .lcu p h) s = .next ((t.setLine l x).emit
          { given := lineStates l (s.row l) x .none, notices := [.position p, .line l]
            toRtu := if c.covered then [.release p h l false] else [], fromLcu := [.released p h (.line l)] }))
      ∧ (s.nextForHandset .lcu p h = some (.release p h v (.line l), t) → (s.pos p).claim.of h = .line l →
        exec (.releaseAtOwner .lcu p h) s = .next ((((((t.setLine l x).emit
          { given := lineStates l (s.row l) x .none, notices := [.position p, .line l]
            toRtu := if c.covered then [.release p h l false] else [] }).setPos p { s.pos p with
              claim := (s.pos p).claim.set h .none, mute := (s.pos p).mute.set h false }).emit
          { notices := [.position p] }).answer (requesterOf p v) .accepted))))
    ∧ (∀ g : Grp, s.nextForHandset .gfu p h = some (.release p h v (.group g), t) →
      (s.group g).handsetOf p = some h → (s.pos p).claim.of h = .group g → ∀ left,
      left = (s.group g).joined.filter (fun m => m.1 != p) →
      exec (.releaseAtOwner .gfu p h) s = .next (((((t.setGroup g { s.group g with joined := left }).emit
          { given := left.map fun m => ⟨.gfu, portOf m.1, .groupState g left.length p true⟩
            notices := [.group g] }).setPos p { s.pos p with
              claim := (s.pos p).claim.set h .none, mute := (s.pos p).mute.set h false }).emit
          { notices := [.position p] }).answer (requesterOf p v) .accepted))
    ∧ (∀ l : Line, (s.line l).entry p h = none →
      (s.nextForHandset .lcu p h = some (.release p h v (.line l), t) →
        exec (.releaseAtOwner .lcu p h) s = .next (t.answer (requesterOf p v) .notConnected))
      ∧ (s.nextForHandset .lcu p h = some (.giveBack p h (.line l), t) →
        exec (.returnNotice .lcu p h) s = .next t)))
  ∧ (∀ (s t : State) (p : Pos) (h : Handset) (v : Via) (l : Line) (r x y : LineRec) (c : Conn) (o : Sends), s.line l = r →
    r.connected = [c] → c.pos = p → c.hs = h → r.state = .outgoing ∨ r.state = .connected →
    x = { r with
      state := .releasing, nearSeize := true, ringOut := false, stateTimer := some r.cfg.guardCount.val, connected := [],
      owner := none } →
    y = (if r.cfg.guardCount ≠ 0 then x else { r with
      state := if r.qualified then .incoming else .idle, nearSeize := false, ringOut := false, direction := none,
      privacy := false, connected := [], owner := none
      stateTimer := if r.qualified = true ∧ r.cfg.kind = .ringdown then some r.cfg.answerCount.val else none }) →
    o =
      { given := lineStates l (s.row l) x .none ++ if r.cfg.guardCount ≠ 0 then [] else lineStates l (s.row l) y .none
        notices := [.position p, .line l] ++ if r.cfg.guardCount ≠ 0 then [] else [.line l]
        toRtu := if c.covered then [.release p h l false] else [] } →
    (s.nextForHandset .lcu p h = some (.giveBack p h (.line l), t) →
      exec (.returnNotice .lcu p h) s = .next (((t.setLine l y).emit o).emit { fromLcu := [.released p h (.line l)] }))
    ∧ (s.nextForHandset .lcu p h = some (.release p h v (.line l), t) → (s.pos p).claim.of h = .line l →
      exec (.releaseAtOwner .lcu p h) s = .next (((((t.setLine l y).emit o).setPos p { s.pos p with
          claim := (s.pos p).claim.set h .none, mute := (s.pos p).mute.set h false }).emit
        { notices := [.position p] }).answer (requesterOf p v) .accepted)))
  ∧ (∀ (s t : State) (p : Pos) (h : Handset) (v : Via) (c : CallNo) (q a : Pos) (k j : Handset) (voice : Bool)
      (timer : Timer) (o : Sends),
    (s.call c = .active q k a j voice ∧ q = p ∧ k = h ∧ o =
        { given := [⟨.gfu, portOf a, .callReleased c j .callEnded⟩], fromGfu := [.released a j (.call c)]
          notices := [.position q, .position a] }
      ∨ s.call c = .active q k a j voice ∧ a = p ∧ j = h ∧ (q ≠ p ∨ k ≠ h) ∧ o =
        { given := [⟨.gfu, portOf q, .callReleased c k .callEnded⟩], fromGfu := [.released q k (.call c)]
          notices := [.position q, .position a] }
      ∨ s.call c = .alerting q k a voice timer ∧ q = p ∧ k = h ∧ o =
        { given := [⟨.gfu, portOf a, .callWithdrawn c .callEnded⟩], notices := [.position q, .position a] }) →
    (s.nextForHandset .gfu p h = some (.giveBack p h (.call c), t) →
      exec (.returnNotice .gfu p h) s = .next (((t.setCall c .free).emit o).emit { fromGfu := [.released p h (.call c)] }))
    ∧ (s.nextForHandset .gfu p h = some (.release p h v (.call c), t) → (s.pos p).claim.of h = .call c →
      exec (.releaseAtOwner .gfu p h) s = .next (((((t.setCall c .free).emit o).setPos p { s.pos p with
          claim := (s.pos p).claim.set h .none, mute := (s.pos p).mute.set h false }).emit
        { notices := [.position p] }).answer (requesterOf p v) .accepted)))
  ∧ (∀ (s t : State) (p : Pos) (h : Handset) (v : Via),
    (∀ g left, (s.group g).handsetOf p = some h → left = (s.group g).joined.filter (fun m => m.1 != p) →
      s.nextForHandset .gfu p h = some (.giveBack p h (.group g), t) →
      exec (.returnNotice .gfu p h) s = .next ((t.setGroup g { s.group g with joined := left }).emit
        { given := left.map fun m => ⟨.gfu, portOf m.1, .groupState g left.length p true⟩, notices := [.group g]
          fromGfu := [.released p h (.group g)] }))
    ∧ (∀ c, (∃ g, c = .group g ∧ (s.group g).handsetOf p ≠ some h) ∨ (∃ k, c = .call k ∧ (s.call k).holds p h = false) →
      (s.nextForHandset .gfu p h = some (.release p h v c, t) →
        exec (.releaseAtOwner .gfu p h) s = .next (t.answer (requesterOf p v) .notConnected))
      ∧ (s.nextForHandset .gfu p h = some (.giveBack p h c, t) → exec (.returnNotice .gfu p h) s = .next t)))

/-- HOLD (R21, R44): a handset out of its codes is refused BAD_VALUE at PTB; at LCU, by the sole handset of a CONNECTED line,
it parks the line for its position, with the recall timer running unless its count is 0; otherwise NOT_CONNECTED, SHARED or
LINE_BUSY in that order. SET_PRIVACY and SIGNAL_LINE in their check orders, BAD_VALUE first (R46, R48, R15): a privacy that
changed gives LINE_STATE; a ring starts the pulse, which a count of 0 ends at once with RING_DONE. -/
def Obligations.HoldPrivacyAndRing : Prop :=
  (∀ (s t : State) (p : Pos) (h : Handset) (v : Via) (l : Line) (r : LineRec), s.line l = r →
    s.nextForHandset .lcu p h = some (.hold p h v l, t) →
    (r.entry p h = none → exec (.holdAtLcu p h) s = .next (t.answer (requesterOf p v) .notConnected))
    ∧ ((r.entry p h).isSome = true → r.connected.length ≠ 1 →
      exec (.holdAtLcu p h) s = .next (t.answer (requesterOf p v) .shared))
    ∧ ((r.entry p h).isSome = true → r.connected.length = 1 → r.state = .outgoing →
      exec (.holdAtLcu p h) s = .next (t.answer (requesterOf p v) .lineBusy))
    ∧ (∀ c x, r.connected = [c] → c.pos = p → c.hs = h → r.state = .connected → (s.pos p).claim.of h = .line l →
      x = { r with
        state := .held, connected := [], owner := some p, ringOut := false
        stateTimer := if r.cfg.recallCount = 0 then none else some r.cfg.recallCount.val } →
      exec (.holdAtLcu p h) s = .next (((((t.setLine l x).emit
          { given := lineStates l (s.row l) x .none, notices := [.position p, .line l]
            toRtu := if c.covered then [.release p h l false] else [] }).setPos p { s.pos p with
              claim := (s.pos p).claim.set h .none, mute := (s.pos p).mute.set h false }).emit
          { notices := [.position p] }).answer (requesterOf p v) .accepted)))
  ∧ (∀ (s t : State) (q : Requester) (p : Pos) (b : List Byte),
    (s.Submits q .hold p b t → handsetOf (byteAt b 0) = none → exec (.hold q) s = .next (t.answer q .badValue))
    ∧ (s.Submits q .setPrivacy p b t → numOf 64 (byteAt b 0) = none ∨ onOffOf (byteAt b 1) = none →
      exec (.setPrivacy q) s = .next (t.answer q .badValue))
    ∧ (s.Submits q .signalLine p b t → numOf 64 (byteAt b 0) = none →
      exec (.signalLine q) s = .next (t.answer q .badValue)))
  ∧ (∀ (s t : State) (q : Requester) (p : Pos) (b : List Byte) (l : Line) (r : LineRec),
    numOf 64 (byteAt b 0) = some l → s.line l = r →
    (s.Submits q .setPrivacy p b t → ∀ on, onOffOf (byteAt b 1) = some on →
      exec (.setPrivacy q) s = .next (
        if r.state = .outOfService then t.answer q .outOfService
        else if r.cfg.kind = .hoot then t.answer q .badKind
        else if r.has p = false then t.answer q .notConnected
        else if r.privacy = on then t.answer q .accepted
        else ((t.setLine l { r with privacy := on }).emit
          { given := lineStates l (s.row l) { r with privacy := on } .none }).answer q .accepted))
    ∧ (s.Submits q .signalLine p b t →
      exec (.signalLine q) s = .next (
        if r.state = .outOfService then t.answer q .outOfService
        else if r.cfg.kind = .hoot then t.answer q .badKind
        else if r.cfg.kind ≠ .ringdown then t.answer q .notRingdown
        else if r.state ≠ .connected ∨ r.has p = false then t.answer q .notConnected
        else if r.cfg.ringOutCount = 0 then
          ((t.setLine l { r with ringOut := false, stateTimer := none }).emit
            { given := lcuRecords (connectedPositions r) (.ringDone l) }).answer q .accepted
        else (t.setLine l { r with ringOut := true, stateTimer := some r.cfg.ringOutCount.val }).answer q .accepted)))

/-- ASSIGN_SPEAKER at PTB (R64): NOT_PERMITTED of a DOWN position, BUSY while the speaker waits, ACCEPTED where nothing
changes, unassigned at once, or asked of the owner with the waiting mark ON. That the standing is looked at before the
operands is the model's reading (notes/assumptions/21.md). -/
def Obligations.AssignSpeakerAsksTheOwner : Prop :=
  ∀ (s t : State) (r : Requester) (p : Pos) (b : List Byte), s.Submits r .assignSpeaker p b t →
    ((s.pos p).up = false → exec (.assignSpeaker r) s = .next (t.answer r .notPermitted))
    ∧ ((s.pos p).up = true → speakerOf (byteAt b 0) = none ∨ targetOf (byteAt b 1) (byteAt b 2) = none →
      exec (.assignSpeaker r) s = .next (t.answer r .badValue))
    ∧ (∀ k x, (s.pos p).up = true → speakerOf (byteAt b 0) = some k → targetOf (byteAt b 1) (byteAt b 2) = some x →
      (((s.pos p).asking.look k).isSome = true → exec (.assignSpeaker r) s = .next (t.answer r .busy))
      ∧ ((s.pos p).asking.look k = none → (s.pos p).assign.look k = x →
        exec (.assignSpeaker r) s = .next (t.answer r .accepted))
      ∧ ((s.pos p).asking.look k = none → (s.pos p).assign.look k ≠ x → x = .none →
        exec (.assignSpeaker r) s = .next
          (((t.setPos p { s.pos p with assign := (s.pos p).assign.put k .none }).emit
            { notices := [.leg (speakerLeg p k)]
              listening := listeningNotices p (s.pos p).assign ((s.pos p).assign.put k .none) false }).answer r .accepted))
      ∧ (∀ l, (s.pos p).asking.look k = none → (s.pos p).assign.look k ≠ x → x = .line l →
        exec (.assignSpeaker r) s = .next
          ((t.setPos p { s.pos p with
            asking := (s.pos p).asking.put k (some ⟨requesterVia r, false, false⟩) }).forward .lcu (.speaker p k x)))
      ∧ (∀ g, (s.pos p).asking.look k = none → (s.pos p).assign.look k ≠ x → x = .group g →
        exec (.assignSpeaker r) s = .next
          ((t.setPos p { s.pos p with
            asking := (s.pos p).asking.put k (some ⟨requesterVia r, false, false⟩) }).forward .gfu (.speaker p k x))))

/-- The owner of a target answers PTB's question with a grant or the first code that applies (R64), and PTB takes the answer
(R65, R175): the waiting mark goes OFF; a refusal carries the code; a grant assigns the speaker, unless the position has gone
DOWN or PTB has taken a soft reset before it: one since it asked, which PTB remembers with the waiting mark (the model's reading,
notes/assumptions/15.md), or one that the owner had yet to take when it granted, which the answer tells (the model's reading,
notes/assumptions/52.md). Where a loss and a reset have happened the loss is read first: the model's choice
(notes/assumptions/40.md). A removal notice (R37, R59) unassigns every speaker of the position on the target, each with its SPEAKER_REMOVED and leg notice
in speaker order. The listening notices of each change go out (R66). -/
def Obligations.SpeakersFollowTheirOwners : Prop :=
  (∀ (s t : State) (o : Owner) (p : Pos) (k : Spk),
    (∀ l r a early, s.nextForSpeaker .lcu p k = some (.speaker p k (.line l), t) → s.line l = r → (s.row l).look p = a →
      (early = true ↔ ∃ q, s.lki.softReset = some q ∧ q.ptb = true ∧ q.lcu = false) →
      exec (.speakerQuestion .lcu p k) s = .next (t.emit { fromLcu := [.answer p k (.line l)
        (if r.state = .outOfService then some .outOfService
         else if r.cfg.kind = .hoot then some .badKind
         else if a.mode = .none then some .noAppearance
         else if a.barred = true then some .barred
         else none) early] }))
    ∧ (∀ g early, s.nextForSpeaker .gfu p k = some (.speaker p k (.group g), t) →
      (early = true ↔ ∃ q, s.lki.softReset = some q ∧ q.ptb = true ∧ q.gfu = false) →
      exec (.speakerQuestion .gfu p k) s = .next (t.emit { fromGfu := [.answer p k (.group g)
        (if (s.group g).kind ≠ .hoot then some .badKind
         else if (s.group g).allow.look p = false then some .notMember
         else none) early] }))
    ∧ (∀ x refusal early m u, s.heardOfSpeakers o p = some (.answer p k x refusal early, t) → (s.pos p).asking.look k = some m →
      u = t.setPos p { s.pos p with asking := (s.pos p).asking.put k none } →
      (∀ c, refusal = some c → exec (.assignmentAnswer o p) s = .next (u.answer (requesterOf p m.via) c))
      ∧ (refusal = none → m.sawDown = true ∨ (s.pos p).up = false →
        exec (.assignmentAnswer o p) s = .next (u.answer (requesterOf p m.via) .notPermitted))
      ∧ (refusal = none → m.sawDown = false → (s.pos p).up = true → m.sawReset = true ∨ early = true →
        (∀ l, x = .line l → exec (.assignmentAnswer o p) s = .next (u.answer (requesterOf p m.via) .barred))
        ∧ (∀ g, x = .group g → exec (.assignmentAnswer o p) s = .next (u.answer (requesterOf p m.via) .notMember)))
      ∧ (refusal = none → m.sawDown = false → (s.pos p).up = true → m.sawReset = false → early = false →
        exec (.assignmentAnswer o p) s = .next
          (((t.setPos p { s.pos p with
              asking := (s.pos p).asking.put k none, assign := (s.pos p).assign.put k x }).emit
            { notices := [.leg (speakerLeg p k)]
              listening := listeningNotices p (s.pos p).assign ((s.pos p).assign.put k x) false }).answer
            (requesterOf p m.via) .accepted))))
  ∧ (∀ (s t : State) (o : Owner) (p : Pos) (x : Target) (new : Table 6 Target) (hits : List Spk),
    s.heardOfSpeakers o p = some (.remove p x, t) →
    new = (Table.build fun k => if (s.pos p).assign.look k = x then .none else (s.pos p).assign.look k) →
    hits = ((List.finRange 6).filter fun k => decide ((s.pos p).assign.look k = x)) →
    (∀ l, x = .line l →
      exec (.removalNotice o p) s = .next ((t.setPos p { s.pos p with assign := new }).emit
        { given := hits.map fun k => ⟨.ptb, portOf p, .speakerOffLine l k .removed⟩
          notices := hits.map fun k => .leg (speakerLeg p k)
          listening := listeningNotices p (s.pos p).assign new false }))
    ∧ (∀ g, x = .group g →
      exec (.removalNotice o p) s = .next ((t.setPos p { s.pos p with assign := new }).emit
        { given := hits.map fun k => ⟨.ptb, portOf p, .speakerOffGroup g k .removed⟩
          notices := hits.map fun k => .leg (speakerLeg p k)
          listening := listeningNotices p (s.pos p).assign new false })))

/-- SET_VOLUME of a position, of its run and of the manager (R34), and POSITION_CONFIG (R33): the value is replaced in every
state, with a notice for the speaker's leg or the position; operands out of range are refused BAD_VALUE. That fair and VOX are
read as bit 0 of any byte is the model's reading of R179 (notes/assumptions/22.md). -/
def Obligations.VolumesAndSettings : Prop :=
  (∀ (s t : State) (r : Requester) (p : Pos) (b : List Byte) (k : Spk), s.Submits r .setVolume p b t →
    speakerOf (byteAt b 0) = some k →
    exec (.setVolume r) s = .next (((t.setPos p { s.pos p with
      volume := (s.pos p).volume.put k (byteAt b 1).toFin }).emit
        { notices := [.leg (speakerLeg p k)] }).answer r .accepted))
  ∧ (∀ (s t : State) (r : Requester) (p : Pos) (b : List Byte), s.Submits r .setVolume p b t →
    speakerOf (byteAt b 0) = none → exec (.setVolume r) s = .next (t.answer r .badValue))
  ∧ (∀ (s : State) (f : Frame), s.Offers mgmt .setVolume f →
    speakerOf (byteAt f.body 0) = none ∨ numOf 16 (byteAt f.body 2) = none →
    exec (.setVolume (.port mgmt)) s = .next ((s.takeFrame mgmt f).answer (.port mgmt) .badValue))
  ∧ (∀ (s : State) (f : Frame) (p : Pos) (k : Spk), s.Offers mgmt .setVolume f → speakerOf (byteAt f.body 0) = some k →
    numOf 16 (byteAt f.body 2) = some p →
    exec (.setVolume (.port mgmt)) s = .next ((((s.takeFrame mgmt f).setPos p { s.pos p with
      volume := (s.pos p).volume.put k (byteAt f.body 1).toFin }).emit
        { notices := [.leg (speakerLeg p k)] }).answer (.port mgmt) .accepted))
  ∧ (∀ (s : State) (n : Port) (f : Frame), s.Offers n .positionConfig f →
    (∀ p k lv, numOf 16 (byteAt f.body 0) = some p → speakerOf (byteAt f.body 1) = some k →
      numOf 4 (byteAt f.body 7) = some lv →
      exec (.positionConfig n) s = .next ((((s.takeFrame n f).setPos p { s.pos p with
        settings :=
          { alertSpeaker := k, sidetone := (byteAt f.body 2).toFin, handsetDuck := (byteAt f.body 3).toFin,
            talkingDuck := (byteAt f.body 4).toFin, alertLevel := (byteAt f.body 5).toFin,
            attentionLevel := (byteAt f.body 6).toFin, floorLevel := lv, fair := (byteAt f.body 8).getLsbD 0,
            vox := (byteAt f.body 9).getLsbD 0 } }).emit { notices := [.position p] }).answer (.port n) .accepted))
    ∧ (numOf 16 (byteAt f.body 0) = none ∨ speakerOf (byteAt f.body 1) = none ∨ numOf 4 (byteAt f.body 7) = none →
      exec (.positionConfig n) s = .next ((s.takeFrame n f).answer (.port n) .badValue)))

/-- The queries of lines and positions change nothing but the port's request and reply (R54, R55): a line answers a position
that holds an appearance on it and the manager, each with the fields due to it; a position answers its own port and the
manager, with its record or with the mode and the barred flag of its 64 appearances, two lines to a byte (R55, R179, R181).
Numbers out of range and parts above 1 are BAD_VALUE, looked at before the port's right to ask: the model's reading
(notes/assumptions/21.md). That claim and mute alternate handset by handset, and assignment and volume speaker by speaker, is
the model's reading of R55 (notes/assumptions/25.md). -/
def Obligations.QueriesOfLinesAndPositions : Prop :=
  (∀ (s : State) (n : Port) (f : Frame) (l : Line) (r : LineRec), s.Offers n .queryLine f →
    numOf 64 (byteAt f.body 0) = some l → s.line l = r →
    (∀ p, posOf n = some p → ((s.row l).look p).mode = .none →
      exec (.queryLine n) s = .next ((s.takeFrame n f).answer (.port n) .notPermitted))
    ∧ (∀ p, posOf n = some p → ((s.row l).look p).mode ≠ .none →
      exec (.queryLine n) s = .next ((s.takeFrame n f).answer (.port n) .accepted
        ([r.cfg.kind.byte, r.state.byte, directionByte r.direction, onByte r.privacy, byteOf r.connected.length]
          ++ r.connected.flatMap (fun c => [byteOf c.pos.val, handsetByte c.hs])
          ++ [optByte r.owner, onByte r.qualified, onByte r.talk, byteOf r.cfg.bridgeLimit, onByte r.cfg.recordRequired]
          ++ [((s.row l).look p).mode.byte, onByte ((s.row l).look p).barred])))
    ∧ (n = mgmt →
      exec (.queryLine n) s = .next ((s.takeFrame n f).answer (.port n) .accepted
        ([r.cfg.kind.byte, r.state.byte, directionByte r.direction, onByte r.privacy, byteOf r.connected.length]
          ++ r.connected.flatMap (fun c => [byteOf c.pos.val, handsetByte c.hs])
          ++ [optByte r.owner, onByte r.qualified, onByte r.talk, byteOf r.cfg.bridgeLimit, onByte r.cfg.recordRequired]
          ++ ([onByte r.raw, optOnByte r.candidate, onByte r.nearSeize, onByte r.ringOut, onByte r.cfg.answerPrivate,
                byteOf r.cfg.receiveLevel.val, byteOf r.cfg.bridgeLevel.val, byteOf r.cfg.sendLevel.val]
            ++ twoBytes r.cfg.idleSample
            ++ [byteOf r.cfg.qualifyCount.val, byteOf r.cfg.answerCount.val, byteOf r.cfg.ringOutCount.val,
                byteOf r.cfg.recallCount.val, byteOf r.cfg.guardCount.val, optByte r.hoot])))))
  ∧ (∀ (s : State) (n : Port) (f : Frame),
    (s.Offers n .queryLine f → 63 < (byteAt f.body 0).toNat →
      exec (.queryLine n) s = .next ((s.takeFrame n f).answer (.port n) .badValue))
    ∧ (s.Offers n .queryPosition f → 15 < (byteAt f.body 0).toNat →
      exec (.queryPosition n) s = .next ((s.takeFrame n f).answer (.port n) .badValue)))
  ∧ (∀ (s : State) (n : Port) (f : Frame) (p : Pos) (r : PosRec) (claim : Claim → List Byte) (speaker : Target → List Byte)
      (bits : Line → Nat),
    s.Offers n .queryPosition f → numOf 16 (byteAt f.body 0) = some p → s.pos p = r →
    claim = (fun c => match c with
      | .none => [0x00#8, 0xFF#8] | .pending _ => [0x01#8, 0xFF#8] | .line l => [0x02#8, byteOf l.val]
      | .group g => [0x03#8, byteOf g.val] | .call c => [0x04#8, byteOf c.val]) →
    speaker = (fun t => match t with
      | .none => [0x00#8, 0xFF#8] | .line l => [0x01#8, byteOf l.val] | .group g => [0x02#8, byteOf g.val]) →
    bits = (fun l => (match ((s.row l).look p).mode with | .none => 0 | .full => 1 | .listen => 2)
      + if ((s.row l).look p).barred then 4 else 0) →
    (byteAt f.body 1 = 0 ∨ byteAt f.body 1 = 1 → n ≠ mgmt → n ≠ portOf p →
      exec (.queryPosition n) s = .next ((s.takeFrame n f).answer (.port n) .notPermitted))
    ∧ (byteAt f.body 1 = 0 → n = mgmt ∨ n = portOf p →
      exec (.queryPosition n) s = .next ((s.takeFrame n f).answer (.port n) .accepted
        ([onByte r.up] ++ claim r.claim.a ++ [onByte r.mute.a] ++ claim r.claim.b ++ [onByte r.mute.b]
          ++ (List.finRange 6).flatMap (fun k => speaker (r.assign.look k) ++ [byteOf (r.volume.look k).val])
          ++ [byteOf (r.settings.alertSpeaker.val + 1), byteOf r.settings.sidetone.val, byteOf r.settings.handsetDuck.val,
              byteOf r.settings.talkingDuck.val, byteOf r.settings.alertLevel.val, byteOf r.settings.attentionLevel.val,
              byteOf r.settings.floorLevel.val, onByte r.settings.fair, onByte r.settings.vox])))
    ∧ (byteAt f.body 1 = 1 → n = mgmt ∨ n = portOf p →
      exec (.queryPosition n) s = .next ((s.takeFrame n f).answer (.port n) .accepted
        ((List.finRange 32).map fun i => byteOf (bits ⟨2 * i.val, by omega⟩ + 16 * bits ⟨2 * i.val + 1, by omega⟩))))
    ∧ (2 ≤ (byteAt f.body 1).toNat →
      exec (.queryPosition n) s = .next ((s.takeFrame n f).answer (.port n) .badValue)))

/-- APPEARANCE_SET (R29): the mode alone is replaced, with both notices; the same mode does nothing; bad operands are
BAD_VALUE. A mode that was FULL, or that becomes NONE, takes the position's handsets off the line REMOVED, in list order, and
clears a hold owner that names the position; the last handset sends the line to RELEASING (R14, R18, R19), where a guard count
of 0 ends the guard in the same step (read so from R9, notes/assumptions/6.md). The further LINE notice of that step, at the
guard's end, is named by no rule where the line becomes IDLE: it is the model's choice (notes/assumptions/18.md, DESIGN
CHOICE). LINE_STATE goes to the holders of an appearance as the table then stands (R25). At NONE the position's speakers are
taken off the line by a removal notice (R37). APPEARANCE_BAR (R30): every record in its scope takes the value whatever its
mode, with one notice that names exactly the lines and the positions of the records that changed, and none where nothing
changed; operands out of range are BAD_VALUE; nothing else moves. -/
def Obligations.AppearancesAreSetAndBarred : Prop :=
  (∀ (s : State) (n : Port) (f : Frame), s.Offers n .appearanceSet f →
    (numOf 64 (byteAt f.body 0) = none ∨ numOf 16 (byteAt f.body 1) = none ∨ appModeOf (byteAt f.body 2) = none →
      exec (.appearanceSet n) s = .next ((s.takeFrame n f).answer (.port n) .badValue))
    ∧ (∀ l p m t, numOf 64 (byteAt f.body 0) = some l → numOf 16 (byteAt f.body 1) = some p →
      appModeOf (byteAt f.body 2) = some m →
      t = { s.takeFrame n f with lcu := { s.lcu with
        apps := s.lcu.apps.put l ((s.row l).put p ⟨m, ((s.row l).look p).barred⟩) } } →
      (((s.row l).look p).mode = m → exec (.appearanceSet n) s = .next ((s.takeFrame n f).answer (.port n) .accepted))
      ∧ (((s.row l).look p).mode ≠ .full → ((s.row l).look p).mode ≠ m → m ≠ .none →
        exec (.appearanceSet n) s = .next
          ((t.emit { notices := [.line l, .position p] }).answer (.port n) .accepted))
      ∧ (((s.row l).look p).mode = .full → m = .listen → (s.line l).state = .held → (s.line l).connected = [] →
        (s.line l).owner = some p →
        exec (.appearanceSet n) s = .next
          (((t.emit { notices := [.line l, .position p] }).setLine l { s.line l with owner := none }).answer (.port n)
            .accepted))
      ∧ (∀ (row : Table 16 Appearance) (r x y : LineRec) (hits : List Conn),
        ((s.row l).look p).mode ≠ m → ((s.row l).look p).mode = .full ∨ m = .none → s.line l = r →
        row = (s.row l).put p ⟨m, ((s.row l).look p).barred⟩ → hits = r.connected.filter (fun c => c.pos == p) →
        x = (if hits ≠ [] ∧ hits = r.connected ∧ (r.state = .outgoing ∨ r.state = .connected) then { r with
            state := .releasing, nearSeize := true, ringOut := false, stateTimer := some r.cfg.guardCount.val
            connected := [], owner := none }
          else { r with
            owner := if r.owner = some p then none else r.owner, connected := r.connected.filter fun c => c.pos != p }) →
        y = (if x.state ≠ r.state ∧ r.cfg.guardCount = 0 then { r with
            state := if r.qualified then .incoming else .idle, nearSeize := false, ringOut := false, direction := none,
            privacy := false, connected := [], owner := none
            stateTimer := if r.qualified = true ∧ r.cfg.kind = .ringdown then some r.cfg.answerCount.val else none }
          else x) →
        exec (.appearanceSet n) s = .next ((((t.emit { notices := [.line l, .position p] }).setLine l y).emit
          { given := hits.map (fun c => ⟨.lcu, portOf p, .handsetReleased l c.hs .removed⟩)
              ++ (if hits = [] then [] else lineStates l row x .none)
              ++ (if y.state = x.state then [] else lineStates l row y .none)
            notices := hits.map (fun _ => .position p) ++ (if hits = [] then [] else [.line l])
              ++ (if y.state = x.state then [] else [.line l])
            fromLcu := hits.map (fun c => .released p c.hs (.line l)) ++ (if m = .none then [.remove p (.line l)] else [])
            toRtu := (hits.filter fun c => c.covered).map fun c => .release p c.hs l false }).answer (.port n)
              .accepted))))
  ∧ (∀ (s : State) (n : Port) (f : Frame) (scope : Line → Pos → Bool) (on : Bool), s.Offers n .appearanceBar f →
    onOffOf (byteAt f.body 3) = some on →
    (∃ l p, byteAt f.body 0 = 0 ∧ numOf 64 (byteAt f.body 1) = some l ∧ numOf 16 (byteAt f.body 2) = some p
        ∧ scope = fun m q => m == l && q == p)
      ∨ (∃ l, byteAt f.body 0 = 1 ∧ numOf 64 (byteAt f.body 1) = some l ∧ scope = fun m _ => m == l)
      ∨ (∃ p, byteAt f.body 0 = 2 ∧ numOf 16 (byteAt f.body 2) = some p ∧ scope = fun _ q => q == p)
      ∨ byteAt f.body 0 = 3 ∧ scope = (fun _ _ => true) →
    ∃ t, exec (.appearanceBar n) s = .next t
      ∧ (∀ l p, (t.row l).look p = ⟨((s.row l).look p).mode, if scope l p then on else ((s.row l).look p).barred⟩)
      ∧ t.lcu.lines = s.lcu.lines ∧ t.lcu.waiting = s.lcu.waiting ∧ t.ptb = s.ptb
      ∧ t.gfu = s.gfu ∧ t.cmx = s.cmx ∧ t.rtu = s.rtu ∧ t.squ = s.squ ∧ t.evu = s.evu
      ∧ (∀ m, t.port m = ((s.takeFrame n f).answer (.port n) .accepted).port m)
      ∧ ∃ ls ps, t.chan = { s.chan with notices := s.chan.notices ++ if ls = [] then [] else [.bars ls ps] }
        ∧ ls.Pairwise (· < ·) ∧ ps.Pairwise (· < ·)
        ∧ (∀ l, l ∈ ls ↔ ∃ p, scope l p = true ∧ ((s.row l).look p).barred ≠ on)
        ∧ (∀ p, p ∈ ps ↔ ∃ l, scope l p = true ∧ ((s.row l).look p).barred ≠ on))
  ∧ (∀ (s : State) (n : Port) (f : Frame), s.Offers n .appearanceBar f →
    3 < (byteAt f.body 0).toNat ∨ onOffOf (byteAt f.body 3) = none
      ∨ ((byteAt f.body 0 = 0 ∨ byteAt f.body 0 = 1) ∧ numOf 64 (byteAt f.body 1) = none)
      ∨ ((byteAt f.body 0 = 0 ∨ byteAt f.body 0 = 2) ∧ numOf 16 (byteAt f.body 2) = none) →
    exec (.appearanceBar n) s = .next ((s.takeFrame n f).answer (.port n) .badValue))

/-- What each block does at a position-down notice. PTB frees the position (R49); that an assignment asked for remembers the
loss is the model's reading (notes/assumptions/15.md), and that its listen-off notices go by rising group number is its choice
(notes/assumptions/50.md). Of PTB and an owner the one that takes the notice second tells the other of what it clears, PTB by
return notices and LCU and GFU by release notices of the position's own handsets: the model's choice
(notes/assumptions/49.md). LCU takes its handsets off every line in list order, with no HANDSET_RELEASED, releases their
coverage and clears its hold ownership; a line that loses its last handset goes to RELEASING (R14, R18, R19, R50; a guard
count of 0 ends the guard in the same step, notes/assumptions/6.md, and the further LINE notice at its end is named by no rule
where the line becomes IDLE: the model's choice, notes/assumptions/18.md, DESIGN CHOICE); its waiting takes are refused
HANDSET_BUSY (R51). GFU takes it out of every joined list and call, telling those that stay, and ends its floor engagements
with no FLOOR_LOST and its served marks, a held floor passing on by the grant rule with the deferred entries of that level
moved up, and those of a waiter's level when it was the last of them (R74, R80, R84, R94); that the groups go by rising number
is the model's choice (notes/assumptions/46.md); the floor's records and notices are given for a position engaged on one floor
at most, as R76 has it. FLOOR_HOLDER goes to the other listening positions, since the position receives no record of its own
loss (R74, R95). Then one kept UP counts. SQU ends its run without a record (R154), EVU empties its queue (R168). At its UP
notice GFU sets the standing image, or keeps, beside those kept already, an UP that has overtaken the down notice (R56). -/
def Obligations.BlocksTakeTheDownNotice : Prop :=
  ∀ (s : State) (p : Pos) (rest : List Pos),
    (takeFirst (· == p) s.chan.downPtb = some (p, rest) →
      exec (.positionDownAtPtb p) s = .next (((s.setChan { s.chan with downPtb := rest }).setPos p
        { s.pos p with
          up := false, claim := ⟨.none, .none⟩, mute := ⟨false, false⟩, assign := Table.fill .none
          asking := Table.build fun k => ((s.pos p).asking.look k).map fun m => { m with sawDown := true } }).emit
        { notices := [.position p], listening := listeningNotices p (s.pos p).assign (Table.fill .none) false
          toLcu := if p ∈ s.chan.downLcu then [] else
            [Handset.A, .B].filterMap fun h => match (s.pos p).claim.of h with
              | .line l => some (.giveBack p h (.line l))
              | _ => none
          toGfu := if p ∈ s.chan.downGfu then [] else
            [Handset.A, .B].filterMap fun h => match (s.pos p).claim.of h with
              | .group g => some (.giveBack p h (.group g))
              | .call c => some (.giveBack p h (.call c))
              | _ => none }))
    ∧ (∀ (hits : Line → List Conn) (first last : Line → LineRec), takeFirst (· == p) s.chan.downLcu = some (p, rest) →
      hits = (fun l => (s.line l).connected.filter fun c => c.pos == p) →
      first = (fun l =>
        if hits l ≠ [] ∧ hits l = (s.line l).connected ∧ ((s.line l).state = .outgoing ∨ (s.line l).state = .connected) then
          { s.line l with
            state := .releasing, nearSeize := true, ringOut := false, stateTimer := some (s.line l).cfg.guardCount.val
            connected := [], owner := none }
        else { s.line l with
          owner := if (s.line l).owner = some p then none else (s.line l).owner
          connected := (s.line l).connected.filter fun c => c.pos != p }) →
      last = (fun l =>
        if (first l).state ≠ (s.line l).state ∧ (s.line l).cfg.guardCount = 0 then { s.line l with
          state := if (s.line l).qualified then .incoming else .idle, nearSeize := false, ringOut := false
          direction := none, privacy := false, connected := [], owner := none
          stateTimer := if (s.line l).qualified = true ∧ (s.line l).cfg.kind = .ringdown then
            some (s.line l).cfg.answerCount.val else none }
        else first l) →
      exec (.positionDownAtLcu p) s = .next { s with
        lcu := { s.lcu with
          lines := Table.build last
          waiting := s.lcu.waiting.map fun w => if w.pos = p ∧ w.ended = none then { w with ended := some false } else w }
        chan := { s.chan with
          downLcu := rest
          given := s.chan.given ++ (List.finRange 64).flatMap fun l =>
            (if hits l = [] then [] else lineStates l (s.row l) (first l) .none)
              ++ if (last l).state = (first l).state then [] else lineStates l (s.row l) (last l) .none
          notices := s.chan.notices ++ (List.finRange 64).flatMap fun l => (hits l).map (fun _ => .position p)
            ++ (if hits l = [] then [] else [.line l]) ++ if (last l).state = (first l).state then [] else [.line l]
          fromLcu := s.chan.fromLcu
            ++ (if p ∈ s.chan.downPtb then [] else
              (List.finRange 64).flatMap fun l => (hits l).map fun c => .released p c.hs (.line l))
            ++ (s.lcu.waiting.filter fun w => decide (w.pos = p ∧ w.ended = none)).map fun w =>
              .outcome p w.hs w.via (.inr .handsetBusy)
          toRtu := s.chan.toRtu ++ (List.finRange 64).flatMap fun l =>
            ((hits l).filter fun c => c.covered).map fun c => .release p c.hs l false } })
    ∧ (takeFirst (· == p) s.chan.downSqu = some (p, rest) →
      exec (.positionDownAtSqu p) s = .next ((s.setChan { s.chan with downSqu := rest }).setRun p
        (match (s.runOf p).state with
         | .idle | .pausing .. => ⟨.idle, 0⟩
         | .waiting .. | .draining => ⟨.draining, 0⟩)))
    ∧ (∀ (n : Port) (left : List Port), takeFirst (· == n) s.chan.downEvu = some (n, left) →
      exec (.positionDownAtEvu n) s = .next ((s.setChan { s.chan with downEvu := left }).setEvents n
        { s.events n with queue := [], marks := Table.fill false, up := false }))
    ∧ (takeFirst (· == p) s.chan.ups = some (p, rest) →
      exec (.standingUpNotice p) s = .next
        { s with
          chan := { s.chan with ups := rest }
          gfu :=
            if s.gfu.up.look p = true then { s.gfu with
              keptUp := s.gfu.keptUp.put p (s.gfu.keptUp.look p + 1) }
            else { s.gfu with up := s.gfu.up.put p true } })
    ∧ (takeFirst (· == p) s.chan.downGfu = some (p, rest) →
      ∃ t floorRecords floorNotices, exec (.positionDownAtGfu p) s = .next t
        ∧ t = { s with gfu := t.gfu, chan := t.chan }
        ∧ t.gfu = { s.gfu with
            groups := t.gfu.groups, calls := t.gfu.calls
            up := s.gfu.up.put p (decide (0 < s.gfu.keptUp.look p))
            keptUp := s.gfu.keptUp.put p (s.gfu.keptUp.look p - 1) }
        ∧ (∀ g, t.group g = { s.group g with
            joined := (s.group g).joined.filter fun m => m.1 != p, floor := (t.group g).floor })
        ∧ (∀ c, t.call c = match s.call c with
          | .free => .free
          | .alerting q k a voice x => if q = p ∨ a = p then .free else .alerting q k a voice x
          | .active q k a i voice => if q = p ∨ a = p then .free else .active q k a i voice)
        ∧ t.chan = { s.chan with
            downGfu := rest
            given := s.chan.given
              ++ ((List.finRange 16).flatMap fun g =>
                if ∃ m ∈ (s.group g).joined, m.1 = p then
                  (t.group g).joined.map fun m => ⟨.gfu, portOf m.1, .groupState g (t.group g).joined.length p true⟩
                else [])
              ++ ((List.finRange 8).flatMap fun c => match s.call c with
                | .free => []
                | .alerting q k a _ _ =>
                  if q = p then [⟨.gfu, portOf a, .callWithdrawn c .callEnded⟩]
                  else if a = p then [⟨.gfu, portOf q, .callReleased c k .callEnded⟩] else []
                | .active q k a i _ =>
                  if q = p then [⟨.gfu, portOf a, .callReleased c i .callEnded⟩]
                  else if a = p then [⟨.gfu, portOf q, .callReleased c k .callEnded⟩] else [])
              ++ floorRecords
            notices := s.chan.notices
              ++ ((List.finRange 16).flatMap fun g => if ∃ m ∈ (s.group g).joined, m.1 = p then [.group g] else [])
              ++ ((List.finRange 8).flatMap fun c => match s.call c with
                | .free => []
                | .alerting q _ a _ _ | .active q _ a _ _ =>
                  if q = p ∨ a = p then [.position q, .position a] else [])
              ++ floorNotices
            fromGfu := s.chan.fromGfu
              ++ ((List.finRange 8).flatMap fun c => match s.call c with
                | .free => []
                | .alerting q k a _ _ => if q ≠ p ∧ a = p then [.released q k (.call c)] else []
                | .active q k a i _ =>
                  if q = p then [.released a i (.call c)] else if a = p then [.released q k (.call c)] else [])
              ++ if p ∈ s.chan.downPtb then [] else
                ((List.finRange 16).flatMap fun g =>
                  ((s.group g).joined.filter fun m => m.1 == p).map fun m => .released p m.2 (.group g))
                ++ (List.finRange 8).flatMap fun c => match s.call c with
                  | .free => []
                  | .alerting q k _ _ _ => if q = p then [.released p k (.call c)] else []
                  | .active q k a i _ => (if q = p then [.released p k (.call c)] else [])
                    ++ if a = p then [.released p i (.call c)] else [] }
        ∧ (s.FloorsSound → ∀ g, (t.group g).floor.engaged p = false ∧ (t.group g).floor.served.look p = false)
        ∧ (∀ g f, (s.group g).floor = f →
          (f.engaged p = false → (t.group g).floor = { f with served := f.served.put p false })
          ∧ (f.holderPos ≠ some p → f.deferred = [] → (t.group g).floor = { f with
              served := f.served.put p false, wait := f.wait.filter fun w => w.pos != p
              talkers := f.talkers.filter fun k => k.pos != p })
          ∧ (f.holderPos = some p → f.wait = [] → (t.group g).floor = { f with
              holder := none, holdTimer := none, served := f.served.put p false })
          ∧ (f.holderPos ≠ some p → (∀ w ∈ f.wait, w.pos ≠ p) → (t.group g).floor = { f with
              served := f.served.put p false, deferred := f.deferred.filter fun w => w.pos != p
              talkers := f.talkers.filter fun k => k.pos != p }))
        ∧ ((∀ g, (s.group g).floor.engaged p = false) → floorRecords = [] ∧ floorNotices = [])
        ∧ (∀ g f, (s.group g).floor = f → (∀ k, k ≠ g → (s.group k).floor.engaged p = false) →
          (f.holderPos = some p → f.wait = [] → floorNotices = [.group g, .position p]
            ∧ floorRecords = (posList ((s.group g).listening.put p false)).map fun i => ⟨.gfu, portOf i, .floorHolder g none⟩)
          ∧ (f.holderPos ≠ some p → (∀ w ∈ f.wait, w.pos ≠ p) ∨ f.deferred = [] → floorRecords = []
            ∧ floorNotices = if ∃ k ∈ f.talkers, k.pos = p then [.group g, .position p] else []))
        ∧ (∀ g f w a b up stay, (s.group g).floor = f →
          (f.holderPos = some p → f.Picks w a b up stay →
            (t.group g).floor = { f with
              holder := some ⟨w.pos, w.level, w.latched, false, w.origin⟩, wait := a ++ b ++ up, deferred := stay
              holdTimer := if (s.group g).holdLimit = 0 then none else some (s.group g).holdLimit.val
              served := up.foldl (fun m x => m.put x.pos false) (f.served.put p false) }
            ∧ (w.pos ≠ p → (∀ k, k ≠ g → (s.group k).floor.engaged p = false) →
              floorNotices = [.group g, .position p, .position w.pos]
              ∧ floorRecords = ⟨.gfu, portOf w.pos, .floorGranted g w.level w.latched false⟩
                :: up.map (fun x => ⟨.gfu, portOf x.pos, .floorWait g x.level⟩)
                ++ (posList ((s.group g).listening.put p false)).map fun i =>
                  ⟨.gfu, portOf i, .floorHolder g (some w.pos)⟩))
          ∧ (f.holderPos ≠ some p → f.Splits w a b up stay → w.pos = p → (∀ x ∈ f.deferred, x.pos ≠ p) →
            (t.group g).floor = { f with
              wait := a ++ b ++ up, deferred := stay, talkers := f.talkers.filter fun k => k.pos != p
              served := up.foldl (fun m x => m.put x.pos false) (f.served.put p false) }
            ∧ ((∀ k, k ≠ g → (s.group k).floor.engaged p = false) →
              floorRecords = up.map (fun x => ⟨.gfu, portOf x.pos, .floorWait g x.level⟩)
              ∧ floorNotices = if ∃ k ∈ f.talkers, k.pos = p then [.group g, .position p] else []))))

/-! ## Groups, hoot lines and calls (chapter 3) -/

/-- GROUP_CONFIG (R58): bad operands are BAD_VALUE; a change of kind in use is GROUP_BUSY; the five fields are replaced
together (a change of kind empties the rest), with a GROUP notice where the talk level, the mask or a HOOT group's mode
changed. Removing one joined position from the mask of an INTERCOM group releases its handset with REMOVED and tells the
others (R59, R61); removing one from a HOOT group takes its speakers off it by a removal notice and ends its engagement
REMOVED, whatever it is, a held floor passing on by the grant rule (R59, R80, R84, R93); a change of mode ends every
engagement MODE_CHANGED (R91). A request that removes several positions, or removes and changes the mode, does what one that
removes the first of them alone and then it itself do, but for the GROUP notice between (R58, R93). That a removal or a mode
change sends the engaged positions' notices and then one more GROUP notice is the model's choice (notes/assumptions/18.md),
and the order of the steps its reading (notes/assumptions/26.md). JOIN_GROUP at GFU (R60, R61): BAD_KIND, NOT_MEMBER and
ALREADY in that order; else the handset joins at the end of the list, and every joined position gets GROUP_STATE. A handset
that GFU still holds in a group or a call is refused HANDSET_BUSY, so that it stands in one place at most (R35): the model's
choice (notes/assumptions/34.md). -/
def Obligations.GroupsAreConfiguredAndJoined : Prop :=
  (∀ (s : State) (n : Port) (f : Frame), s.Offers n .groupConfig f →
    (numOf 16 (byteAt f.body 0) = none ∨ groupKindOf (byteAt f.body 1) = none ∨ onOffOf (byteAt f.body 5) = none →
      exec (.groupConfig n) s = .next ((s.takeFrame n f).answer (.port n) .badValue))
    ∧ (∀ g kind openMode (r x : GroupRec), numOf 16 (byteAt f.body 0) = some g → groupKindOf (byteAt f.body 1) = some kind →
      onOffOf (byteAt f.body 5) = some openMode → s.group g = r →
      x = { r with
        kind := kind, allow := posSetOf (byteAt f.body 2) (byteAt f.body 3), talkLevel := (byteAt f.body 4).toFin,
        openMode := openMode, holdLimit := (byteAt f.body 6).toFin } →
      (r.kind ≠ kind → r.inUse = true →
        exec (.groupConfig n) s = .next ((s.takeFrame n f).answer (.port n) .groupBusy))
      ∧ (r.kind = kind → (∀ p, r.allow.look p = true → x.allow.look p = true) → (r.kind ≠ .hoot ∨ r.openMode = openMode) →
        exec (.groupConfig n) s = .next ((((s.takeFrame n f).setGroup g x).emit
          { notices := if r.talkLevel = x.talkLevel ∧ r.allow = x.allow then [] else [.group g] }).answer (.port n)
            .accepted))
      ∧ (r.kind ≠ kind → r.inUse = false →
        exec (.groupConfig n) s = .next ((((s.takeFrame n f).setGroup g { x with
          joined := [], attached := [], listening := Table.fill false, floor := Floor.empty }).emit
            { notices := if r.talkLevel = x.talkLevel ∧ r.allow = x.allow ∧ (r.kind ≠ .hoot ∨ r.openMode = openMode) then []
                else [.group g]
              fromGfu := if r.kind ≠ .hoot then [] else
                ((List.finRange 16).filter fun p => r.allow.look p && !x.allow.look p).map fun p => .remove p (.group g) }).answer
            (.port n) .accepted))
      ∧ (r.kind = .hoot → kind = .hoot → (∀ p, r.allow.look p = true → x.allow.look p = true) → r.openMode ≠ openMode →
        exec (.groupConfig n) s = .next ((((s.takeFrame n f).setGroup g { x with floor := Floor.empty }).emit
          { given := (r.floor.everyone.map fun p => ⟨.gfu, portOf p, .floorLost g .modeChanged⟩)
              ++ (if r.floor.holder = none then []
                  else (posList r.listening).map fun i => ⟨.gfu, portOf i, .floorHolder g none⟩)
            notices := (if r.floor.everyone = [] then [] else .group g :: r.floor.everyone.map .position)
              ++ [.group g] }).answer (.port n) .accepted))
      ∧ (∀ p fl, r.kind = .hoot → kind = .hoot → r.openMode = openMode → r.allow.look p = true →
        x.allow = r.allow.put p false → fl = r.floor →
        (fl.engaged p = false →
          exec (.groupConfig n) s = .next ((((s.takeFrame n f).setGroup g { x with
            floor := { fl with served := fl.served.put p false } }).emit
              { notices := [.group g], fromGfu := [.remove p (.group g)] }).answer (.port n) .accepted))
        ∧ (fl.holderPos = some p → fl.wait = [] →
          exec (.groupConfig n) s = .next ((((s.takeFrame n f).setGroup g { x with
            floor := { fl with holder := none, holdTimer := none, served := fl.served.put p false } }).emit
              { given := ⟨.gfu, portOf p, .floorLost g .removed⟩
                  :: (posList r.listening).map fun i => ⟨.gfu, portOf i, .floorHolder g none⟩
                notices := [.group g, .position p, .group g], fromGfu := [.remove p (.group g)] }).answer (.port n)
                  .accepted))
        ∧ (fl.engaged p = true → fl.holderPos ≠ some p → (∀ w ∈ fl.wait, w.pos ≠ p) →
          exec (.groupConfig n) s = .next ((((s.takeFrame n f).setGroup g { x with
            floor := { fl with
              served := fl.served.put p false, deferred := fl.deferred.filter fun w => w.pos != p
              talkers := fl.talkers.filter fun k => k.pos != p } }).emit
              { given := [⟨.gfu, portOf p, .floorLost g .removed⟩]
                notices := (if ∃ k ∈ fl.talkers, k.pos = p then [.group g, .position p] else []) ++ [.group g]
                fromGfu := [.remove p (.group g)] }).answer (.port n) .accepted))
        ∧ (∀ w a b up stay, fl.holderPos = some p → fl.Picks w a b up stay → w.pos ≠ p →
          exec (.groupConfig n) s = .next ((((s.takeFrame n f).setGroup g { x with
            floor := { fl with
              holder := some ⟨w.pos, w.level, w.latched, false, w.origin⟩, wait := a ++ b ++ up, deferred := stay
              holdTimer := if x.holdLimit = 0 then none else some x.holdLimit.val
              served := up.foldl (fun m k => m.put k.pos false) (fl.served.put p false) } }).emit
              { given := ⟨.gfu, portOf p, .floorLost g .removed⟩
                  :: ⟨.gfu, portOf w.pos, .floorGranted g w.level w.latched false⟩
                  :: (up.map fun k => ⟨.gfu, portOf k.pos, .floorWait g k.level⟩)
                  ++ (posList r.listening).map fun i => ⟨.gfu, portOf i, .floorHolder g (some w.pos)⟩
                notices := [.group g, .position p, .position w.pos, .group g]
                fromGfu := [.remove p (.group g)] }).answer (.port n) .accepted))
        ∧ (∀ w a b up stay, fl.holderPos ≠ some p → fl.Splits w a b up stay → w.pos = p →
            (∀ k ∈ fl.deferred, k.pos ≠ p) → fl.talkers = [] →
          exec (.groupConfig n) s = .next ((((s.takeFrame n f).setGroup g { x with
            floor := { fl with
              wait := a ++ b ++ up, deferred := stay
              served := up.foldl (fun m k => m.put k.pos false) (fl.served.put p false) } }).emit
              { given := ⟨.gfu, portOf p, .floorLost g .removed⟩
                  :: up.map fun k => ⟨.gfu, portOf k.pos, .floorWait g k.level⟩
                notices := [.group g], fromGfu := [.remove p (.group g)] }).answer (.port n) .accepted)))
      ∧ (∀ p, r.kind = kind → r.allow.look p = true → x.allow = r.allow.put p false →
        r.kind = .intercom ∧ r.handsetOf p = none ∨ r.kind = .unused →
        exec (.groupConfig n) s = .next ((((s.takeFrame n f).setGroup g x).emit { notices := [.group g] }).answer (.port n)
          .accepted))
      ∧ (∀ p h left, r.kind = .intercom → kind = .intercom → r.allow.look p = true →
        x.allow = r.allow.put p false → r.handsetOf p = some h → left = r.joined.filter (fun m => m.1 != p) →
        exec (.groupConfig n) s = .next ((((s.takeFrame n f).setGroup g { x with joined := left }).emit
          { given := ⟨.gfu, portOf p, .groupReleased g h .removed⟩
              :: left.map fun m => ⟨.gfu, portOf m.1, .groupState g left.length p true⟩
            fromGfu := [.released p h (.group g)]
            notices := [.group g, .group g] }).answer (.port n) .accepted))
      ∧ (∀ p ports first u v, r.kind = kind → r.allow.look p = true → x.allow.look p = false →
        (∀ q, q < p → r.allow.look q = true → x.allow.look q = true) →
        ((∃ q, q ≠ p ∧ r.allow.look q = true ∧ x.allow.look q = false) ∨ r.kind = .hoot ∧ r.openMode ≠ openMode) →
        State.Offers { s with lki := ports } n .groupConfig first → numOf 16 (byteAt first.body 0) = some g →
        groupKindOf (byteAt first.body 1) = some kind → onOffOf (byteAt first.body 5) = some r.openMode →
        posSetOf (byteAt first.body 2) (byteAt first.body 3) = r.allow.put p false →
        (byteAt first.body 4).toFin = x.talkLevel → (byteAt first.body 6).toFin = x.holdLimit →
        exec (.groupConfig n) { s with lki := ports } = .next u →
        exec (.groupConfig n) { u with lki := s.lki } = .next v →
        ∃ now later, u.chan.notices = s.chan.notices ++ now ++ [.group g]
          ∧ v.chan.notices = u.chan.notices ++ later
          ∧ exec (.groupConfig n) s = .next (v.setChan { v.chan with notices := s.chan.notices ++ now ++ later }))))
  ∧ (∀ (s t : State) (p : Pos) (h : Handset) (v : Via) (g : Grp) (r : GroupRec) (all : List (Pos × Handset)),
    s.nextForHandset .gfu p h = some (.join p h v g, t) → s.group g = r → all = r.joined ++ [(p, h)] →
    exec (.joinGroupAtGfu p h) s = .next (
      if r.kind ≠ .intercom then t.emit { fromGfu := [.outcome p h v (.inr .badKind)] }
      else if r.allow.look p = false then t.emit { fromGfu := [.outcome p h v (.inr .notMember)] }
      else if (r.handsetOf p).isSome = true then t.emit { fromGfu := [.outcome p h v (.inr .already)] }
      else if (∃ k, (p, h) ∈ (s.group k).joined) ∨ (∃ c, (s.call c).holds p h = true) then
        t.emit { fromGfu := [.outcome p h v (.inr .handsetBusy)] }
      else (t.setGroup g { r with joined := all }).emit
        { given := all.map fun m => ⟨.gfu, portOf m.1, .groupState g all.length p false⟩
          notices := [.group g], fromGfu := [.outcome p h v (.inl (.group g))] }))

/-- HOOT_ATTACH (R22, R62): a line or group out of range is BAD_VALUE; else GFU asks LCU, LCU answers and holds the line, GFU
decides in the order of R62, and LCU takes the outcome: the line goes from IDLE to ATTACHED, or its hold ends. -/
def Obligations.HootAttachIsDecidedByBoth : Prop :=
  (∀ (s : State) (n : Port) (f : Frame), s.Offers n .hootAttach f →
    numOf 64 (byteAt f.body 0) = none ∨ numOf 16 (byteAt f.body 1) = none →
    exec (.hootAttach n) s = .next ((s.takeFrame n f).answer (.port n) .badValue))
  ∧ (∀ (s : State) (l : Line) (g : Grp),
    (∀ n f, s.Offers n .hootAttach f → numOf 64 (byteAt f.body 0) = some l → numOf 16 (byteAt f.body 1) = some g →
      exec (.hootAttach n) s = .next { s.takeFrame n f with
        chan := { s.chan with attachToLcu := s.chan.attachToLcu ++ [.question l g] } })
    ∧ (∀ rest r, takeFirst (AttachToLcu.about l) s.chan.attachToLcu = some (.question l g, rest) → s.line l = r →
      r.attachHold = false →
      exec (.attachQuestion l) s = .next ((s.setLine l { r with attachHold := true }).setChan
        { s.chan with
          attachToLcu := rest, attachToGfu := s.chan.attachToGfu ++ [.answer l g r.state r.cfg.kind r.hoot] }))
    ∧ (∀ rest state kind hoot (r : GroupRec) c t,
      takeFirst (AttachToGfu.about l) s.chan.attachToGfu = some (.answer l g state kind hoot, rest) → s.group g = r →
      (state = .outOfService ∧ c = some .outOfService
        ∨ state ≠ .outOfService ∧ kind ≠ .hoot ∧ c = some .badKind
        ∨ state ≠ .outOfService ∧ kind = .hoot ∧ r.kind ≠ .hoot ∧ c = some .badKind
        ∨ state ≠ .outOfService ∧ kind = .hoot ∧ r.kind = .hoot ∧
          (hoot = some g ∧ c = some .already
            ∨ (∃ k, hoot = some k ∧ k ≠ g) ∧ c = some .lineBusy
            ∨ hoot = none ∧ 8 ≤ r.attached.length ∧ c = some .groupFull
            ∨ hoot = none ∧ r.attached.length < 8 ∧ c = none)) →
      t = s.setChan { s.chan with
        attachToGfu := rest
        attachToLcu := s.chan.attachToLcu ++ [.outcome l (if c = none then some g else none)] } →
      (∀ code, c = some code → exec (.attachAnswer l) s = .next (t.answer (.port mgmt) code))
      ∧ (c = none → exec (.attachAnswer l) s = .next
        (((t.setGroup g { r with attached := r.attached ++ [l] }).emit { notices := [.group g] }).answer (.port mgmt)
          .accepted)))
    ∧ (∀ rest r, takeFirst (AttachToLcu.about l) s.chan.attachToLcu = some (.outcome l (some g), rest) → s.line l = r →
      r.state = .idle → r.cfg.kind = .hoot → ∀ x, x = { r with attachHold := false, state := .attached, hoot := some g } →
      exec (.attachOutcome l) s = .next (((s.setChan { s.chan with attachToLcu := rest }).setLine l x).emit
        { given := lineStates l (s.row l) x .none, notices := [.line l] }))
    ∧ (∀ rest, takeFirst (AttachToLcu.about l) s.chan.attachToLcu = some (.outcome l none, rest) →
      exec (.attachOutcome l) s = .next ((s.setChan { s.chan with attachToLcu := rest }).setLine l
        { s.line l with attachHold := false })))

/-- A hoot line leaves its group (R22, R23, R63): by HOOT_DETACH, which refuses operands out of range BAD_VALUE and a line
that is not attached NOT_CONNECTED, and by LINE_SERVICE out, after which LCU tells GFU; the other lines keep their order. A
HOOT_DETACH that GFU takes before the removal of a line already OUT_OF_SERVICE is accepted and leaves the line so, and the
removal then finds it gone: the model's choice (notes/assumptions/47.md). Listening notices in the order PTB sent them (R66):
listen-on puts the position in the set; listen-off takes it out and ends its standing on the floor, with FLOOR_LOST LEFT for a
holder, a waiter, a deferred entry or an open talker, the floor of a holder passing by the grant rule and the deferred entries
of a level moving up behind its last waiter (R80, R84, R92), or takes it out alone where the notice is of a soft reset (R77).
An UNUSED group is always idle (R56); that a listen-on notice for a group that is no longer HOOT is taken and changes nothing
is the model's choice (notes/assumptions/44.md, DESIGN CHOICE). -/
def Obligations.HootLinesAndListeners : Prop :=
  (∀ (s : State) (n : Port) (f : Frame), s.Offers n .hootDetach f → s.lineHeld (byteAt f.body 0) = false →
    numOf 64 (byteAt f.body 0) = none ∨ numOf 16 (byteAt f.body 1) = none →
    exec (.hootDetach n) s = .next ((s.takeFrame n f).answer (.port n) .badValue))
  ∧ (∀ (s : State) (l : Line) (g : Grp) (r : GroupRec) (rest : List Line), s.group g = r →
    rest = r.attached.filter (fun k => k != l) →
    (∀ n f, s.Offers n .hootDetach f → numOf 64 (byteAt f.body 0) = some l → numOf 16 (byteAt f.body 1) = some g →
      (s.line l).attachHold = false →
      (l ∉ r.attached → exec (.hootDetach n) s = .next ((s.takeFrame n f).answer (.port n) .notConnected))
      ∧ (l ∈ r.attached → (s.line l).state = .attached → (s.line l).hoot = some g →
        ∀ x, x = { s.line l with state := .idle, hoot := none } →
        exec (.hootDetach n) s = .next ((((((s.takeFrame n f).setGroup g { r with attached := rest }).emit
          { notices := [.group g] }).setLine l x).emit
          { given := lineStates l (s.row l) x .none, notices := [.line l] }).answer (.port n) .accepted))
      ∧ (l ∈ r.attached → (s.line l).state = .outOfService →
        exec (.hootDetach n) s = .next ((((s.takeFrame n f).setGroup g { r with attached := rest }).emit
          { notices := [.group g] }).answer (.port n) .accepted)))
    ∧ (∀ n f x, s.Offers n .lineService f → numOf 64 (byteAt f.body 0) = some l → byteAt f.body 1 = 0 →
      (s.line l).attachHold = false → (s.line l).state = .attached → (s.line l).hoot = some g →
      (s.line l).connected = [] →
      x = { s.line l with
        state := .outOfService, hoot := none, nearSeize := false, ringOut := false, stateTimer := none,
        direction := none, privacy := false, connected := [], owner := none } →
      ∃ t, exec (.lineServiceOut n) s = .next t ∧ t.line l = x
        ∧ t.chan.attachToGfu = s.chan.attachToGfu ++ [.removal l g]
        ∧ t.chan.given = s.chan.given ++ lineStates l (s.row l) x .none)
    ∧ (∀ left, takeFirst (AttachToGfu.about l) s.chan.attachToGfu = some (.removal l g, left) → l ∈ r.attached →
      exec (.hootLineRemoval l) s = .next (((s.setChan { s.chan with attachToGfu := left }).setGroup g
        { r with attached := rest }).emit { notices := [.group g] }))
    ∧ (∀ left, takeFirst (AttachToGfu.about l) s.chan.attachToGfu = some (.removal l g, left) → l ∉ r.attached →
      exec (.hootLineRemoval l) s = .next (s.setChan { s.chan with attachToGfu := left })))
  ∧ (∀ (s : State) (p : Pos) (g : Grp) (rest : List Listening) (r x : GroupRec) (ofReset on : Bool), s.group g = r →
    s.chan.listening = ⟨p, g, on, ofReset⟩ :: rest → x = { r with listening := r.listening.put p on } →
    (on = true → r.kind = .hoot →
      exec .listenOn s = .next ((s.setChan { s.chan with listening := rest }).setGroup g x))
    ∧ (on = true → r.kind ≠ .hoot → exec .listenOn s = .next (s.setChan { s.chan with listening := rest }))
    ∧ (on = false → ofReset = true →
      exec .listenOff s = .next ((s.setChan { s.chan with listening := rest }).setGroup g x))
    ∧ (on = false → ofReset = false → r.floor.engaged p = false →
      exec .listenOff s = .next ((s.setChan { s.chan with listening := rest }).setGroup g
        { x with floor := { r.floor with served := r.floor.served.put p false } }))
    ∧ (on = false → ofReset = false → r.floor.holder = none → r.floor.wait = [] → r.floor.deferred = [] →
      ∀ a b o, r.floor.talkers = a ++ ⟨p, o⟩ :: b → (∀ k ∈ a ++ b, k.pos ≠ p) →
      exec .listenOff s = .next (((s.setChan { s.chan with listening := rest }).setGroup g
        { x with floor := { r.floor with served := r.floor.served.put p false, talkers := a ++ b } }).emit
          { given := [⟨.gfu, portOf p, .floorLost g .left⟩], notices := [.group g, .position p] }))
    ∧ (on = false → ofReset = false → r.floor.holderPos = some p → r.floor.wait = [] →
      exec .listenOff s = .next (((s.setChan { s.chan with listening := rest }).setGroup g
        { x with floor := { r.floor with holder := none, holdTimer := none, served := r.floor.served.put p false } }).emit
          { given := ⟨.gfu, portOf p, .floorLost g .left⟩
              :: (posList x.listening).map fun i => ⟨.gfu, portOf i, .floorHolder g none⟩
            notices := [.group g, .position p] }))
    ∧ (∀ w a b up stay, on = false → ofReset = false → r.floor.holderPos = some p → r.floor.Picks w a b up stay →
        w.pos ≠ p →
      exec .listenOff s = .next (((s.setChan { s.chan with listening := rest }).setGroup g
        { x with floor := { r.floor with
            holder := some ⟨w.pos, w.level, w.latched, false, w.origin⟩, wait := a ++ b ++ up, deferred := stay
            holdTimer := if r.holdLimit = 0 then none else some r.holdLimit.val
            served := up.foldl (fun m k => m.put k.pos false) (r.floor.served.put p false) } }).emit
          { given := ⟨.gfu, portOf p, .floorLost g .left⟩
              :: ⟨.gfu, portOf w.pos, .floorGranted g w.level w.latched false⟩
              :: (up.map fun k => ⟨.gfu, portOf k.pos, .floorWait g k.level⟩)
              ++ (posList x.listening).map fun i => ⟨.gfu, portOf i, .floorHolder g (some w.pos)⟩
            notices := [.group g, .position p, .position w.pos] }))
    ∧ (∀ w a b up stay, on = false → ofReset = false → r.floor.holderPos ≠ some p → r.floor.Splits w a b up stay →
        w.pos = p → (∀ k ∈ r.floor.deferred, k.pos ≠ p) → (∀ k ∈ r.floor.talkers, k.pos ≠ p) →
      exec .listenOff s = .next (((s.setChan { s.chan with listening := rest }).setGroup g
        { x with floor := { r.floor with
            wait := a ++ b ++ up, deferred := stay
            served := up.foldl (fun m k => m.put k.pos false) (r.floor.served.put p false) } }).emit
          { given := ⟨.gfu, portOf p, .floorLost g .left⟩
              :: up.map fun k => ⟨.gfu, portOf k.pos, .floorWait g k.level⟩ }))
    ∧ (∀ a b w, on = false → ofReset = false → r.floor.holderPos ≠ some p → (∀ k ∈ r.floor.talkers, k.pos ≠ p) →
      w.pos = p → (∀ k ∈ a ++ b, k.pos ≠ p) → r.floor.deferred = a ++ w :: b → (∀ k ∈ r.floor.wait, k.pos ≠ p) →
      exec .listenOff s = .next (((s.setChan { s.chan with listening := rest }).setGroup g
        { x with floor := { r.floor with served := r.floor.served.put p false, deferred := a ++ b } }).emit
          { given := [⟨.gfu, portOf p, .floorLost g .left⟩] })))

/-- CALL_CONFIG (R67), and a forwarded CALL_POSITION at GFU with its checks in order (R68): the call takes the lowest FREE
record, the callee is alerted, and the alert timer starts with the call alert count. How an ALERTING call goes on (R70 to
R72): its callee answers, anyone else is NOT_CONNECTED; its callee declines; or its alert time runs out, and the caller is
released and the callee told (an expiry whose timer has not run out does nothing, notes/assumptions/5.md). A party of an
ACTIVE call releases its handset (R73): the call ends and the other party's handset is released with CALL_ENDED. The model's
choices: a handset that GFU still holds in a group or a call is refused HANDSET_BUSY (R35, notes/assumptions/34.md), and so is
a caller that GFU holds DOWN, which no call may name (R74; that this is the code is the model's choice,
notes/assumptions/36.md). -/
def Obligations.CallsAreSetUpAndEnded : Prop :=
  ((∀ (s : State) (n : Port) (f : Frame), s.Offers n .callConfig f →
    exec (.callConfig n) s = .next
      (State.answer { s.takeFrame n f with gfu := { s.gfu with
        alertCount := if byteAt f.body 0 = 0 then 1 else (byteAt f.body 0).toFin } } (.port n) .accepted))
  ∧ (∀ (s t : State) (p : Pos) (h : Handset) (v : Via) (callee : Byte) (voice : Bool),
    s.nextForHandset .gfu p h = some (.call p h v callee voice, t) →
    ((numOf 16 callee = none ∨ numOf 16 callee = some p) →
      exec (.callPositionAtGfu p h) s = .next (t.emit { fromGfu := [.outcome p h v (.inr .badValue)] }))
    ∧ (∀ q, numOf 16 callee = some q → q ≠ p →
      (s.gfu.up.look q = false →
        exec (.callPositionAtGfu p h) s = .next (t.emit { fromGfu := [.outcome p h v (.inr .calleeDown)] }))
      ∧ (s.gfu.up.look q = true → (∃ c, (s.call c).alerts q = true) →
        exec (.callPositionAtGfu p h) s = .next (t.emit { fromGfu := [.outcome p h v (.inr .calleeBusy)] }))
      ∧ (s.gfu.up.look q = true → (∀ c, (s.call c).alerts q = false) → (∀ c, s.call c ≠ .free) →
        exec (.callPositionAtGfu p h) s = .next (t.emit { fromGfu := [.outcome p h v (.inr .noResource)] }))
      ∧ (s.gfu.up.look q = true → (∀ c, (s.call c).alerts q = false) → (∃ c, s.call c = .free) →
        s.gfu.up.look p = false ∨ (∃ k, (p, h) ∈ (s.group k).joined) ∨ (∃ c, (s.call c).holds p h = true) →
        exec (.callPositionAtGfu p h) s = .next (t.emit { fromGfu := [.outcome p h v (.inr .handsetBusy)] }))
      ∧ (∀ c, s.gfu.up.look q = true → s.gfu.up.look p = true → (∀ c, (s.call c).alerts q = false) → s.call c = .free →
        (∀ d, d < c → s.call d ≠ .free) → (∀ k, (p, h) ∉ (s.group k).joined) → (∀ c, (s.call c).holds p h = false) →
        exec (.callPositionAtGfu p h) s = .next
          ((t.setCall c (.alerting p h q voice (some s.gfu.alertCount.val))).emit
            { given := [⟨.gfu, portOf q, .callAlert c p h voice⟩], notices := [.position p, .position q]
              fromGfu := [.outcome p h v (.inl (.call c))] })))))
  ∧ (∀ (s : State) (c : CallNo) (q p : Pos) (k : Handset) (voice : Bool) (timer : Timer),
    s.call c = .alerting q k p voice timer →
    (∀ t h v, s.nextForHandset .gfu p h = some (.answer p h v c, t) →
      (∃ k, (p, h) ∈ (s.group k).joined) ∨ (∃ d, (s.call d).holds p h = true) →
      exec (.answerCallAtGfu p h) s = .next (t.emit { fromGfu := [.outcome p h v (.inr .handsetBusy)] }))
    ∧ (∀ t h v, s.nextForHandset .gfu p h = some (.answer p h v c, t) →
      (∀ k, (p, h) ∉ (s.group k).joined) → (∀ d, (s.call d).holds p h = false) →
      exec (.answerCallAtGfu p h) s = .next ((t.setCall c (.active q k p h voice)).emit
        { given := [⟨.gfu, portOf q, .callAnswered c p h⟩], notices := [.position q, .position p]
          fromGfu := [.outcome p h v (.inl (.call c))] }))
    ∧ (∀ t a h v, a ≠ p → s.nextForHandset .gfu a h = some (.answer a h v c, t) →
      exec (.answerCallAtGfu a h) s = .next (t.emit { fromGfu := [.outcome a h v (.inr .notConnected)] }))
    ∧ (∀ t n b, s.Submits (.port n) .declineCall p b t → numOf 8 (byteAt b 0) = some c →
      exec (.declineCall n) s = .next (((t.setCall c .free).emit
        { given := [⟨.gfu, portOf q, .callReleased c k .declined⟩], notices := [.position q, .position p]
          fromGfu := [.released q k (.call c)] }).answer (.port n) .accepted))
    ∧ (timer ≠ some 0 → exec (.callAlertExpiry c) s = .next s)
    ∧ (timer = some 0 →
      exec (.callAlertExpiry c) s = .next ((s.setCall c .free).emit
        { given := [⟨.gfu, portOf q, .callReleased c k .noAnswer⟩, ⟨.gfu, portOf p, .callWithdrawn c .noAnswer⟩]
          notices := [.position q, .position p], fromGfu := [.released q k (.call c)] })))
  ∧ (∀ (s t : State) (c : CallNo) (p : Pos) (h : Handset) (v : Via) (n : Port) (b : List Byte),
    ((s.call c).alerts p = false → s.nextForHandset .gfu p h = some (.answer p h v c, t) →
      exec (.answerCallAtGfu p h) s = .next (t.emit { fromGfu := [.outcome p h v (.inr .notConnected)] }))
    ∧ ((s.call c).alerts p = false → s.Submits (.port n) .declineCall p b t → numOf 8 (byteAt b 0) = some c →
      exec (.declineCall n) s = .next (t.answer (.port n) .notConnected))
    ∧ (s.Submits (.port n) .declineCall p b t → numOf 8 (byteAt b 0) = none →
      exec (.declineCall n) s = .next (t.answer (.port n) .badValue))
    ∧ ((∀ q, (s.call c).alerts q = false) → exec (.callAlertExpiry c) s = .next s))
  ∧ (∀ (s t : State) (c : CallNo) (p q : Pos) (h k : Handset) (voice : Bool) (v : Via),
    s.nextForHandset .gfu p h = some (.release p h v (.call c), t) → s.call c = .active p h q k voice → p ≠ q →
    (s.pos p).claim.of h = .call c →
    exec (.releaseAtOwner .gfu p h) s = .next (((((t.setCall c .free).emit
      { given := [⟨.gfu, portOf q, .callReleased c k .callEnded⟩], fromGfu := [.released q k (.call c)]
        notices := [.position p, .position q] }).setPos p { s.pos p with
          claim := (s.pos p).claim.set h .none, mute := (s.pos p).mute.set h false }).emit
      { notices := [.position p] }).answer (requesterOf p v) .accepted))

/-- QUERY_GROUP (R75, R96) changes nothing but the port's request and reply: RECORD and FLOOR of a group go to the manager and
to its members, CALLS to the manager alone; a group above 15 or a part above 2 is BAD_VALUE, looked at before the port's right
to ask: the model's reading (notes/assumptions/21.md). Each body has the fields of R75 and R96 in their order, in the codes of
R179 and R181; where those leave the layout of a list or a call open, it is the model's reading (notes/assumptions/25.md). -/
def Obligations.QueryGroupParts : Prop :=
  ∀ (s : State) (n : Port) (f : Frame) (packed : Pos → Fin 4 → Bool → Origin → Byte) (call : CallRec → List Byte),
    s.Offers n .queryGroup f →
    packed = (fun p level latched o => byteOf (p.val + 16 * level.val + (if latched then 64 else 0)
      + match o with | .explicit => 0 | .vox => 128)) →
    call = (fun c => match c with
      | .free => [0x00#8, 0xFF#8, 0xFF#8, 0xFF#8, 0xFF#8, 0x00#8]
      | .alerting p h q voice _ => [0x01#8, byteOf p.val, handsetByte h, byteOf q.val, 0xFF#8, onByte voice]
      | .active p h q k voice => [0x02#8, byteOf p.val, handsetByte h, byteOf q.val, handsetByte k, onByte voice]) →
    (∀ g (r : GroupRec), numOf 16 (byteAt f.body 0) = some g → s.group g = r →
      (byteAt f.body 1 = 0 → n = mgmt ∨ (∃ p, posOf n = some p ∧ r.allow.look p = true) →
        exec (.queryGroup n) s = .next ((s.takeFrame n f).answer (.port n) .accepted
          ([r.kind.byte] ++ posSetBytes r.allow ++ [byteOf r.talkLevel.val, onByte r.openMode, byteOf r.holdLimit.val]
            ++ (byteOf r.joined.length :: r.joined.flatMap fun m => [byteOf m.1.val, handsetByte m.2])
            ++ (byteOf r.attached.length :: r.attached.map fun l => byteOf l.val) ++ posSetBytes r.listening)))
      ∧ (byteAt f.body 1 = 2 → n = mgmt ∨ (∃ p, posOf n = some p ∧ r.allow.look p = true) →
        exec (.queryGroup n) s = .next ((s.takeFrame n f).answer (.port n) .accepted
          ([onByte r.openMode]
            ++ (match r.floor.holder with
                | none => [0xFF#8, 0xFF#8, 0xFF#8, 0xFF#8, 0xFF#8]
                | some h => [byteOf h.pos.val, byteOf h.level.val, onByte h.latched, onByte h.pinned, h.origin.byte])
            ++ [onByte r.floor.holdTimer.isSome]
            ++ (byteOf r.floor.wait.length :: r.floor.wait.map fun w => packed w.pos w.level w.latched w.origin)
            ++ (byteOf r.floor.deferred.length :: r.floor.deferred.map fun w => packed w.pos w.level w.latched w.origin)
            ++ posSetBytes r.floor.served
            ++ (byteOf r.floor.talkers.length :: r.floor.talkers.map fun t => packed t.pos 0 false t.origin))))
      ∧ (∀ p, byteAt f.body 1 = 0 ∨ byteAt f.body 1 = 2 → posOf n = some p → r.allow.look p = false →
        exec (.queryGroup n) s = .next ((s.takeFrame n f).answer (.port n) .notPermitted)))
    ∧ (byteAt f.body 1 = 1 →
      exec (.queryGroup n) s = .next (
        if n = mgmt then
          (s.takeFrame n f).answer (.port n) .accepted
            ((List.finRange 8).flatMap (fun c => call (s.call c)) ++ [byteOf s.gfu.alertCount.val])
        else (s.takeFrame n f).answer (.port n) .notPermitted))
    ∧ (3 ≤ (byteAt f.body 1).toNat ∨ (numOf 16 (byteAt f.body 0) = none ∧ byteAt f.body 1 ≠ 1) →
      exec (.queryGroup n) s = .next ((s.takeFrame n f).answer (.port n) .badValue))

/-! ## Floors (chapter 4) -/

/-- The grant rule's choice (R80): of the waiting entries, one of the highest level, and of those the earliest arrival. -/
def Obligations.GrantRulePicksHighestThenEarliest : Prop :=
  ∀ (l : List Waiter) (v : Waiter), topWaiter l = some v ↔
    ∃ a b, l = a ++ v :: b ∧ (∀ w ∈ a, w.level < v.level) ∧ (∀ w ∈ b, w.level ≤ v.level)

/-- FLOOR_REQUEST. Its checks in order (R78): BAD_VALUE for operands out of their codes, then only a listening member of a
HOOT group whose image is UP, then a microphone engaged elsewhere, then one engaged here. Then the four cases of R79, the
deferral of R83, and OPEN mode (R86): on a free floor, at level 3 over a lower holder, at a LATCHED holder, which hands over
to the grant rule's choice among those waiting and the arrival (R80, R84), behind a holder that keeps the floor, and as an
open talker. The order of the records of a hand-over, the arrival's own first, is the model's reading
(notes/assumptions/29.md). -/
def Obligations.FloorRequestsAreDecided : Prop :=
  (∀ (s t : State) (q : Requester) (p : Pos) (b : List Byte), s.Submits q .floorRequest p b t →
    numOf 16 (byteAt b 0) = none ∨ onOffOf (byteAt b 1) = none →
    exec (.floorRequest q) s = .next (t.answer q .badValue))
  ∧ (∀ (s t : State) (q : Requester) (p : Pos) (b : List Byte) (g : Grp) (latch : Bool) (r : GroupRec),
    s.Submits q .floorRequest p b t → numOf 16 (byteAt b 0) = some g → onOffOf (byteAt b 1) = some latch → s.group g = r →
    (r.kind ≠ .hoot ∨ r.listening.look p = false ∨ s.gfu.up.look p = false →
      exec (.floorRequest q) s = .next (t.answer q .notMember))
    ∧ (r.kind = .hoot → r.listening.look p = true → s.gfu.up.look p = true →
      ((∃ k, k ≠ g ∧ (s.group k).floor.engaged p = true) →
        exec (.floorRequest q) s = .next (t.answer q .micBusy))
      ∧ ((∀ k, k ≠ g → (s.group k).floor.engaged p = false) → r.floor.engaged p = true →
        exec (.floorRequest q) s = .next (t.answer q .already))))
  ∧ (∀ (s t : State) (q : Requester) (p : Pos) (b : List Byte) (g : Grp) (latch : Bool) (r : GroupRec) (f : Floor)
    (lv : Fin 4) (limit : Timer) (news : List Given),
    s.Submits q .floorRequest p b t → numOf 16 (byteAt b 0) = some g → onOffOf (byteAt b 1) = some latch → s.group g = r →
    r.floor = f → s.floorCheck p g = none → lv = (s.pos p).settings.floorLevel →
    limit = (if r.holdLimit = 0 then none else some r.holdLimit.val) →
    news = (posList r.listening).map (fun j => ⟨.gfu, portOf j, .floorHolder g (some p)⟩) →
    (r.openMode = false → f.holder = none →
      exec (.floorRequest q) s = .next (((t.setGroup g { r with floor := { f with
          holder := some ⟨p, lv, latch, false, .explicit⟩, served := f.served.put p false, holdTimer := limit } }).emit
        { given := ⟨.gfu, portOf p, .floorGranted g lv latch false⟩ :: news
          notices := [.group g, .position p] }).answer q .accepted))
    ∧ (∀ h, r.openMode = false → f.holder = some h → lv = 3 → h.level < 3 → h.pinned = false →
      exec (.floorRequest q) s = .next (((t.setGroup g { r with floor := { f with
          holder := some ⟨p, lv, latch, false, .explicit⟩, holdTimer := limit
          served := (if (s.pos h.pos).settings.fair = true then f.served.put h.pos true else f.served).put p false } }).emit
        { given := ⟨.gfu, portOf h.pos, .floorLost g .preempted⟩ :: ⟨.gfu, portOf p, .floorGranted g lv latch false⟩
            :: news
          notices := [.group g, .position h.pos, .position p] }).answer q .accepted))
    ∧ (∀ h, r.openMode = false → f.holder = some h → h.latched = true → h.pinned = false → ¬(lv = 3 ∧ h.level < 3) →
      f.wait = [] → f.deferred = [] →
      exec (.floorRequest q) s = .next (((t.setGroup g { r with floor := { f with
          holder := some ⟨p, lv, latch, false, .explicit⟩, holdTimer := limit
          served := if (s.pos h.pos).settings.fair = true then (f.served.put p false).put h.pos true
                    else f.served.put p false } }).emit
        { given := ⟨.gfu, portOf h.pos, .floorLost g .handedOver⟩ :: ⟨.gfu, portOf p, .floorGranted g lv latch false⟩
            :: news
          notices := [.group g, .position h.pos, .position p] }).answer q .accepted))
    ∧ (∀ h (late : Bool) (j : Floor) w x y up stay, r.openMode = false → f.holder = some h → h.latched = true → h.pinned = false →
        ¬(lv = 3 ∧ h.level < 3) →
        (late = true ↔ f.served.look p = true ∧ (s.pos p).settings.fair = true ∧ ∃ v ∈ f.wait, v.level = lv) →
        j = (if late then { f with deferred := f.deferred ++ [⟨p, lv, latch, .explicit⟩] }
          else { f with wait := f.wait ++ [⟨p, lv, latch, .explicit⟩], served := f.served.put p false }) →
        j.Picks w x y up stay → w.pos ≠ h.pos →
      exec (.floorRequest q) s = .next (((t.setGroup g { r with floor := { f with
          holder := some ⟨w.pos, w.level, w.latched, false, w.origin⟩, holdTimer := limit, wait := x ++ y ++ up
          deferred := stay
          served := up.foldl (fun m k => m.put k.pos false)
            (if (s.pos h.pos).settings.fair = true then j.served.put h.pos true else j.served) } }).emit
        { given := (if w.pos = p then ([] : List Given)
              else [⟨.gfu, portOf p, if late then .floorDeferred g lv else .floorWait g lv⟩])
            ++ ⟨.gfu, portOf h.pos, .floorLost g .handedOver⟩
            :: ⟨.gfu, portOf w.pos, .floorGranted g w.level w.latched false⟩
            :: (up.map fun k => ⟨.gfu, portOf k.pos, .floorWait g k.level⟩)
            ++ (posList r.listening).map fun i => ⟨.gfu, portOf i, .floorHolder g (some w.pos)⟩
          notices := [.group g, .position h.pos, .position w.pos] }).answer q .accepted))
    ∧ (∀ h, r.openMode = false → f.holder = some h → h.latched = false ∨ h.pinned = true →
      ¬(lv = 3 ∧ h.level < 3 ∧ h.pinned = false) →
      exec (.floorRequest q) s = .next (
        if f.served.look p = true ∧ (s.pos p).settings.fair = true ∧ (∃ w ∈ f.wait, w.level = lv) then
          ((t.setGroup g { r with floor := { f with deferred := f.deferred ++ [⟨p, lv, latch, .explicit⟩] } }).emit
            { given := [⟨.gfu, portOf p, .floorDeferred g lv⟩] }).answer q .accepted
        else
          ((t.setGroup g { r with floor := { f with
              wait := f.wait ++ [⟨p, lv, latch, .explicit⟩], served := f.served.put p false } }).emit
            { given := [⟨.gfu, portOf p, .floorWait g lv⟩] }).answer q .accepted))
    ∧ (r.openMode = true →
      exec (.floorRequest q) s = .next (((t.setGroup g { r with floor := { f with
          talkers := f.talkers ++ [⟨p, .explicit⟩] } }).emit
        { given := [⟨.gfu, portOf p, .floorGranted g lv latch false⟩], notices := [.group g, .position p] }).answer q
          .accepted)))

/-- FLOOR_RELEASE by what the position is to the floor (R85, R86): a group out of range is BAD_VALUE; a holder that is not
pinned gives it up, to the grant rule's choice with the deferred entries of that level moved up when it was the last of them
(R80, R84), or to nobody; a pinned holder is NOT_PERMITTED, nobody NOT_WAITING, as on a group that is not of kind HOOT; a
waiter is withdrawn, and the deferred entries of its level move up when it was the last of them; a deferred request and an
open talker are withdrawn. The holder's hold expiry ends its grant TIMED_OUT the same way (R82), once the timer has run out
and has not been restarted or stopped since (notes/assumptions/5.md). -/
def Obligations.FloorEndsPassItOn : Prop :=
  (∀ (s t : State) (q : Requester) (p : Pos) (b : List Byte), s.Submits q .floorRelease p b t →
    numOf 16 (byteAt b 0) = none → exec (.floorRelease q) s = .next (t.answer q .badValue))
  ∧ (∀ (s : State) (g : Grp) (r : GroupRec) (f : Floor) (p : Pos) (limit : Timer) (marked : PosSet), s.group g = r →
    r.floor = f → limit = (if r.holdLimit = 0 then none else some r.holdLimit.val) →
    marked = (if (s.pos p).settings.fair = true then f.served.put p true else f.served) →
    (∀ t q b, s.Submits q .floorRelease p b t → numOf 16 (byteAt b 0) = some g → r.kind ≠ .hoot →
      exec (.floorRelease q) s = .next (t.answer q .notWaiting))
    ∧ (∀ t q b, s.Submits q .floorRelease p b t → numOf 16 (byteAt b 0) = some g → r.kind = .hoot →
      (f.engaged p = false → exec (.floorRelease q) s = .next (t.answer q .notWaiting))
      ∧ (∀ h, f.holder = some h → h.pos = p → h.pinned = true →
        exec (.floorRelease q) s = .next (t.answer q .notPermitted))
      ∧ (∀ h, f.holder = some h → h.pos = p → h.pinned = false → f.wait = [] →
        exec (.floorRelease q) s = .next (((t.setGroup g { r with floor := { f with
            holder := none, holdTimer := none, served := marked } }).emit
          { given := (posList r.listening).map fun j => ⟨.gfu, portOf j, .floorHolder g none⟩
            notices := [.group g, .position p] }).answer q .accepted))
      ∧ (∀ h w a b up stay, f.holder = some h → h.pos = p → h.pinned = false → f.Picks w a b up stay → w.pos ≠ p →
        exec (.floorRelease q) s = .next (((t.setGroup g { r with floor := { f with
            holder := some ⟨w.pos, w.level, w.latched, false, w.origin⟩, holdTimer := limit, wait := a ++ b ++ up
            deferred := stay, served := up.foldl (fun m x => m.put x.pos false) marked } }).emit
          { given := ⟨.gfu, portOf w.pos, .floorGranted g w.level w.latched false⟩
              :: (up.map fun x => ⟨.gfu, portOf x.pos, .floorWait g x.level⟩)
              ++ (posList r.listening).map fun i => ⟨.gfu, portOf i, .floorHolder g (some w.pos)⟩
            notices := [.group g, .position p, .position w.pos] }).answer q .accepted))
      ∧ (∀ w a b up stay, f.holderPos ≠ some p → f.Splits w a b up stay → w.pos = p → (∀ x ∈ f.deferred, x.pos ≠ p) →
          f.talkers = [] →
        exec (.floorRelease q) s = .next (((t.setGroup g { r with floor := { f with
            wait := a ++ b ++ up, deferred := stay, served := up.foldl (fun m x => m.put x.pos false) f.served } }).emit
          { given := up.map fun x => ⟨.gfu, portOf x.pos, .floorWait g x.level⟩ }).answer q .accepted))
      ∧ (f.engaged p = true → f.holderPos ≠ some p → (∀ x ∈ f.wait, x.pos ≠ p) →
        exec (.floorRelease q) s = .next (((t.setGroup g { r with floor := { f with
            deferred := f.deferred.filter fun x => x.pos != p, talkers := f.talkers.filter fun x => x.pos != p } }).emit
          { notices := if ∃ x ∈ f.talkers, x.pos = p then [.group g, .position p] else [] }).answer q .accepted)))
    ∧ (f.holdTimer ≠ some 0 → exec (.holdTimerExpiry g) s = .next s)
    ∧ (∀ h w a b up stay, f.holdTimer = some 0 → f.holder = some h → h.pos = p → f.Picks w a b up stay → w.pos ≠ p →
      exec (.holdTimerExpiry g) s = .next ((s.setGroup g { r with floor := { f with
          holder := some ⟨w.pos, w.level, w.latched, false, w.origin⟩, holdTimer := limit, wait := a ++ b ++ up
          deferred := stay, served := up.foldl (fun m x => m.put x.pos false) marked } }).emit
        { given := ⟨.gfu, portOf p, .floorLost g .timedOut⟩
            :: ⟨.gfu, portOf w.pos, .floorGranted g w.level w.latched false⟩
            :: (up.map fun x => ⟨.gfu, portOf x.pos, .floorWait g x.level⟩)
            ++ (posList r.listening).map fun i => ⟨.gfu, portOf i, .floorHolder g (some w.pos)⟩
          notices := [.group g, .position p, .position w.pos] }))
    ∧ (∀ h, f.holdTimer = some 0 → f.holder = some h → h.pos = p → f.wait = [] →
      exec (.holdTimerExpiry g) s = .next ((s.setGroup g { r with floor := { f with
          holder := none, holdTimer := none, served := marked } }).emit
        { given := ⟨.gfu, portOf p, .floorLost g .timedOut⟩
            :: (posList r.listening).map fun j => ⟨.gfu, portOf j, .floorHolder g none⟩
          notices := [.group g, .position p] })))

/-- PIN_FLOOR with its checks in order, BAD_VALUE first (R87): of the present holder, on a free floor, over a holder that is
not pinned, and of a waiter or a deferred entry of the same floor, which leaves its place first, the deferred entries of a
waiter's level moving up behind the last of them (R84). UNPIN (R88) ends the pinned grant UNPINNED and passes the floor by the
grant rule (R80, R81), or is refused BAD_VALUE or NOT_WAITING. -/
def Obligations.PinAndUnpin : Prop :=
  (∀ (s : State) (n : Port) (f : Frame),
    (s.Offers n .pinFloor f → numOf 16 (byteAt f.body 0) = none ∨ numOf 16 (byteAt f.body 1) = none →
      exec (.pinFloor n) s = .next ((s.takeFrame n f).answer (.port n) .badValue))
    ∧ (s.Offers n .unpin f → numOf 16 (byteAt f.body 0) = none →
      exec (.unpin n) s = .next ((s.takeFrame n f).answer (.port n) .badValue)))
  ∧ (∀ (s : State) (n : Port) (f : Frame) (g : Grp) (r : GroupRec), numOf 16 (byteAt f.body 0) = some g → s.group g = r →
    (∀ p, s.Offers n .pinFloor f → numOf 16 (byteAt f.body 1) = some p →
      (r.kind ≠ .hoot ∨ r.openMode = true → exec (.pinFloor n) s = .next ((s.takeFrame n f).answer (.port n) .badKind))
      ∧ (r.kind = .hoot → r.openMode = false → r.listening.look p = false ∨ s.gfu.up.look p = false →
        exec (.pinFloor n) s = .next ((s.takeFrame n f).answer (.port n) .notMember))
      ∧ (r.kind = .hoot → r.openMode = false → r.listening.look p = true → s.gfu.up.look p = true →
        (∀ h, r.floor.holder = some h → h.pinned = true →
          exec (.pinFloor n) s = .next ((s.takeFrame n f).answer (.port n) (if h.pos = p then .already else .groupBusy)))
        ∧ ((∀ h, r.floor.holder = some h → h.pinned = false) → (∃ k, k ≠ g ∧ (s.group k).floor.engaged p = true) →
          exec (.pinFloor n) s = .next ((s.takeFrame n f).answer (.port n) .micBusy))
        ∧ (∀ h, r.floor.holder = some h → h.pinned = false → (∀ k, k ≠ g → (s.group k).floor.engaged p = false) →
            h.pos = p →
          exec (.pinFloor n) s = .next ((((s.takeFrame n f).setGroup g { r with floor := { r.floor with
              holder := some ⟨p, 3, true, true, .explicit⟩, holdTimer := none,
              served := r.floor.served.put p false } }).emit
            { given := [⟨.gfu, portOf p, .floorGranted g 3 true true⟩] }).answer (.port n) .accepted))
        ∧ (∀ h, r.floor.holder = some h → h.pinned = false → (∀ k, (s.group k).floor.engaged p = false) →
          exec (.pinFloor n) s = .next ((((s.takeFrame n f).setGroup g { r with floor := { r.floor with
              holder := some ⟨p, 3, true, true, .explicit⟩, holdTimer := none,
              served := (if (s.pos h.pos).settings.fair = true then r.floor.served.put h.pos true
                         else r.floor.served).put p false } }).emit
            { given := ⟨.gfu, portOf h.pos, .floorLost g .preempted⟩ :: ⟨.gfu, portOf p, .floorGranted g 3 true true⟩
                :: (posList r.listening).map fun j => ⟨.gfu, portOf j, .floorHolder g (some p)⟩
              notices := [.group g, .position h.pos, .position p] }).answer (.port n) .accepted))
        ∧ (r.floor.holder = none → (∀ k, (s.group k).floor.engaged p = false) →
          exec (.pinFloor n) s = .next ((((s.takeFrame n f).setGroup g { r with floor := { r.floor with
              holder := some ⟨p, 3, true, true, .explicit⟩, holdTimer := none
              served := r.floor.served.put p false } }).emit
            { given := ⟨.gfu, portOf p, .floorGranted g 3 true true⟩
                :: (posList r.listening).map fun j => ⟨.gfu, portOf j, .floorHolder g (some p)⟩
              notices := [.group g, .position p] }).answer (.port n) .accepted))
        ∧ (∀ h w a b up stay, r.floor.holder = some h → h.pinned = false → h.pos ≠ p →
            (∀ k, k ≠ g → (s.group k).floor.engaged p = false) → (∀ k ∈ r.floor.talkers, k.pos ≠ p) →
            (r.floor.Splits w a b up stay ∧ w.pos = p ∧ (∀ k ∈ r.floor.deferred, k.pos ≠ p)
              ∨ (∀ k ∈ r.floor.wait, k.pos ≠ p) ∧ a = r.floor.wait ∧ b = [] ∧ up = []
                ∧ stay = r.floor.deferred.filter fun k => k.pos != p) →
          exec (.pinFloor n) s = .next ((((s.takeFrame n f).setGroup g { r with floor := { r.floor with
              holder := some ⟨p, 3, true, true, .explicit⟩, holdTimer := none, wait := a ++ b ++ up, deferred := stay
              served := (if (s.pos h.pos).settings.fair = true then
                  (up.foldl (fun m k => m.put k.pos false) r.floor.served).put h.pos true
                else up.foldl (fun m k => m.put k.pos false) r.floor.served).put p false } }).emit
            { given := ⟨.gfu, portOf h.pos, .floorLost g .preempted⟩ :: ⟨.gfu, portOf p, .floorGranted g 3 true true⟩
                :: (up.map fun k => ⟨.gfu, portOf k.pos, .floorWait g k.level⟩)
                ++ (posList r.listening).map fun j => ⟨.gfu, portOf j, .floorHolder g (some p)⟩
              notices := [.group g, .position h.pos, .position p] }).answer (.port n) .accepted))))
    ∧ (s.Offers n .unpin f →
      ((∀ h, r.floor.holder = some h → h.pinned = false) →
        exec (.unpin n) s = .next ((s.takeFrame n f).answer (.port n) .notWaiting))
      ∧ (∀ h, r.floor.holder = some h → h.pinned = true → r.floor.wait = [] →
        exec (.unpin n) s = .next ((((s.takeFrame n f).setGroup g { r with floor := { r.floor with
            holder := none, holdTimer := none,
            served := if (s.pos h.pos).settings.fair = true then r.floor.served.put h.pos true
                      else r.floor.served } }).emit
          { given := ⟨.gfu, portOf h.pos, .floorLost g .unpinned⟩
              :: (posList r.listening).map fun j => ⟨.gfu, portOf j, .floorHolder g none⟩
            notices := [.group g, .position h.pos] }).answer (.port n) .accepted))
      ∧ (∀ h w a b up stay, r.floor.holder = some h → h.pinned = true → r.floor.Picks w a b up stay → w.pos ≠ h.pos →
        exec (.unpin n) s = .next ((((s.takeFrame n f).setGroup g { r with floor := { r.floor with
            holder := some ⟨w.pos, w.level, w.latched, false, w.origin⟩, wait := a ++ b ++ up, deferred := stay
            holdTimer := if r.holdLimit = 0 then none else some r.holdLimit.val
            served := up.foldl (fun m k => m.put k.pos false)
              (if (s.pos h.pos).settings.fair = true then r.floor.served.put h.pos true else r.floor.served) } }).emit
          { given := ⟨.gfu, portOf h.pos, .floorLost g .unpinned⟩
              :: ⟨.gfu, portOf w.pos, .floorGranted g w.level w.latched false⟩
              :: (up.map fun k => ⟨.gfu, portOf k.pos, .floorWait g k.level⟩)
              ++ (posList r.listening).map fun j => ⟨.gfu, portOf j, .floorHolder g (some w.pos)⟩
            notices := [.group g, .position h.pos, .position w.pos] }).answer (.port n) .accepted))))

/-- VOX (R89, R90): a desk microphone that becomes active requests the group on the lowest speaker that carries a HOOT group,
if the position is in its listening set, with latch OFF, and the request is decided as any other: on a free floor, at level 3
over a lower holder, at a LATCHED holder, behind one that keeps the floor, deferred, and as an open talker (R79, R83, R86).
One that becomes QUIET gives up an engagement of origin VOX alone: a holder's floor passes by the grant rule or to nobody, a
waiter, a deferred entry or an open talker leaves (R80, R84, R85). Otherwise the report has no effect on a floor. The order of
the records of a hand-over is the model's reading (notes/assumptions/29.md). A report about a line's receive sets the talk
flag and gives TALK_ON or TALK_OFF once to each position with a handset on the line or a speaker assigned to it (R53). -/
def Obligations.ActivityReportsAreTaken : Prop :=
  (∀ (s u : State) (p : Pos) (rest : List (Pos × Bool)) (on : Bool),
    takeFirst (fun r => r.1 == p) s.chan.vox = some ((p, on), rest) → u = s.setChan { s.chan with vox := rest } →
    (on = true → (s.gfu.up.look p = false ∨ (s.pos p).settings.vox = false
        ∨ (∃ k, (s.group k).floor.engaged p = true)
        ∨ ∀ k g, (s.pos p).assign.look k = .group g → (s.group g).kind ≠ .hoot) →
      exec (.voxActiveReport p) s = .next u)
    ∧ (∀ g k r f lv limit news, on = true → s.gfu.up.look p = true → (s.pos p).settings.vox = true →
      (∀ j, (s.group j).floor.engaged p = false) → (s.pos p).assign.look k = .group g → s.group g = r → r.kind = .hoot →
      (∀ i j, i < k → (s.pos p).assign.look i = .group j → (s.group j).kind ≠ .hoot) → r.floor = f →
      lv = (s.pos p).settings.floorLevel → limit = (if r.holdLimit = 0 then none else some r.holdLimit.val) →
      news = (fun i : Pos => (posList r.listening).map fun j => (⟨.gfu, portOf j, .floorHolder g (some i)⟩ : Given)) →
      (r.listening.look p = false → exec (.voxActiveReport p) s = .next u)
      ∧ (r.listening.look p = true → r.openMode = true →
        exec (.voxActiveReport p) s = .next ((u.setGroup g { r with floor := { f with
            talkers := f.talkers ++ [⟨p, .vox⟩] } }).emit
          { given := [⟨.gfu, portOf p, .floorGranted g lv false false⟩], notices := [.group g, .position p] }))
      ∧ (r.listening.look p = true → r.openMode = false → f.holder = none →
        exec (.voxActiveReport p) s = .next ((u.setGroup g { r with floor := { f with
            holder := some ⟨p, lv, false, false, .vox⟩, holdTimer := limit, served := f.served.put p false } }).emit
          { given := ⟨.gfu, portOf p, .floorGranted g lv false false⟩ :: news p
            notices := [.group g, .position p] }))
      ∧ (∀ h, r.listening.look p = true → r.openMode = false → f.holder = some h → lv = 3 → h.level < 3 →
          h.pinned = false →
        exec (.voxActiveReport p) s = .next ((u.setGroup g { r with floor := { f with
            holder := some ⟨p, lv, false, false, .vox⟩, holdTimer := limit
            served := (if (s.pos h.pos).settings.fair = true then f.served.put h.pos true else f.served).put p
              false } }).emit
          { given := ⟨.gfu, portOf h.pos, .floorLost g .preempted⟩ :: ⟨.gfu, portOf p, .floorGranted g lv false false⟩
              :: news p
            notices := [.group g, .position h.pos, .position p] }))
      ∧ (∀ h (late : Bool) (q : Floor), r.listening.look p = true → r.openMode = false → f.holder = some h →
        ¬(lv = 3 ∧ h.level < 3 ∧ h.pinned = false) →
        (late = true ↔ f.served.look p = true ∧ (s.pos p).settings.fair = true ∧ ∃ v ∈ f.wait, v.level = lv) →
        q = (if late then { f with deferred := f.deferred ++ [⟨p, lv, false, .vox⟩] }
          else { f with wait := f.wait ++ [⟨p, lv, false, .vox⟩], served := f.served.put p false }) →
        (h.latched = false ∨ h.pinned = true →
          exec (.voxActiveReport p) s = .next ((u.setGroup g { r with floor := q }).emit
            { given := [⟨.gfu, portOf p, if late then .floorDeferred g lv else .floorWait g lv⟩] }))
        ∧ (∀ w a b up stay, h.latched = true → h.pinned = false → q.Picks w a b up stay → w.pos ≠ h.pos →
          exec (.voxActiveReport p) s = .next ((u.setGroup g { r with floor := { q with
              holder := some ⟨w.pos, w.level, w.latched, false, w.origin⟩, holdTimer := limit, wait := a ++ b ++ up
              deferred := stay
              served := up.foldl (fun m k => m.put k.pos false)
                (if (s.pos h.pos).settings.fair = true then q.served.put h.pos true else q.served) } }).emit
            { given := (if w.pos = p then ([] : List Given)
                  else [⟨.gfu, portOf p, if late then .floorDeferred g lv else .floorWait g lv⟩])
                ++ ⟨.gfu, portOf h.pos, .floorLost g .handedOver⟩
                :: ⟨.gfu, portOf w.pos, .floorGranted g w.level w.latched false⟩
                :: (up.map fun k => ⟨.gfu, portOf k.pos, .floorWait g k.level⟩) ++ news w.pos
              notices := [.group g, .position h.pos, .position w.pos] }))))
    ∧ (on = false → (∀ g, (s.group g).floor.originOf p ≠ some .vox) → exec (.voxQuietReport p) s = .next u)
    ∧ (∀ g r f marked, on = false → s.group g = r → r.floor = f → f.originOf p = some .vox →
      (∀ k, k ≠ g → (s.group k).floor.originOf p ≠ some .vox) →
      marked = (if (s.pos p).settings.fair = true then f.served.put p true else f.served) →
      (f.holderPos = some p → f.wait = [] →
        exec (.voxQuietReport p) s = .next ((u.setGroup g { r with floor := { f with
            holder := none, holdTimer := none, served := marked } }).emit
          { given := (posList r.listening).map fun j => ⟨.gfu, portOf j, .floorHolder g none⟩
            notices := [.group g, .position p] }))
      ∧ (∀ w a b up stay, f.holderPos = some p → f.Picks w a b up stay → w.pos ≠ p →
        exec (.voxQuietReport p) s = .next ((u.setGroup g { r with floor := { f with
            holder := some ⟨w.pos, w.level, w.latched, false, w.origin⟩, wait := a ++ b ++ up, deferred := stay
            holdTimer := if r.holdLimit = 0 then none else some r.holdLimit.val
            served := up.foldl (fun m k => m.put k.pos false) marked } }).emit
          { given := ⟨.gfu, portOf w.pos, .floorGranted g w.level w.latched false⟩
              :: (up.map fun k => ⟨.gfu, portOf k.pos, .floorWait g k.level⟩)
              ++ (posList r.listening).map fun j => ⟨.gfu, portOf j, .floorHolder g (some w.pos)⟩
            notices := [.group g, .position p, .position w.pos] }))
      ∧ (∀ w a b up stay, f.holderPos ≠ some p → f.Splits w a b up stay → w.pos = p →
          (∀ k ∈ f.deferred, k.pos ≠ p) → f.talkers = [] →
        exec (.voxQuietReport p) s = .next ((u.setGroup g { r with floor := { f with
            wait := a ++ b ++ up, deferred := stay
            served := up.foldl (fun m k => m.put k.pos false) f.served } }).emit
          { given := up.map fun k => ⟨.gfu, portOf k.pos, .floorWait g k.level⟩ }))
      ∧ (f.holderPos ≠ some p → (∀ k ∈ f.wait, k.pos ≠ p) →
        exec (.voxQuietReport p) s = .next ((u.setGroup g { r with floor := { f with
            deferred := f.deferred.filter fun k => k.pos != p, talkers := f.talkers.filter fun k => k.pos != p } }).emit
          { notices := if ∃ k ∈ f.talkers, k.pos = p then [.group g, .position p] else [] }))))
  ∧ (∀ (s : State) (l : Line) (on : Bool) (rest : List (Line × Bool)) (ps : List Pos),
    takeFirst (fun r => r.1 == l) s.chan.talk = some ((l, on), rest) →
    ps = ((List.finRange 16).filter fun p =>
      (s.line l).has p || (List.finRange 6).any fun k => decide ((s.pos p).assign.look k = .line l)) →
    exec (.talkReport l) s = .next (((s.setChan { s.chan with talk := rest }).setLine l { s.line l with talk := on }).emit
      { given := lcuRecords ps (if on then .talkOn l else .talkOff l) }))

/-! ## Mixes (chapters 5 and 6) -/

/-- A change notice adds the legs that its subject reaches to the pending set, and moves nothing else (R99, R141); with no leg
in derivation, the lowest-numbered pending leg leaves the set and its list is computed from the state as it stands (R100). The
reach is spelled by leg numbers: legs 0 to 127 are the outputs of position k / 8, legs 128 to 191 the line sends, the rest the
recorders; an APPEARANCE_BAR notice reaches what a LINE notice for each of its lines and a POSITION notice for each of its
positions reach. What a line send then carries: the connected handsets of an OUTGOING or CONNECTED line at its send level,
with the line's idle sample where there is none (R111), or the other attached receives and the floor of an ATTACHED line's
group at its talk level (R112); that an ATTACHED line has its idle sample for an empty list is the model's choice
(notes/assumptions/51.md). What a recorder leg carries, by its tap's target while that is active (R113, R140): the receive and
the connected handsets of a line in the tap's directions, a handset's ear without sidetone and tone, with its own microphone,
or a HOOT group's receives and floor; the path mask decides which. That a handset on a line is taken by the line alone, though
GFU holds it too, is the model's choice (notes/assumptions/48.md). That RECEIVE of a handset whose position is DOWN, while LCU
or GFU still holds it, gives these entries, though R110 makes its ear empty, is the model's choice (notes/assumptions/45.md,
DESIGN CHOICE). Each source stands at most once (R97, with O37); that of two entries with one source, which no sound state
gives these legs, the first stays is the model's choice (notes/assumptions/42.md, DESIGN CHOICE). -/
def Obligations.NoticesAndDerivations : Prop :=
  (∀ (s : State) (q : Subject) (rest : List Subject), takeFirst (· == q) s.chan.notices = some (q, rest) →
    ∃ c, exec (.changeNotice q) s =
        .next { s with chan := { s.chan with notices := rest }, cmx := { s.cmx with awaited := c } }
      ∧ ∀ k, c.look k = (s.cmx.awaited.look k || s.reach q k))
  ∧ (∀ (s : State) (k : Leg),
    (∀ j, s.reach (.leg j) k = true ↔ k = j)
    ∧ (∀ l, s.reach (.line l) k = true ↔
        (∃ p : Pos, k.val / 8 = p.val ∧ ((s.row l).look p).mode ≠ .none) ∨ k.val = 128 + l.val ∨ 192 ≤ k.val)
    ∧ (∀ g, s.reach (.group g) k = true ↔
        (∃ p : Pos, k.val / 8 = p.val ∧ (s.group g).allow.look p = true)
          ∨ (∃ l ∈ (s.group g).attached, k.val = 128 + l.val) ∨ 192 ≤ k.val)
    ∧ (∀ r, s.reach (.tap r) k = true ↔
        k.val = 192 + r.val
          ∨ ∃ c ∈ (s.tap r).coverage, k.val = 8 * c.pos.val + (match c.hs with | .A => 0 | .B => 1))
    ∧ (∀ p, s.reach (.position p) k = true ↔
        k.val / 8 = p.val ∨ (∃ e ∈ (s.leg k).list, e.src.val / 3 = p.val)
          ∨ (∃ l, (∃ c ∈ (s.line l).connected, c.pos = p) ∧ s.reach (.line l) k = true)
          ∨ (∃ g, ((∃ m ∈ (s.group g).joined, m.1 = p) ∨ (∃ j, (s.pos p).assign.look j = .group g)
              ∨ (s.group g).floor.engaged p = true) ∧ s.reach (.group g) k = true)
          ∨ ∃ r h, k.val = 192 + r.val ∧ (s.tap r).target = .handset p h)
    ∧ (∀ ls ps, s.reach (.bars ls ps) k = true ↔
        (∃ l ∈ ls, s.reach (.line l) k = true) ∨ ∃ p ∈ ps, s.reach (.position p) k = true))
  ∧ (∀ (s : State) (k : Leg), s.cmx.inProgress = none → s.cmx.awaited.look k = true →
    (∀ j, j < k → s.cmx.awaited.look j = false) →
    exec .derivationStart s = .next { s with cmx := { s.cmx with
      awaited := s.cmx.awaited.put k false
      inProgress := some { leg := k, list := s.derivedList k, idle := s.idleOf k } } })
  ∧ (∀ (s : State) (k : Leg) (l : Line) (r : LineRec), k.val = 128 + l.val → s.line l = r →
    s.idleOf k = r.cfg.idleSample
    ∧ (r.cfg.kind = .ringdown ∨ r.cfg.kind = .automatic → s.derivedList k =
      if r.state = .outgoing ∨ r.state = .connected then
        eachSourceOnce (r.connected.flatMap fun d => s.micEntry r.cfg.sendLevel.val d.pos d.hs)
      else [])
    ∧ (r.cfg.kind = .unused ∨ r.cfg.kind = .hoot ∧ r.state ≠ .attached → s.derivedList k = [])
    ∧ (∀ g (x : GroupRec), r.cfg.kind = .hoot → r.state = .attached → r.hoot = some g → s.group g = x → s.derivedList k = eachSourceOnce
      ((((List.finRange 64).filter fun m => decide (m ∈ x.attached ∧ m ≠ l)).flatMap
        fun m => entryOf (receiveSource m) x.talkLevel.val false)
      ++ if x.openMode then x.floor.talkers.flatMap fun i => entryOf (deskSource i.pos) x.talkLevel.val true
        else match x.floor.holder with
          | none => []
          | some i => entryOf (deskSource i.pos) x.talkLevel.val false)))
  ∧ (∀ (s : State) (k : Leg), (k.val < 128 ∨ 192 ≤ k.val) → s.idleOf k = 0)
  ∧ (∀ (s : State) (k : Leg) (n : TapNo) (t : TapRec) (takes : Line → Prop), k.val = 192 + n.val → s.tap n = t →
    takes = (fun l => ((s.line l).direction = some .incoming ∧ t.incoming = true)
      ∨ ((s.line l).direction = some .outgoing ∧ t.outgoing = true)) →
    (t.enabled = false ∨ t.target = .none → s.derivedList k = [])
    ∧ (t.enabled = true →
      (∀ l r active, t.target = .line l → s.line l = r →
        active = ((r.cfg.kind = .ringdown ∨ r.cfg.kind = .automatic) ∧ (r.state = .outgoing ∨ r.state = .connected)
          ∧ takes l) →
        (¬active → s.derivedList k = [])
        ∧ (active → s.derivedList k = eachSourceOnce ((if t.receive then entryOf (receiveSource l) 128 false else [])
          ++ if t.send then r.connected.flatMap fun d => s.micEntry 128 d.pos d.hs else [])))
      ∧ (∀ g (x : GroupRec), t.target = .group g → s.group g = x →
        (x.kind ≠ .hoot → s.derivedList k = [])
        ∧ (x.kind = .hoot → s.derivedList k = eachSourceOnce
          ((if t.receive then ((List.finRange 64).filter fun l => decide (l ∈ x.attached)).flatMap
            (fun l => entryOf (receiveSource l) 128 false) else [])
          ++ if t.send = false then []
            else if x.openMode then x.floor.talkers.flatMap fun i => entryOf (deskSource i.pos) 128 true
            else match x.floor.holder with
              | none => []
              | some i => entryOf (deskSource i.pos) 128 false)))
      ∧ (∀ p h own, t.target = .handset p h → own = (if t.send then s.micEntry 128 p h else []) →
        (∀ l r, s.line l = r → (r.entry p h).isSome = true → (∀ m, m < l → (s.line m).entry p h = none) →
          (¬takes l → s.derivedList k = [])
          ∧ (takes l → s.derivedList k = eachSourceOnce
            ((if t.receive then entryOf (receiveSource l) r.cfg.receiveLevel.val false else []) ++ own
            ++ if t.receive then (r.connected.filter fun d => decide (¬(d.pos = p ∧ d.hs = h))).flatMap
                (fun d => s.micEntry r.cfg.bridgeLevel.val d.pos d.hs) else [])))
        ∧ ((∀ l, (s.line l).entry p h = none) →
          (∀ g, (p, h) ∈ (s.group g).joined → (∀ i, i < g → (p, h) ∉ (s.group i).joined) →
            s.derivedList k = eachSourceOnce (own
              ++ if t.receive then ((s.group g).joined.filter fun m => m != (p, h)).flatMap
                (fun m => s.micEntry (s.group g).talkLevel.val m.1 m.2) else []))
          ∧ ((∀ g, (p, h) ∉ (s.group g).joined) →
            (∀ c q i voice, s.call c = .active p h q i voice ∨ s.call c = .active q i p h voice ∧ (q, i) ≠ (p, h) →
              (∀ d, d < c → (s.call d).holds p h = false) →
              s.derivedList k = eachSourceOnce ((if t.receive then s.micEntry 128 q i else []) ++ own))
            ∧ (∀ c q voice x, s.call c = .alerting p h q voice x → (∀ d, d < c → (s.call d).holds p h = false) →
              s.derivedList k = own)
            ∧ ((∀ c, (s.call c).holds p h = false) → s.derivedList k = []))))))

/-- An installation (R101, R116 to R118): the old entries return to the pool, the new list keeps the least of its length, 16
and the number it can take, from its start; the Truncated Set and MIX_SHORT follow; and the Truncated Set is derived again
exactly where the free count has risen. That the Truncated Set is read after its update is the model's reading of R118
(notes/assumptions/27.md). On the leg of a LINE tap the reply to a dealer's take comes before the installation from which the
dealer is heard (R141): while PTB has still to take the acceptance of a line for a handset whose microphone the new list
holds, nothing is installed, which is the model's reading (notes/assumptions/39.md). -/
def Obligations.InstallationsAccountForThePool : Prop :=
  (∀ (s : State) (d : Derivation) (r : TapNo) (l i : Line) (p : Pos) (h : Handset) (v : Via),
    s.cmx.inProgress = some d → d.leg.val = 192 + r.val → (s.tap r).target = .line l →
    .outcome p h v (.inl (.line i)) ∈ s.chan.fromLcu → (∃ e ∈ d.list, e.src = micSource p h) →
    exec .listInstall s = .next s)
  ∧ ∀ (s : State) (d : Derivation) (can kept : Nat), s.cmx.inProgress = some d →
    (∀ (r : TapNo) (l i : Line) (p : Pos) (h : Handset) (v : Via), d.leg.val = 192 + r.val → (s.tap r).target = .line l →
      .outcome p h v (.inl (.line i)) ∈ s.chan.fromLcu → ∀ e ∈ d.list, e.src ≠ micSource p h) →
    can = s.cmx.free + (s.leg d.leg).list.length → kept = min d.list.length (min 16 can) →
    ∃ t, exec .listInstall s = .next t
      ∧ t.leg d.leg = { s.leg d.leg with list := d.list.take kept, idle := d.idle }
      ∧ (∀ k, k ≠ d.leg → t.leg k = s.leg k)
      ∧ t.cmx.free + kept = can ∧ t.cmx.inProgress = none
      ∧ (∀ k, t.cmx.truncated.look k = true ↔
          if k = d.leg then kept < d.list.length else s.cmx.truncated.look k = true)
      ∧ (∀ k, t.cmx.awaited.look k = true ↔
          s.cmx.awaited.look k = true ∨ s.cmx.free < t.cmx.free ∧ t.cmx.truncated.look k = true)
      ∧ t.chan = { s.chan with given := s.chan.given ++
          if kept < d.list.length ∧ s.cmx.truncated.look d.leg = false then
            [⟨.cmx, mgmt, .mixShort d.leg d.list.length kept (decide (can < 16 ∧ can < d.list.length))⟩]
          else [] }
      ∧ t = { s with
          chan := t.chan
          cmx := { s.cmx with
            legs := t.cmx.legs, free := t.cmx.free, awaited := t.cmx.awaited, truncated := t.cmx.truncated
            inProgress := none } }

/-- What the output legs of an UP position carry, and what no list holds. An ear by what its handset stands in: the recording
warning, the far end, the other handsets of the line in list order and the sidetone (R105); the other members of an intercom
group; the other party of a call; the caller's own sidetone; nothing (R106). A line is read before a group or a call, should
two owners hold the handset: the model's choice (notes/assumptions/48.md). A speaker by its assignment, each level composed
with its volume and its duck, the lowest of the reasons that apply or 128 (R104): the far end and the other positions'
handsets of a line (R107), or the attached receives with the holder's or the open talkers' desk microphones of a HOOT group
(R108); the alert speaker besides has the ALERT tone and a caller's announcement, unducked (R109), and a speaker with no
assignment that alone (R110). Whatever the state, no list holds a source twice (R97), an entry of level 0, the microphone of a
muted handset, a line's own receive in its send (R103), any entry on an output leg of a DOWN position (R110), or a gated entry
that is not the desk microphone of an open talker (R114); and tones stand before line receives in line order, and those before
microphones (R115). Where two rules give one list the same source, as R107 and R109 may while LCU still holds a handset that
PTB has freed, no rule says which entry stays: the first in the order of R115 stays, the model's choice
(notes/assumptions/42.md, DESIGN CHOICE). -/
def Obligations.DerivedListsKeepTheirExclusions : Prop :=
  (∀ (s : State) (k : Leg),
    ((s.derivedList k).map fun e => e.src).Nodup ∧ (∀ e ∈ s.derivedList k, e.level ≠ 0)
    ∧ (∀ p h, (s.pos p).mute.of h = true → ∀ e ∈ s.derivedList k, e.src ≠ micSource p h)
    ∧ (∀ l : Line, k.val = 128 + l.val → ∀ e ∈ s.derivedList k, e.src ≠ receiveSource l)
    ∧ (∀ p : Pos, k.val / 8 = p.val → (s.pos p).up = false → s.derivedList k = [])
    ∧ (∀ e ∈ s.derivedList k, e.gated = true →
        ∃ g p, e.src = deskSource p ∧ (s.group g).openMode = true ∧ ∃ t ∈ (s.group g).floor.talkers, t.pos = p)
    ∧ (s.derivedList k).Pairwise fun a b =>
        (a.src.val < 112 → b.src.val < 112) ∧ (a.src.val < 48 → b.src.val < 48)
          ∧ (48 ≤ a.src.val → a.src.val < 112 → 48 ≤ b.src.val → a.src < b.src))
  ∧ (∀ (e : MixEntry) (es : List MixEntry),
    eachSourceOnce (e :: es) = e :: (eachSourceOnce es).filter (fun x => x.src != e.src)
    ∧ ((es.map fun x => x.src).Nodup → eachSourceOnce es = es))
  ∧ (∀ (s : State) (p : Pos) (h : Handset) (l : Line) (src : Src) (level : Nat) (gated : Bool),
    entryOf src 0 gated = [] ∧ (∀ q : Level, q.val = level → level ≠ 0 → entryOf src level gated = [⟨src, q, gated⟩])
    ∧ s.micEntry level p h = (if (s.pos p).mute.of h then [] else entryOf (micSource p h) level false)
    ∧ (micSource p h).val = 3 * p.val + (match h with | .A => 0 | .B => 1) ∧ (deskSource p).val = 3 * p.val + 2
    ∧ (receiveSource l).val = 48 + l.val)
  ∧ (∀ (s : State) (k : Leg) (p : Pos) (h : Handset) (own : List MixEntry),
    k.val = 8 * p.val + (match h with | .A => 0 | .B => 1) → (s.pos p).up = true →
    own = s.micEntry (s.pos p).settings.sidetone.val p h →
    (∀ l r, s.line l = r → (r.entry p h).isSome = true → (∀ m, m < l → (s.line m).entry p h = none) →
      s.derivedList k = eachSourceOnce
        ((if (s.rtu.faults.look p).of h then entryOf 113 (s.pos p).settings.attentionLevel.val false else [])
          ++ entryOf (receiveSource l) r.cfg.receiveLevel.val false
          ++ ((r.connected.filter fun d => decide (¬(d.pos = p ∧ d.hs = h))).flatMap fun d =>
              s.micEntry r.cfg.bridgeLevel.val d.pos d.hs) ++ own))
    ∧ ((∀ l, (s.line l).entry p h = none) →
      (∀ g, (p, h) ∈ (s.group g).joined → (∀ i, i < g → (p, h) ∉ (s.group i).joined) →
        s.derivedList k = eachSourceOnce (((s.group g).joined.filter fun m => m != (p, h)).flatMap
          (fun m => s.micEntry (s.group g).talkLevel.val m.1 m.2) ++ own))
      ∧ ((∀ g, (p, h) ∉ (s.group g).joined) →
        (∀ c q i voice, s.call c = .active p h q i voice ∨ s.call c = .active q i p h voice ∧ (q, i) ≠ (p, h) →
          (∀ d, d < c → (s.call d).holds p h = false) → s.derivedList k = eachSourceOnce (s.micEntry 128 q i ++ own))
        ∧ (∀ c q voice x, s.call c = .alerting p h q voice x → (∀ d, d < c → (s.call d).holds p h = false) →
          s.derivedList k = own)
        ∧ ((∀ c, (s.call c).holds p h = false) → s.derivedList k = []))))
  ∧ (∀ (s : State) (k : Leg) (p : Pos) (j : Spk) (t : Target) (v duck : Nat) (busy talks : Bool)
      (tone receives principal others : List MixEntry),
    k.val = 8 * p.val + 2 + j.val → (s.pos p).up = true → (s.pos p).assign.look j = t →
    ((s.pos p).volume.look j).val = v → tone = entryOf 112 (compose (s.pos p).settings.alertLevel.val v) false →
    (busy = true ↔ ∃ h, (∃ l, ((s.line l).entry p h).isSome = true) ∨ (∃ g, (p, h) ∈ (s.group g).joined)
      ∨ ∃ c, (s.call c).holds p h = true) →
    (talks = true ↔ ∃ g, t = .group g ∧ (s.group g).kind = .hoot ∧
      ((s.group g).floor.holderPos = some p ∨ ∃ i ∈ (s.group g).floor.talkers, i.pos = p)) →
    duck = (if busy && talks then min (s.pos p).settings.handsetDuck.val (s.pos p).settings.talkingDuck.val
      else if busy then (s.pos p).settings.handsetDuck.val
      else if talks then (s.pos p).settings.talkingDuck.val else 128) →
    (t = .none ∧ receives = [] ∧ principal = [] ∧ others = []
      ∨ (∃ l r, t = .line l ∧ s.line l = r
        ∧ receives = entryOf (receiveSource l) (compose (compose r.cfg.receiveLevel.val v) duck) false ∧ principal = []
        ∧ others = (r.connected.filter fun d => d.pos != p).flatMap fun d =>
            s.micEntry (compose (compose r.cfg.bridgeLevel.val v) duck) d.pos d.hs)
      ∨ (∃ g r m, t = .group g ∧ s.group g = r ∧ r.kind = .hoot ∧ m = compose (compose r.talkLevel.val v) duck
        ∧ receives = ((List.finRange 64).filter fun l => decide (l ∈ r.attached)).flatMap
            (fun l => entryOf (receiveSource l) m false)
        ∧ (r.openMode = false ∧ others = [] ∧ principal = (match r.floor.holder with
            | none => []
            | some i => if i.pos = p then [] else entryOf (deskSource i.pos) m false)
          ∨ r.openMode = true ∧ principal = [] ∧ others = (r.floor.talkers.filter fun i => i.pos != p).flatMap fun i =>
              entryOf (deskSource i.pos) m true))) →
    (j ≠ (s.pos p).settings.alertSpeaker → s.derivedList k = eachSourceOnce (receives ++ principal ++ others))
    ∧ (j = (s.pos p).settings.alertSpeaker →
      (∀ c q i voice x, s.call c = .alerting q i p voice x → (∀ d, d < c → (s.call d).alerts p = false) →
        s.derivedList k = eachSourceOnce (tone ++ receives ++ principal
          ++ (if voice then s.micEntry (compose 128 v) q i else []) ++ others))
      ∧ ((∀ c, (s.call c).alerts p = false) →
        ((∃ l, (s.line l).state = .incoming ∧ ((s.line l).cfg.kind = .ringdown ∨ (s.line l).cfg.kind = .automatic)
            ∧ (s.row l).look p = ⟨.full, false⟩) →
          s.derivedList k = eachSourceOnce (tone ++ receives ++ principal ++ others))
        ∧ ((∀ l, ¬((s.line l).state = .incoming ∧ ((s.line l).cfg.kind = .ringdown ∨ (s.line l).cfg.kind = .automatic)
            ∧ (s.row l).look p = ⟨.full, false⟩)) →
          s.derivedList k = eachSourceOnce (receives ++ principal ++ others)))))

/-- Levels compose by the product plus 64, divided by 128, rounded down and limited to 255; three compose left to right; with the
rows of the manual's table, and the defaults of the levels that derivation reads (R102). -/
def Obligations.LevelsCompose : Prop :=
  (∀ a b q : Nat, q * 128 ≤ a * b + 64 → a * b + 64 < (q + 1) * 128 → compose a b = if 255 < q then 255 else q)
  ∧ (∀ a b c, compose3 a b c = compose (compose a b) c)
  ∧ (compose 128 96 = 96 ∧ compose 96 48 = 36 ∧ compose 96 96 = 72 ∧ compose 255 255 = 255 ∧ compose 64 1 = 1
    ∧ compose 63 1 = 0)
  ∧ (∀ l, (State.reset.line l).cfg.receiveLevel = 128 ∧ (State.reset.line l).cfg.bridgeLevel = 128
    ∧ (State.reset.line l).cfg.sendLevel = 128)
  ∧ (∀ g, (State.reset.group g).talkLevel = 128)
  ∧ (∀ p, (∀ k, (State.reset.pos p).volume.look k = 96) ∧ (State.reset.pos p).settings.sidetone = 16
    ∧ (State.reset.pos p).settings.alertLevel = 64 ∧ (State.reset.pos p).settings.attentionLevel = 32
    ∧ (State.reset.pos p).settings.handsetDuck = 48 ∧ (State.reset.pos p).settings.talkingDuck = 0)

/-- The ALERT generator (R125): power-on reset puts it at the start of its cycle, every audio frame moves it on by one frame of its
cycle of 4,800, no other command touches it, soft reset included, and at each frame of the cycle source 112 has the sample of the
square wave or 0. -/
def Obligations.AlertToneRunsFree : Prop :=
  (∀ s far present, ∃ t, exec (.powerOnReset far present) s = .next t ∧ t.cmx.alertCount = 0)
  ∧ (∀ s mics receives, ∃ t, exec (.audioFrame mics receives) s = .next t
    ∧ t.cmx.alertCount = (s.cmx.alertCount + 1) % 4800)
  ∧ (∀ c s, (∀ far present, c ≠ .powerOnReset far present) → (∀ mics receives, c ≠ .audioFrame mics receives) →
    ∃ t, exec c s = .next t ∧ t.cmx.alertCount = s.cmx.alertCount)
  ∧ (∀ (s : State) mics receives (n run place : Nat), n = s.cmx.alertCount →
    (n = 32 * run + place → n < 3200 → place < 16 → s.sampleOf mics receives 112 = 8192)
    ∧ (n = 32 * run + 16 + place → n < 3200 → place < 16 → s.sampleOf mics receives 112 = -8192)
    ∧ (3200 ≤ n → s.sampleOf mics receives 112 = 0))

/-- The ATTENTION generator (R126): power-on reset puts it at the start of its cycle, every audio frame moves it on by one frame of its
cycle of 120,000, no other command touches it, soft reset included, and at each frame of the cycle source 113 has the sample of the
square wave or 0. No entry of a tone that derivation makes is gated. -/
def Obligations.AttentionToneRunsFree : Prop :=
  (∀ s far present, ∃ t, exec (.powerOnReset far present) s = .next t ∧ t.cmx.attentionCount = 0)
  ∧ (∀ s mics receives, ∃ t, exec (.audioFrame mics receives) s = .next t
    ∧ t.cmx.attentionCount = (s.cmx.attentionCount + 1) % 120000)
  ∧ (∀ c s, (∀ far present, c ≠ .powerOnReset far present) → (∀ mics receives, c ≠ .audioFrame mics receives) →
    ∃ t, exec c s = .next t ∧ t.cmx.attentionCount = s.cmx.attentionCount)
  ∧ (∀ (s : State) mics receives (n run place : Nat), n = s.cmx.attentionCount →
    (n = 16 * run + place → n < 1600 → place < 8 → s.sampleOf mics receives 113 = 4096)
    ∧ (n = 16 * run + 8 + place → n < 1600 → place < 8 → s.sampleOf mics receives 113 = -4096)
    ∧ (1600 ≤ n → s.sampleOf mics receives 113 = 0))
  ∧ (∀ (s : State) (k : Leg), ∀ e ∈ s.derivedList k, 112 ≤ e.src.val → e.gated = false)

/-- One audio frame on every leg (R119 to R122): an empty list sends its idle value as it stands, that of an ATTACHED HOOT
line too, which is the model's choice (notes/assumptions/51.md); any other list sends the sum of its terms, each rounded, a
gated one only while its detector is active after the frame's sample, scaled by the leg level and limited, with the clip
counter moved where it was limited. The greatest sum is 1,044,496. -/
def Obligations.LegsOfOneFrame : Prop :=
  (∀ (s : State) (mics : Vector Sample 48) (receives : Vector Sample 64), ∃ t,
    exec (.audioFrame mics receives) s = .next t ∧ t = { s with cmx := t.cmx, chan := t.chan }
    ∧ t.cmx = { s.cmx with
        detectors := t.cmx.detectors, legs := t.cmx.legs, alertCount := t.cmx.alertCount
        attentionCount := t.cmx.attentionCount }
    ∧ (∀ i : Fin 48, s.sampleOf mics receives ⟨i.val, by omega⟩ = (mics.get i).toInt)
    ∧ (∀ l : Line, s.sampleOf mics receives ⟨48 + l.val, by omega⟩ = (receives.get l).toInt)
    ∧ ∀ k, ((s.leg k).list = [] → t.leg k = { s.leg k with out := (s.leg k).idle })
      ∧ ∀ terms y, (s.leg k).list ≠ [] →
        terms = (s.leg k).list.map (fun e =>
          if e.gated = true ∧ ∃ i : Fin 112, i.val = e.src.val ∧ (t.cmx.detectors.look i).state = .quiet then 0
          else (s.sampleOf mics receives e.src * e.level.val + 64) / 128) →
        y = (terms.sum * (s.leg k).level.val + 64) / 128 →
        (-32768 ≤ y → y ≤ 32767 → t.leg k = { s.leg k with out := BitVec.ofInt 16 y })
        ∧ (32767 < y → t.leg k = { s.leg k with out := 0x7FFF#16, clip := min 65535 ((s.leg k).clip + 1) })
        ∧ (y < -32768 → t.leg k = { s.leg k with out := 0x8000#16, clip := min 65535 ((s.leg k).clip + 1) }))
  ∧ (∀ (l : List MixEntry) (sample : Src → Int) (active : Src → Bool), l.length ≤ 16 →
    (∀ x, -32768 ≤ sample x ∧ sample x ≤ 32767) → (mixSum l sample active).natAbs ≤ 1044496)

/-- One audio frame on every detector (R127, R128, R130): the envelope moves toward the magnitude, never past it; the state and the
hang counter follow the thresholds of the detector's set; and each change between QUIET and active of a line receive or a desk
microphone gives one report, and no other report is given. -/
def Obligations.DetectorsFollowTheirSources : Prop :=
  ∀ (s : State) (mics : Vector Sample 48) (receives : Vector Sample 64), ∃ t,
    exec (.audioFrame mics receives) s = .next t
    ∧ (∀ (i : Fin 112) (d e : Detector) (a : Nat) (c : DetectorSet), d = s.cmx.detectors.look i →
      e = t.cmx.detectors.look i → a = min 32767 (s.sampleOf mics receives ⟨i.val, by omega⟩).natAbs →
      c = (if i.val < 48 then s.cmx.micSet else s.cmx.lineSet) →
      (∀ up, d.envelope < a → 8 * up < a - d.envelope + 8 → a - d.envelope ≤ 8 * up →
        e.envelope = d.envelope + up ∧ e.envelope ≤ a)
      ∧ (∀ fall, a < d.envelope → 256 * fall ≤ d.envelope - a → d.envelope - a < 256 * (fall + 1) →
        e.envelope = d.envelope - max 1 fall ∧ a ≤ e.envelope)
      ∧ (a = d.envelope → e.envelope = d.envelope)
      ∧ (d.state = .quiet → c.on ≤ e.envelope → e.state = .active ∧ e.hang = d.hang)
      ∧ (d.state = .quiet → e.envelope < c.on → e.state = .quiet ∧ e.hang = d.hang)
      ∧ (d.state = .active → e.envelope < c.off → e.state = .hanging ∧ e.hang = c.hang.val * 64)
      ∧ (d.state = .active → c.off ≤ e.envelope → e.state = .active ∧ e.hang = d.hang)
      ∧ (d.state = .hanging → c.on ≤ e.envelope → e.state = .active ∧ e.hang = d.hang)
      ∧ (d.state = .hanging → e.envelope < c.on → d.hang ≤ 1 → e.state = .quiet ∧ e.hang = 0)
      ∧ (d.state = .hanging → e.envelope < c.on → 1 < d.hang → e.state = .hanging ∧ e.hang = d.hang - 1))
    ∧ (∃ lines mouths, t.chan = { s.chan with talk := s.chan.talk ++ lines, vox := s.chan.vox ++ mouths }
      ∧ (lines.map Prod.fst).Pairwise (· < ·) ∧ (mouths.map Prod.fst).Pairwise (· < ·)
      ∧ (∀ (l : Line) (on : Bool), (l, on) ∈ lines ↔
          ((s.cmx.detectors.look ⟨48 + l.val, by omega⟩).state != .quiet) = !on
            ∧ ((t.cmx.detectors.look ⟨48 + l.val, by omega⟩).state != .quiet) = on)
      ∧ (∀ (p : Pos) (on : Bool), (p, on) ∈ mouths ↔
          ((s.cmx.detectors.look ⟨3 * p.val + 2, by omega⟩).state != .quiet) = !on
            ∧ ((t.cmx.detectors.look ⟨3 * p.val + 2, by omega⟩).state != .quiet) = on))

/-- The mixer's requests: LEG_LEVEL replaces one level and sends no notice (R123); QUERY_LEG returns a leg and clears its clip
counter, or the pool and the sets (R124); DETECTOR_CONFIG replaces a set, with T_off taken no higher than T_on (R129); QUERY_SOURCE
returns a detector (R131). Operands out of range are BAD_VALUE. -/
def Obligations.MixerRequests : Prop :=
  ∀ (s : State) (n : Port) (f : Frame),
    (s.Offers n .legLevel f →
      (∀ k, numOf 208 (byteAt f.body 0) = some k →
        exec (.legLevel n) s = .next (((s.takeFrame n f).setLeg k
          { s.leg k with level := (byteAt f.body 1).toFin }).answer (.port n) .accepted))
      ∧ (numOf 208 (byteAt f.body 0) = none →
        exec (.legLevel n) s = .next ((s.takeFrame n f).answer (.port n) .badValue)))
    ∧ (s.Offers n .queryLeg f →
      (∀ k r, byteAt f.body 0 = 0 → numOf 208 (byteAt f.body 1) = some k → s.leg k = r →
        exec (.queryLeg n) s = .next (((s.takeFrame n f).setLeg k { r with clip := 0 }).answer (.port n) .accepted
          ([byteOf k.val, byteOf r.level.val] ++ twoBytes r.idle ++ twoBytes (BitVec.ofNat 16 r.clip)
            ++ [onByte (s.cmx.truncated.look k),
                onByte (s.cmx.awaited.look k || s.cmx.inProgress.any fun d => d.leg == k), byteOf r.list.length]
            ++ r.list.flatMap fun e => [byteOf e.src.val, byteOf e.level.val, onByte e.gated])))
      ∧ (byteAt f.body 0 = 1 →
        exec (.queryLeg n) s = .next ((s.takeFrame n f).answer (.port n) .accepted
          (twoBytes (BitVec.ofNat 16 s.cmx.free) ++ [byteOf (s.cmx.awaited.toList.filter id).length]
            ++ legMap s.cmx.truncated)))
      ∧ (2 ≤ (byteAt f.body 0).toNat ∨ byteAt f.body 0 = 0 ∧ numOf 208 (byteAt f.body 1) = none →
        exec (.queryLeg n) s = .next ((s.takeFrame n f).answer (.port n) .badValue)))
    ∧ (s.Offers n .detectorConfig f → ∀ on off c, on = (byteAt f.body 1 ++ byteAt f.body 2).toNat →
      off = (byteAt f.body 3 ++ byteAt f.body 4).toNat →
      c = { on := on, off := if on < off then on else off, hang := (byteAt f.body 5).toFin } →
      (on ≤ 32767 → off ≤ 32767 → byteAt f.body 0 = 0 →
        exec (.detectorConfig n) s = .next
          ({ s.takeFrame n f with cmx := { s.cmx with micSet := c } }.answer (.port n) .accepted))
      ∧ (on ≤ 32767 → off ≤ 32767 → byteAt f.body 0 = 1 →
        exec (.detectorConfig n) s = .next
          ({ s.takeFrame n f with cmx := { s.cmx with lineSet := c } }.answer (.port n) .accepted))
      ∧ (32767 < on ∨ 32767 < off ∨ 2 ≤ (byteAt f.body 0).toNat →
        exec (.detectorConfig n) s = .next ((s.takeFrame n f).answer (.port n) .badValue)))
    ∧ (s.Offers n .querySource f →
      (∀ i d, numOf 112 (byteAt f.body 0) = some i → s.cmx.detectors.look i = d →
        exec (.querySource n) s = .next ((s.takeFrame n f).answer (.port n) .accepted
          ([byteOf i.val, if i.val < 48 then (0 : Byte) else 1] ++ twoBytes (BitVec.ofNat 16 d.envelope)
            ++ [match d.state with | .quiet => (0 : Byte) | .active => 1 | .hanging => 2]
            ++ twoBytes (BitVec.ofNat 16 d.hang))))
      ∧ (numOf 112 (byteAt f.body 0) = none →
        exec (.querySource n) s = .next ((s.takeFrame n f).answer (.port n) .badValue)))

/-! ## Recording taps (chapter 7) -/

/-- Coverage (R138, R139) and recorder presence (R142): a reservation goes to the first tap that covers the handset and has
room, and to none where there is none; a handset that already stands in a coverage list gets no second entry (R133), its own
entry being GRANTED as it stands and any other NOT_RECORDED: the model's choice (notes/assumptions/35.md). A release takes the
entry away. A handset enters recording fault on a tap whose recorder is absent and leaves it with the entry or with the
recorder's return, each with its record and one TAP notice, and without a record for a release of the reset (R134). -/
def Obligations.CoverageAndRecorderPresence : Prop :=
  ∀ (s : State),
    (∀ p h l d rest u (fits : TapNo → Prop), s.chan.toRtu = .reserve p h l d :: rest →
      u = s.setChan { s.chan with toRtu := rest } →
      fits = (fun r => (s.tap r).enabled = true ∧ (s.tap r).receive = true ∧ (s.tap r).send = true
        ∧ (match d with | .incoming => (s.tap r).incoming | .outgoing => (s.tap r).outgoing) = true
        ∧ ((s.tap r).target = .handset p h ∨ (s.tap r).target = .line l) ∧ (s.tap r).coverage.length < 4) →
      ((∃ q, ∃ c ∈ (s.tap q).coverage, c.pos = p ∧ c.hs = h) → exec .coverageReservation s = .next
        (u.setChan { u.chan with
          fromRtu := s.chan.fromRtu ++ [⟨p, h, decide (∃ q, ⟨p, h, l⟩ ∈ (s.tap q).coverage)⟩] }))
      ∧ ((∀ q, ∀ c ∈ (s.tap q).coverage, ¬(c.pos = p ∧ c.hs = h)) → (∀ r, ¬fits r) → exec .coverageReservation s = .next
        (u.setChan { u.chan with fromRtu := s.chan.fromRtu ++ [⟨p, h, false⟩] }))
      ∧ (∀ r t, (∀ q, ∀ c ∈ (s.tap q).coverage, ¬(c.pos = p ∧ c.hs = h)) → fits r → (∀ q, q < r → ¬fits q) →
        t = (u.setTap r { s.tap r with coverage := (s.tap r).coverage ++ [⟨p, h, l⟩] }).setChan
          { u.chan with fromRtu := s.chan.fromRtu ++ [⟨p, h, true⟩] } →
        ((s.tap r).present = true ∨ s.fault p h = true → exec .coverageReservation s = .next t)
        ∧ ((s.tap r).present = false → s.fault p h = false → exec .coverageReservation s = .next
          ((t.setFault p h true).emit
            { given := [⟨.rtu, portOf p, .recordingFault l h r true⟩], notices := [.tap r] }))))
    ∧ (∀ p h l ofReset rest u, s.chan.toRtu = .release p h l ofReset :: rest →
      u = s.setChan { s.chan with toRtu := rest } →
      ((∀ r, ⟨p, h, l⟩ ∉ (s.tap r).coverage) → exec .coverageRelease s = .next u)
      ∧ (∀ r t, ⟨p, h, l⟩ ∈ (s.tap r).coverage → (∀ q, q < r → ⟨p, h, l⟩ ∉ (s.tap q).coverage) →
        t = u.setTap r { s.tap r with coverage := (s.tap r).coverage.filter fun c => c != ⟨p, h, l⟩ } →
        (s.fault p h = false → exec .coverageRelease s = .next t)
        ∧ (s.fault p h = true → exec .coverageRelease s = .next ((t.setFault p h false).emit
          { given := if ofReset = true then [] else [⟨.rtu, portOf p, .recordingFault l h r false⟩]
            notices := [.tap r] }))))
    ∧ (∀ r on, ((s.tap r).present = on → exec (.recorderPresentChange r on) s = .next s)
      ∧ ((s.tap r).present ≠ on → (s.tap r).enabled = false →
        exec (.recorderPresentChange r on) s = .next (s.setTap r { s.tap r with present := on }))
      ∧ ((s.tap r).present ≠ on → (s.tap r).enabled = true →
        (∀ c ∈ (s.tap r).coverage, s.fault c.pos c.hs = on) →
        ∃ t, exec (.recorderPresentChange r on) s = .next t
          ∧ (∀ p h, t.fault p h = if ∃ c ∈ (s.tap r).coverage, c.pos = p ∧ c.hs = h then !on else s.fault p h)
          ∧ t = ({ s with rtu := { (s.setTap r { s.tap r with present := on }).rtu with
              faults := t.rtu.faults } }).emit
            { given := ⟨.rtu, mgmt, if on then .recorderRestored r else .recorderLost r⟩
                :: (s.tap r).coverage.map fun (c : Cover) => (⟨.rtu, portOf c.pos, .recordingFault c.line c.hs r (!on)⟩ : Given)
              notices := if (s.tap r).coverage = [] then [] else [.tap r] }))

/-- The requests about taps: TAP_SET, TAP_DISABLE and TAP_ENABLE with their checks in order (R135, R136), the table of locks
(R137), and QUERY_TAP (R143); a tap above 15 is BAD_VALUE in each. QUERY_TAP's active field is that of the target whether the
tap is ENABLED or not: the model's reading (notes/assumptions/28.md). -/
def Obligations.TapsAreProgrammedAndLocked : Prop :=
  (∀ (s u : State) (n : Port) (f : Frame) (r : TapNo) (x : TapRec), numOf 16 (byteAt f.body 0) = some r → s.tap r = x →
    u = s.takeFrame n f →
    (s.Offers n .tapSet f →
      (tapTargetOf (byteAt f.body 1) (byteAt f.body 2) (byteAt f.body 3) = none →
        exec (.tapSet n) s = .next (u.answer (.port n) .badValue))
      ∧ ∀ y, tapTargetOf (byteAt f.body 1) (byteAt f.body 2) (byteAt f.body 3) = some y →
        (x.lock ≠ .opened → exec (.tapSet n) s = .next (u.answer (.port n) .tapLocked))
        ∧ (x.lock = .opened → x.enabled = true → exec (.tapSet n) s = .next (u.answer (.port n) .tapBusy))
        ∧ (∀ g, x.lock = .opened → x.enabled = false → y = .group g → (s.group g).kind ≠ .hoot →
          exec (.tapSet n) s = .next (u.answer (.port n) .badTap))
        ∧ (x.lock = .opened → x.enabled = false → (∀ g, y = .group g → (s.group g).kind = .hoot) →
          exec (.tapSet n) s = .next (((u.setTap r { x with
            target := y, receive := (byteAt f.body 4).getLsbD 0, send := (byteAt f.body 4).getLsbD 1,
            incoming := (byteAt f.body 5).getLsbD 0, outgoing := (byteAt f.body 5).getLsbD 1 }).emit
              { notices := [.tap r] }).answer (.port n) .accepted)))
    ∧ (s.Offers n .tapDisable f →
      exec (.tapDisable n) s = .next (
        if x.lock ≠ .opened then u.answer (.port n) .tapLocked
        else if x.coverage ≠ [] then u.answer (.port n) .tapInUse
        else if x.enabled = false then u.answer (.port n) .accepted
        else ((u.setTap r { x with enabled := false }).emit { notices := [.tap r] }).answer (.port n) .accepted))
    ∧ (s.Offers n .tapEnable f →
      exec (.tapEnable n) s = .next (
        if x.enabled = true then u.answer (.port n) .accepted
        else if x.target = .none ∨ (x.receive = false ∧ x.send = false) ∨ (x.incoming = false ∧ x.outgoing = false) then
          u.answer (.port n) .badTap
        else ((u.setTap r { x with enabled := true }).emit
          { notices := [.tap r], given := if x.present = true then [] else [⟨.rtu, mgmt, .recorderLost r⟩] }).answer
            (.port n) .accepted))
    ∧ (s.Offers n .tapLock f → exec (.tapLock n) s = .next (match x.lock with
      | .opened => (u.setTap r { x with lock := .locked }).answer (.port n) .accepted
      | .locked => u.answer (.port n) .accepted
      | .fixed => u.answer (.port n) .tapLocked))
    ∧ (s.Offers n .tapUnlock f → exec (.tapUnlock n) s = .next (match x.lock with
      | .opened => u.answer (.port n) .accepted
      | .locked => (u.setTap r { x with lock := .opened }).answer (.port n) .accepted
      | .fixed => u.answer (.port n) .tapLocked))
    ∧ (s.Offers n .tapFix f → exec (.tapFix n) s = .next (
      if x.lock = .locked ∧ x.enabled = true then (u.setTap r { x with lock := .fixed }).answer (.port n) .accepted
      else u.answer (.port n) .badTap))
    ∧ (s.Offers n .queryTap f → exec (.queryTap n) s = .next (u.answer (.port n) .accepted
      (x.target.bytes
        ++ [bitsByte [x.receive, x.send], bitsByte [x.incoming, x.outgoing], onByte x.enabled, x.lock.byte,
            onByte (!x.present), onByte (s.tapActive x), byteOf x.coverage.length]
        ++ x.coverage.flatMap fun c => [byteOf c.pos.val, handsetByte c.hs, byteOf c.line.val]))))
  ∧ (∀ (s : State) (n : Port) (f : Frame) (c : Instr), 15 < (byteAt f.body 0).toNat →
    (s.Offers n .tapSet f ∧ c = .tapSet n ∨ s.Offers n .tapEnable f ∧ c = .tapEnable n
      ∨ s.Offers n .tapDisable f ∧ c = .tapDisable n ∨ s.Offers n .tapLock f ∧ c = .tapLock n
      ∨ s.Offers n .tapUnlock f ∧ c = .tapUnlock n ∨ s.Offers n .tapFix f ∧ c = .tapFix n
      ∨ s.Offers n .queryTap f ∧ c = .queryTap n) →
    exec c s = .next ((s.takeFrame n f).answer (.port n) .badValue))

/-! ## Sequences (chapter 8) -/

/-- STEP_WRITE replaces a whole step, unless its action is none of the thirteen or a run waits at it (R145); STEP_READ returns the
record and the positions whose run waits there (R146); and what STEP_READ returns is read back by STEP_WRITE as the same record, for
every record that a STEP_WRITE can leave. -/
def Obligations.StepsAreWrittenAndReadBack : Prop :=
  (∀ (s : State) (n : Port) (f : Frame) (k : StepNo), (byteAt f.body 0).toFin = k →
    (s.Offers n .stepWrite f →
      (stepOf f.body = none → exec (.stepWrite n) s = .next ((s.takeFrame n f).answer (.port n) .badValue))
      ∧ (∀ r p, stepOf f.body = some r → (s.runOf p).nextStep = some k →
        exec (.stepWrite n) s = .next ((s.takeFrame n f).answer (.port n) .stepInUse))
      ∧ (∀ r, stepOf f.body = some r → (∀ p, (s.runOf p).nextStep ≠ some k) →
        exec (.stepWrite n) s = .next
          ({ s.takeFrame n f with squ := { s.squ with steps := s.squ.steps.put k r } }.answer (.port n) .accepted)))
    ∧ (s.Offers n .stepRead f →
      exec (.stepRead n) s = .next ((s.takeFrame n f).answer (.port n) .accepted
        ((s.stepRec k).bytes ++ posSetBytes (Table.build fun p => (s.runOf p).nextStep == some k)))))
  ∧ (∀ (b : Byte) (body : List Byte) (r : StepRec), stepOf body = some r → stepOf (b :: r.bytes) = some r)
  ∧ (∀ k : ReqKind, (∃ b, actionOf b = some (.request k)) ↔
      k ∈ [ReqKind.takeLine, .release, .hold, .signalLine, .setPrivacy, .assignSpeaker, .setVolume, .joinGroup,
           .floorRequest, .floorRelease, .callPosition])

/-- Runs (R148 to R152, R154): RUN_SEQUENCE with its checks in order begins a request step by submitting it and a pause by
starting its timer; an outcome ends the run with its code, or goes on to the next step, a pause or a request, or to SEQ_DONE,
or stops where an abort is marked; a pause expiry goes on in the same way once its timer has run out (notes/assumptions/5.md).
A step whose action is NONE is not begun (BAD_STEP), and neither is the 33rd (TOO_LONG). A pause whose count is 0 expires at
once: wherever it is begun, the run does what the expiry of that pause does (R151), in the same step (notes/assumptions/6.md,
DEDUCED). The outcome that comes to a DRAINING run makes it IDLE and gives no record (R154); one that comes to a run that
waits for none, which no run does, is taken and moves nothing else. ABORT_SEQUENCE by the state of the run. -/
def Obligations.RunsGoStepByStep : Prop :=
  ∀ (s : State) (p : Pos),
    (∀ n b t k, s.Submits (.port n) .runSequence p b t → (byteAt b 0).toFin = k →
      ((s.runOf p).state ≠ .idle → exec (.runSequence n) s = .next (t.answer (.port n) .busy))
      ∧ ((s.runOf p).state = .idle → (s.stepRec k).mask.look p = false →
        exec (.runSequence n) s = .next (t.answer (.port n) .notPermitted))
      ∧ ((s.runOf p).state = .idle → (s.stepRec k).mask.look p = true → (s.stepRec k).action = .none →
        exec (.runSequence n) s = .next (t.answer (.port n) .badValue))
      ∧ (∀ q, (s.runOf p).state = .idle → (s.stepRec k).mask.look p = true → (s.stepRec k).action = .request q →
        exec (.runSequence n) s = .next (((t.setRun p ⟨.waiting k k false, 1⟩).setChan { t.chan with
          submitted := t.chan.submitted.put p (some ⟨q, (s.stepRec k).operands⟩) }).answer (.port n) .accepted))
      ∧ ((s.runOf p).state = .idle → (s.stepRec k).mask.look p = true → (s.stepRec k).action = .pause →
        (s.stepRec k).operands.op1 ≠ 0 →
        exec (.runSequence n) s = .next ((t.setRun p
          ⟨.pausing k k (some (s.stepRec k).operands.op1.toNat), 1⟩).answer (.port n) .accepted))
      ∧ ((s.runOf p).state = .idle → (s.stepRec k).mask.look p = true → (s.stepRec k).action = .pause →
        (s.stepRec k).operands.op1 = 0 → ∃ u, exec (.pauseExpiry p) (t.setRun p ⟨.pausing k k (some 0), 1⟩) = .next u
          ∧ exec (.runSequence n) s = .next (u.answer (.port n) .accepted)))
    ∧ (s.chan.outcomes.look p = none → exec (.stepOutcome p) s = .next s)
    ∧ (∀ c t, s.chan.outcomes.look p = some c → t = s.setChan { s.chan with outcomes := s.chan.outcomes.put p none } →
      ((s.runOf p).state = .draining → exec (.stepOutcome p) s = .next (t.setRun p ⟨.idle, 0⟩))
      ∧ ((s.runOf p).state = .idle ∨ (∃ k first x, (s.runOf p).state = .pausing k first x) →
        exec (.stepOutcome p) s = .next t))
    ∧ (∀ c t k first abort done step, s.chan.outcomes.look p = some c →
      t = s.setChan { s.chan with outcomes := s.chan.outcomes.put p none } →
      s.runOf p = ⟨.waiting k first abort, done⟩ →
      step = (if (s.stepRec k).notify = true then
        [⟨.squ, portOf p, .seqStep k (s.stepRec k).action done⟩] else ([] : List Given)) →
      (c ≠ .accepted → exec (.stepOutcome p) s = .next ((t.setRun p ⟨.idle, 0⟩).emit
        { given := [⟨.squ, portOf p, .seqStopped k (.code c) done⟩] }))
      ∧ (c = .accepted → (s.stepRec k).next = none → exec (.stepOutcome p) s = .next ((t.setRun p ⟨.idle, 0⟩).emit
        { given := step ++ [⟨.squ, portOf p, .seqDone first done⟩] }))
      ∧ (∀ j, c = .accepted → (s.stepRec k).next = some j → abort = true →
        exec (.stepOutcome p) s = .next ((t.setRun p ⟨.idle, 0⟩).emit
          { given := step ++ [⟨.squ, portOf p, .seqStopped j .aborted done⟩] }))
      ∧ (∀ j q, c = .accepted → (s.stepRec k).next = some j → abort = false → (s.stepRec j).action = .request q →
        done < 32 → exec (.stepOutcome p) s = .next (((t.setRun p ⟨.waiting j first false, done + 1⟩).setChan { t.chan with
          submitted := t.chan.submitted.put p (some ⟨q, (s.stepRec j).operands⟩) }).emit { given := step }))
      ∧ (∀ j, c = .accepted → (s.stepRec k).next = some j → abort = false → (s.stepRec j).action = .pause → done < 32 →
        ((s.stepRec j).operands.op1 ≠ 0 → exec (.stepOutcome p) s = .next ((t.setRun p
          ⟨.pausing j first (some (s.stepRec j).operands.op1.toNat), done + 1⟩).emit { given := step }))
        ∧ ((s.stepRec j).operands.op1 = 0 → exec (.stepOutcome p) s
          = exec (.pauseExpiry p) ((t.setRun p ⟨.pausing j first (some 0), done + 1⟩).emit { given := step })))
      ∧ (∀ j, c = .accepted → (s.stepRec k).next = some j → abort = false → 32 ≤ done →
        exec (.stepOutcome p) s = .next ((t.setRun p ⟨.idle, 0⟩).emit
          { given := step ++ [⟨.squ, portOf p, .seqStopped j .tooLong done⟩] }))
      ∧ (∀ j, c = .accepted → (s.stepRec k).next = some j → abort = false → (s.stepRec j).action = .none → done < 32 →
        exec (.stepOutcome p) s = .next ((t.setRun p ⟨.idle, 0⟩).emit
          { given := step ++ [⟨.squ, portOf p, .seqStopped j .badStep done⟩] })))
    ∧ ((∀ k first done, s.runOf p ≠ ⟨.pausing k first (some 0), done⟩) → exec (.pauseExpiry p) s = .next s)
    ∧ (∀ k first done step, s.runOf p = ⟨.pausing k first (some 0), done⟩ →
      step = (if (s.stepRec k).notify = true then
        [⟨.squ, portOf p, .seqStep k (s.stepRec k).action done⟩] else ([] : List Given)) →
      ((s.stepRec k).next = none → exec (.pauseExpiry p) s = .next ((s.setRun p ⟨.idle, 0⟩).emit
        { given := step ++ [⟨.squ, portOf p, .seqDone first done⟩] }))
      ∧ (∀ j q, (s.stepRec k).next = some j → (s.stepRec j).action = .request q → done < 32 →
        exec (.pauseExpiry p) s = .next (((s.setRun p ⟨.waiting j first false, done + 1⟩).setChan { s.chan with
          submitted := s.chan.submitted.put p (some ⟨q, (s.stepRec j).operands⟩) }).emit { given := step }))
      ∧ (∀ j, (s.stepRec k).next = some j → (s.stepRec j).action = .pause → done < 32 →
        ((s.stepRec j).operands.op1 ≠ 0 → exec (.pauseExpiry p) s = .next ((s.setRun p
          ⟨.pausing j first (some (s.stepRec j).operands.op1.toNat), done + 1⟩).emit { given := step }))
        ∧ ((s.stepRec j).operands.op1 = 0 → exec (.pauseExpiry p) s
          = exec (.pauseExpiry p) ((s.setRun p ⟨.pausing j first (some 0), done + 1⟩).emit { given := step })))
      ∧ (∀ j, (s.stepRec k).next = some j → 32 ≤ done → exec (.pauseExpiry p) s = .next ((s.setRun p ⟨.idle, 0⟩).emit
        { given := step ++ [⟨.squ, portOf p, .seqStopped j .tooLong done⟩] }))
      ∧ (∀ j, (s.stepRec k).next = some j → (s.stepRec j).action = .none → done < 32 →
        exec (.pauseExpiry p) s = .next ((s.setRun p ⟨.idle, 0⟩).emit
          { given := step ++ [⟨.squ, portOf p, .seqStopped j .badStep done⟩] })))
    ∧ (∀ n b t, s.Submits (.port n) .abortSequence p b t →
      exec (.abortSequence n) s = .next (match (s.runOf p).state with
        | .idle | .draining => t.answer (.port n) .notRunning
        | .pausing k _ _ => ((t.setRun p ⟨.idle, 0⟩).emit
            { given := [⟨.squ, portOf p, .seqStopped k .aborted (s.runOf p).done⟩] }).answer (.port n) .accepted
        | .waiting k first _ => (t.setRun p ⟨.waiting k first true, (s.runOf p).done⟩).answer (.port n) .accepted))

/-! ## Links (chapter 9) -/

/-- The receiver (R156 to R158): the pair found in HUNT fixes the alignment; a byte out of place in SYNCED, alone or after
SYNC_A or ESC, sends it back to HUNT; OPEN begins a frame; CLOSE ends it, and its length, its check and the room of the queue
decide what becomes of it; ABORT discards it with no flag; a broken escape, an unescaped pair byte, taken again in SYNCED, or
a 65th byte is a frame error. A raw SYNC_A that ended a frame is the first byte of a pair (R157): no command carries that
pair's SYNC_B, so it comes before the bytes of the next command, unless these alone bring what the command names (log entry
43, DEDUCED). Timers as R160 and R161 give. A REMOTE_ECHO port sends the bytes out again (R163). In LOCAL_LOOP the bytes of a
command are those of the port's own transmitter as they come back, damaged or not, each for one that was sent, with idle fill
behind them where no frame is being sent; the first frame that ends decides the outstanding test that was sent, GOOD,
FRAME_ERROR or CHECK_ERROR with its flag; OPEN is taken as it was sent, and a receiver in HUNT passes over all before the next
pair (R163, R164). A command for another receiver state does nothing. That the bytes which leave stand in linkOut and those on
the loop in their own field, and what damage does there, is the model's choice (log entry 9). -/
def Obligations.ReceiversFollowTheirTables : Prop :=
  ∀ (s : State) (n : Port) (r : PortRec) (echo : List Byte → List Byte) (left : List Byte → List Byte → Prop), s.port n = r →
    echo = (fun bytes => if r.mode = .remoteEcho then bytes else r.linkOut) →
    left = (fun bytes loop => r.mode ≠ .localLoop ∧ loop = r.loop
      ∨ r.mode = .localLoop ∧ (∃ sent, sent.length = bytes.length ∧ r.loop = sent ++ loop)
      ∨ r.mode = .localLoop ∧ r.tx = none ∧ r.loop.length < bytes.length
        ∧ loop = if (bytes.length - r.loop.length) % 2 = 1 then [0x69#8] else []) →
    (∀ a loop, r.rx.state = .hunt →
      (r.mode ≠ .localLoop ∧ loop = r.loop
        ∨ r.mode = .localLoop ∧ (∃ pre, r.loop = pre ++ [0x96#8, 0x69#8] ++ loop ∧ ¬[0x96#8, 0x69#8] <:+: pre ++ [0x96#8])
        ∨ r.mode = .localLoop ∧ ¬[0x96#8, 0x69#8] <:+: r.loop ∧ loop = []) →
      exec (.syncFound n a) s = .next (s.setPort n { r with
        rx := Rx.insync, align := some a, lossTimer := none, linkOut := echo [0x96#8, 0x69#8], loop := loop
        upTimer := if r.up = false ∧ r.mode = .normal then some 8 else r.upTimer }))
    ∧ (∀ (pre : List Byte) (lost : PortRec),
      r.rx = Rx.insync ∧ pre = [] ∨ r.rx = ⟨.synced, some 0x96#8, []⟩ ∧ pre = [0x69#8] →
      lost = { r with
        rx := Rx.hunting, align := none, upTimer := none
        lossTimer := if r.up = true ∧ r.mode = .normal ∧ r.lossTimer = none then some 32 else r.lossTimer } →
      (∀ bytes b loop, bytes = [b] ∧ b ≠ 0x96#8 ∧ b ≠ 0xD3#8 ∨ bytes = [0x96#8, b] ∧ b ≠ 0x69#8
          ∨ bytes = [0xD3#8, b] ∧ b ≠ 0x01#8 →
        (left (pre ++ bytes) loop →
          exec (.receiverHunt n (pre ++ bytes)) s = .next (s.setPort n { lost with
            linkOut := echo (pre ++ bytes), loop := loop }))
        ∧ (left (if bytes = [0x69#8] then pre ++ bytes else bytes) loop →
          exec (.receiverHunt n bytes) s = .next (s.setPort n { lost with
            linkOut := echo (if bytes = [0x69#8] then pre ++ bytes else bytes), loop := loop })))
      ∧ (r.mode ≠ .localLoop → exec (.frameOpen n) s = .next (s.setPort n { r with
          rx := { state := .inFrame, held := none, buffer := [] }, linkOut := echo (pre ++ [0xD3#8, 0x01#8]) }))
      ∧ (∀ fill rest, r.mode = .localLoop → fill = pre ∨ fill = pre ++ [0x96#8, 0x69#8] →
        (r.loop = fill ++ [0xD3#8, 0x01#8] ++ rest → exec (.frameOpen n) s = .next (s.setPort n { r with
          rx := { state := .inFrame, held := none, buffer := [] }, loop := rest }))
        ∧ (r.loop = fill ∨ (∃ b, r.loop = fill ++ b :: rest ∧ b ≠ 0x96#8 ∧ b ≠ 0xD3#8)
            ∨ (∃ b, r.loop = fill ++ 0xD3#8 :: b :: rest ∧ b ≠ 0x01#8) →
          exec (.frameOpen n) s = .next s)))
    ∧ (∀ bytes,
      (r.rx.state ≠ .synced → exec (.receiverHunt n bytes) s = .next s ∧ exec (.frameOpen n) s = .next s)
      ∧ (r.rx.state ≠ .inFrame → exec (.frameClose n bytes) s = .next s ∧ exec (.frameAbort n bytes) s = .next s
        ∧ exec (.frameError n bytes) s = .next s))
    ∧ (∀ bytes, r.mode = .localLoop → r.tx.isSome = true →
      (r.loop.length < bytes.length → exec (.receiverHunt n bytes) s = .next s ∧ exec (.frameError n bytes) s = .next s)
      ∧ (r.loop.length < bytes.length + 2 →
        exec (.frameClose n bytes) s = .next s ∧ exec (.frameAbort n bytes) s = .next s))
    ∧ (∀ (data bytes : List Byte) (good : Prop) (x : PortRec), r.rx = { state := .inFrame, held := none, buffer := [] } →
      data.length ≤ 64 → bytes = data.flatMap stuffByte →
      good = (4 ≤ data.length ∧ twoBytes (frameCheck (data.take (data.length - 2))) = data.drop (data.length - 2)) →
      x = { r with rx := Rx.insync } →
      (r.mode ≠ .localLoop → ∀ y, y = { x with linkOut := echo (bytes ++ [0xD3#8, 0x02#8]) } →
        (data.length < 4 → exec (.frameClose n bytes) s = .next (s.setPort n { y with frameError := true }))
        ∧ (4 ≤ data.length → ¬good → exec (.frameClose n bytes) s = .next (s.setPort n { y with checkError := true }))
        ∧ (good → r.mode = .normal → r.up = true → r.queue.length < 4 →
          exec (.frameClose n bytes) s = .next (s.setPort n { y with
            queue := r.queue ++ [⟨data.getD 0 0, data.getD 1 0, (data.drop 2).take (data.length - 4)⟩] }))
        ∧ (good → r.mode = .normal → r.up = true → 4 ≤ r.queue.length →
          exec (.frameClose n bytes) s = .next (s.setPort n { y with overrun := true }))
        ∧ (good → r.mode ≠ .normal ∨ r.up = false → exec (.frameClose n bytes) s = .next (s.setPort n y)))
      ∧ (∀ loop test y, r.mode = .localLoop → left (bytes ++ [0xD3#8, 0x02#8]) loop → y = { x with loop := loop, test := test } →
        (r.test = test ∧ (∀ body, test ≠ some ⟨body, true⟩)
          ∨ test = none ∧ ∃ body, r.test = some ⟨body, true⟩) →
        (data.length < 4 → exec (.frameClose n bytes) s = .next ((s.setPort n { y with frameError := true }).emit
          { given := if r.test = test then [] else [⟨.lki, mgmt, .loopResult n .frameError⟩] }))
        ∧ (4 ≤ data.length → ¬good → exec (.frameClose n bytes) s = .next ((s.setPort n { y with checkError := true }).emit
          { given := if r.test = test then [] else [⟨.lki, mgmt, .loopResult n .checkError⟩] }))
        ∧ (good → exec (.frameClose n bytes) s = .next ((s.setPort n y).emit
          { given := if r.test = test then [] else [⟨.lki, mgmt, .loopResult n .good⟩] })))
      ∧ (∀ loop, left (bytes ++ [0xD3#8, 0x03#8]) loop → exec (.frameAbort n bytes) s = .next (s.setPort n { x with
          linkOut := echo (bytes ++ [0xD3#8, 0x03#8]), loop := loop }))
      ∧ (∀ (err : List Byte) (b : Byte) (loop : List Byte) (y : PortRec), left (bytes ++ err) loop →
        (err = [0xD3#8, b] ∧ b ≠ 0x02#8 ∧ b ≠ 0x03#8 ∧ b ≠ 0xB6#8 ∧ b ≠ 0x49#8 ∧ b ≠ 0xF3#8
              ∧ y = { x with frameError := true }
          ∨ data.length = 64 ∧ (err = [b] ∧ isMark b = false ∨ err = [0xD3#8, b] ∧ (b = 0xB6#8 ∨ b = 0x49#8 ∨ b = 0xF3#8))
              ∧ y = { x with frameError := true }
          ∨ err = [0x96#8] ∧ y = { x with rx := { state := .synced, held := some 0x96#8, buffer := [] }, frameError := true }
          ∨ err = [0x69#8] ∧ y = { x with
              rx := Rx.hunting, align := none, upTimer := none, frameError := true,
              lossTimer := if r.up = true ∧ r.mode = .normal ∧ r.lossTimer = none then some 32 else r.lossTimer }) →
        (r.mode ≠ .localLoop ∨ (∀ body, r.test ≠ some ⟨body, true⟩) →
          exec (.frameError n (bytes ++ err)) s = .next (s.setPort n { y with linkOut := echo (bytes ++ err), loop := loop }))
        ∧ (∀ body, r.mode = .localLoop → r.test = some ⟨body, true⟩ →
          exec (.frameError n (bytes ++ err)) s = .next ((s.setPort n { y with loop := loop, test := none }).emit
            { given := [⟨.lki, mgmt, .loopResult n .frameError⟩] }))))

/-- The standing of a port: at the expiry of the loss timer, once it has run out, it goes DOWN, with its queue, its waiting
reply and its begun frame gone, the reply of a request in flight lost (R166; log entry 37, DEDUCED), the link back to idle
fill and the notices sent (R160, R155), and the manager's link disarms a soft reset (R173); at the expiry of the up timer,
once it has run out, it goes UP, and PTB and EVU take the notice, here with no earlier down notice waiting at them (R161, R52,
R168; log entry 12). An expiry whose timer was stopped or started again does nothing (log entry 5). That ABORT and the idle
pair stand in linkOut, with what of the frame went before them left out, is the model's choice (log entries 9 and 32). -/
def Obligations.PortsGoDownAndUp : Prop :=
  ∀ (s : State) (n : Port) (r : PortRec), s.port n = r →
    (∀ t, r.lossTimer = some 0 → t = s.setPort n { r with
        up := false, queue := [], inFlight := r.inFlight.map fun q => { q with lost := true }, reply := none, tx := none
        lossTimer := none, upTimer := none
        linkOut := if r.tx.isSome = true then [0xD3#8, 0x03#8, 0x96#8, 0x69#8] else [0x96#8, 0x69#8] } →
      (∀ p, n = portOf p → exec (.linkLossTimerExpiry n) s = .next ((t.setChan { s.chan with
          downPtb := s.chan.downPtb ++ [p], downLcu := s.chan.downLcu ++ [p], downGfu := s.chan.downGfu ++ [p]
          downSqu := s.chan.downSqu ++ [p], downEvu := s.chan.downEvu ++ [n] }).emit
            { given := [⟨.lki, mgmt, .positionDown p⟩] }))
      ∧ (n = mgmt → exec (.linkLossTimerExpiry n) s = .next
          { t with
            chan := { s.chan with downEvu := s.chan.downEvu ++ [mgmt] }, lki := { t.lki with armed := false } }))
    ∧ (r.upTimer = some 0 → n ∉ s.chan.downEvu →
      (∀ p, n = portOf p → p ∉ s.chan.downPtb → exec (.linkUpTimerExpiry n) s = .next
        ((((s.setPort n { r with up := true, upTimer := none }).setEvents n { s.events n with
            up := true, queue := (s.events n).queue ++ [.linkUp n] }).setPos p { s.pos p with up := true }).setChan
          { s.chan with
            notices := s.chan.notices ++ [.position p], ups := s.chan.ups ++ [p]
            given := s.chan.given ++ [⟨.lki, mgmt, .positionUp p⟩] }))
      ∧ (n = mgmt → exec (.linkUpTimerExpiry n) s = .next
        ((s.setPort n { r with up := true, upTimer := none }).setEvents n { s.events n with up := true })))
    ∧ (r.lossTimer ≠ some 0 → exec (.linkLossTimerExpiry n) s = .next s)
    ∧ (r.upTimer ≠ some 0 → exec (.linkUpTimerExpiry n) s = .next s)

/-- The transmitter (R162): a waiting reply goes first, and is discarded on a DOWN port; an event frame takes the oldest eight
records of an UP port in PUSH mode with no reply waiting (R169, R177); a test frame goes round the loop once the receiver is
SYNCED at the end of a pair, and waits while it is not or what stands on the loop loses the alignment (R164); CLOSE ends the begun frame and an idle pair follows (R155). A begun frame is OPEN, then its tag, kind, body and
check bytes, stuffed (R155). In LOCAL_LOOP the bytes go to the port's own receiver and in REMOTE_ECHO nowhere, so a port in a
loop mode puts none of them on its link (R163). That the bytes stand in linkOut or on the loop from the step that sends them
is the model's choice (log entry 9); when the receiver is SYNCED at the end of a pair, and that a test counts as sent from the step
that begins its frame, is the model's reading (log entry 24, DEDUCED). -/
def Obligations.TransmittersSendInOrder : Prop :=
  ∀ (s : State) (n : Port) (r : PortRec) (put : PortRec → List Byte → PortRec), s.port n = r →
    put = (fun x bytes => match r.mode with
      | .normal => { x with linkOut := bytes }
      | .localLoop => { x with loop := r.loop ++ bytes }
      | .remoteEcho => x) →
    (∀ f, r.tx = none → r.reply = some f →
      (r.up = true → exec (.replySend n) s = .next (s.setPort n (put { r with
        reply := none, tx := some ⟨.reply, f⟩ } f.wire)))
      ∧ (r.up = false → exec (.replySend n) s = .next (s.setPort n { r with reply := none }))
      ∧ exec (.eventFrame n) s = .next s)
    ∧ (∀ q f, r.tx = none → r.reply = none → r.up = true → s.events n = q → q.poll = false → q.queue ≠ [] →
      f = ⟨0x00#8, 0xE0#8, byteOf (min 8 q.queue.length) :: (q.queue.take 8).flatMap Event.bytes⟩ →
      exec (.eventFrame n) s = .next ((s.setPort n (put { r with tx := some ⟨.events, f⟩ } f.wire)).setEvents n
        { q with queue := q.queue.drop 8 }))
    ∧ ((s.events n).poll = true ∨ r.up = false → exec (.eventFrame n) s = .next s)
    ∧ (∀ body g, r.tx = none → r.test = some ⟨body, false⟩ → r.mode = .localLoop →
      g = ⟨0x00#8, 0xE1#8, byteOf n.val :: body⟩ →
      (r.rx = Rx.insync ∧ r.loop ∈ [[], [0x96#8, 0x69#8]] ∨ r.rx = ⟨.synced, some 0x96#8, []⟩ ∧ r.loop ∈ [[], [0x69#8]] →
        exec (.testFrameSend n) s = .next (s.setPort n { r with
          test := some ⟨body, true⟩, tx := some ⟨.test, g⟩, loop := r.loop ++ g.wire }))
      ∧ (r.rx.state ≠ .synced ∨ RxEvent.lost ∈ (r.rx.takeAll r.loop).2 → exec (.testFrameSend n) s = .next s))
    ∧ (r.tx.isSome = true → exec (.frameSent n) s = .next (s.setPort n
        (put { r with tx := none } [0xD3#8, 0x02#8, 0x96#8, 0x69#8])))
    ∧ (r.tx = none → exec (.frameSent n) s = .next s)
    ∧ (∀ g : Frame, g.wire = [0xD3#8, 0x01#8] ++ (g.tag :: g.kind :: g.body
        ++ twoBytes (frameCheck (g.tag :: g.kind :: g.body))).flatMap stuffByte)

/-- STATUS_READ returns a port's flags and clears them (R159); PORT_MODE changes a mode with the receiver in HUNT, an UP port
going DOWN first, with ABORT for a begun frame, the reply of its request in flight lost (log entry 37, DEDUCED) and the link
back to idle fill (R163, R160, R155); TEST_FRAME makes a test outstanding on a LOCAL_LOOP port (R164); each with its refusals.
That a position's STATUS_READ of another port is NOT_PERMITTED before BAD_VALUE is looked at is log entry 21 (DEDUCED); that a
mode change leaves nothing of a test frame, at the transmitter or on the loop, is log entry 24 (DEDUCED); that ABORT and the
pair stand in linkOut is the model's choice (log entry 9). -/
def Obligations.StatusModesAndTests : Prop :=
  ∀ (s u : State) (n : Port) (f : Frame), u = s.takeFrame n f →
    (s.Offers n .statusRead f →
      (∀ p, posOf n = some p → (byteAt f.body 0).toNat ≠ n.val →
        exec (.statusRead n) s = .next (u.answer (.port n) .notPermitted))
      ∧ (n = mgmt → 16 < (byteAt f.body 0).toNat → exec (.statusRead n) s = .next (u.answer (.port n) .badValue))
      ∧ (∀ m x, (byteAt f.body 0).toNat = m.val → n = mgmt ∨ n = m → u.port m = x →
        exec (.statusRead n) s = .next ((u.setPort m { x with
          frameError := false, checkError := false, overrun := false }).answer (.port n) .accepted
            [bitsByte [x.frameError, x.checkError, x.overrun], onByte x.up, rxByte x.rx.state, x.mode.byte,
             byteOf x.queue.length])))
    ∧ (s.Offers n .portMode f →
      (numOf 17 (byteAt f.body 0) = none ∨ portModeOf (byteAt f.body 1) = none →
        exec (.portMode n) s = .next (u.answer (.port n) .badValue))
      ∧ (∀ m mode, numOf 17 (byteAt f.body 0) = some m → portModeOf (byteAt f.body 1) = some mode →
        (m = mgmt → exec (.portMode n) s = .next (u.answer (.port n) .notPermitted))
        ∧ (∀ x, m ≠ mgmt → s.port m = x → x.mode = mode →
          exec (.portMode n) s = .next (u.answer (.port n) .accepted))
        ∧ (∀ x, m ≠ mgmt → s.port m = x → x.mode ≠ mode → x.up = false →
          exec (.portMode n) s = .next ((u.setPort m { x with
            mode := mode, rx := Rx.hunting, align := none, lossTimer := none, upTimer := none, queue := [],
            test := none, tx := none, loop := [], linkOut := [0x96#8, 0x69#8] }).answer (.port n) .accepted))
        ∧ (∀ x p, m = portOf p → s.port m = x → x.mode ≠ mode → x.up = true →
          exec (.portMode n) s = .next ((((u.setPort m { x with
            up := false, queue := [], inFlight := x.inFlight.map fun q => { q with lost := true }
            reply := none, tx := none, lossTimer := none, upTimer := none, mode := mode,
            rx := Rx.hunting, align := none, test := none, loop := [],
            linkOut := if x.tx.isSome = true then [0xD3#8, 0x03#8, 0x96#8, 0x69#8] else [0x96#8, 0x69#8] }).setChan { s.chan with
              downPtb := s.chan.downPtb ++ [p], downLcu := s.chan.downLcu ++ [p], downGfu := s.chan.downGfu ++ [p]
              downSqu := s.chan.downSqu ++ [p], downEvu := s.chan.downEvu ++ [m] }).emit
            { given := [⟨.lki, mgmt, .positionDown p⟩] }).answer (.port n) .accepted))))
    ∧ (s.Offers n .testFrame f →
      (numOf 17 (byteAt f.body 0) = none → exec (.testFrame n) s = .next (u.answer (.port n) .badValue))
      ∧ (∀ m, numOf 17 (byteAt f.body 0) = some m →
        ((s.port m).mode ≠ .localLoop → exec (.testFrame n) s = .next (u.answer (.port n) .notPermitted))
        ∧ ((s.port m).mode = .localLoop → (s.port m).test.isSome = true →
          exec (.testFrame n) s = .next (u.answer (.port n) .busy))
        ∧ (∀ x, u.port m = x → (s.port m).mode = .localLoop → (s.port m).test = none →
          exec (.testFrame n) s = .next ((u.setPort m { x with test := some ⟨f.body.drop 1, false⟩ }).answer (.port n)
            .accepted))))

/-! ## Events and shelf management (chapters 10 and 11) -/

/-- EVU (R168 to R171): the first matching case places a record; EVENT_SETUP replaces masks and mode, with a SUMMARY in class
order for each class that opens with its mark SET, on an UP port and while the queue holds fewer than 32 records, the marks
unchanged; FETCH_EVENTS returns the oldest eight; SUMMARY returns and clears the marks; PORT_RESET empties a port's queues and
clears its marks and flags. A position that names another port is NOT_PERMITTED, whatever else is wrong, and a port above 16
or a mode that is neither PUSH nor POLL is BAD_VALUE, from a position on its own port too: the order of the two is the model's
reading (log entry 21, DEDUCED). -/
def Obligations.EventsArePlacedAndRead : Prop :=
  ∀ (s : State),
    (∀ b rest (g : Given) q c t, takeRecord b s.chan.given = some (g, rest) → s.events g.port = q →
      g.event.class = some c → t = s.setChan { s.chan with given := rest } →
      exec (.recordPlacement b) s = .next (t.setEvents g.port (
        if q.up = false then q
        else if q.masked.look c.index = true ∨ 32 ≤ q.queue.length then { q with marks := q.marks.put c.index true }
        else { q with queue := q.queue ++ [g.event] })))
    ∧ (∀ n f u, u = s.takeFrame n f →
      (s.Offers n .eventSetup f →
        (∀ p, posOf n = some p → (byteAt f.body 0).toNat ≠ n.val →
          exec (.eventSetup n) s = .next (u.answer (.port n) .notPermitted))
        ∧ (n = mgmt → 16 < (byteAt f.body 0).toNat → exec (.eventSetup n) s = .next (u.answer (.port n) .badValue))
        ∧ (∀ m : Port, (byteAt f.body 0).toNat = m.val → n = mgmt ∨ n = m → onOffOf (byteAt f.body 2) = none →
          exec (.eventSetup n) s = .next (u.answer (.port n) .badValue))
        ∧ (∀ m q (masked : Table 5 Bool) poll (opens : EventClass → Bool), (byteAt f.body 0).toNat = m.val →
          n = mgmt ∨ n = m → s.events m = q → onOffOf (byteAt f.body 2) = some poll →
          masked = (Table.build fun c => (byteAt f.body 1).getLsbD c.val) →
          opens = (fun c => q.masked.look c.index && !masked.look c.index && q.marks.look c.index) →
          exec (.eventSetup n) s = .next ((u.setEvents m { q with
            masked := masked, poll := poll
            queue := q.queue ++ if q.up = false then [] else
              (([EventClass.line, .floor, .call, .sequence, .system].filter opens).take (32 - q.queue.length)).map
                Event.summary }).answer (.port n)
              .accepted)))
      ∧ (s.Offers n .fetchEvents f → ∀ q, s.events n = q →
        exec (.fetchEvents n) s = .next ((u.setEvents n { q with queue := q.queue.drop 8 }).answer (.port n) .accepted
          ([byteOf (min 8 q.queue.length)] ++ (q.queue.take 8).flatMap Event.bytes ++ [byteOf (q.queue.length - 8)])))
      ∧ (s.Offers n .summary f → ∀ q, s.events n = q →
        exec (.summary n) s = .next ((u.setEvents n { q with marks := Table.fill false }).answer (.port n) .accepted
          [bitsByte q.marks.toList]))
      ∧ (s.Offers n .portReset f →
        (∀ p, posOf n = some p → (byteAt f.body 0).toNat ≠ n.val →
          exec (.portReset n) s = .next (u.answer (.port n) .notPermitted))
        ∧ (n = mgmt → 16 < (byteAt f.body 0).toNat → exec (.portReset n) s = .next (u.answer (.port n) .badValue))
        ∧ (∀ m, (byteAt f.body 0).toNat = m.val → n = mgmt ∨ n = m →
          exec (.portReset n) s = .next (((u.setPort m { u.port m with
            queue := [], frameError := false, checkError := false, overrun := false }).setEvents m { s.events m with
              queue := [], marks := Table.fill false }).answer (.port n) .accepted))))

/-- The soft reset and the identification: RESET_ARM arms, RESET_EXECUTE is carried out only when armed (R173), and EVU then
empties every queue and gives every UP port SYSTEM_RESET; each of the six owners takes the reset once, in any order, and not
where it has taken it or none is in progress (R174). What each owner keeps, clears and sends is stated: PTB its claims, mutes
and assignments, with the notices of each (R32, R36, R49); LCU its calls, with the coverage releases marked as of the reset,
the waiting takes ended by HANDSET_BUSY and a LINE notice for each line that leaves INCOMING (R13, R27, R28, R51), which for
an AUTOMATIC line is the model's choice (log entry 18); GFU its joined lists, floors and calls, with the notice of each
ALERTING callee, and after them those of each floor that loses a holder or open talkers (R57, R67, R69, R77, R95), its
listening sets left to PTB's notices (log entry 31); CMX, RTU and SQU theirs (R98, R124, R132; R134; R154). The completion
waits for all six: every line that the reset put in IDLE and whose qualified far seize is ON then goes INCOMING with its
LINE_STATE, in rising line order, which is the model's choice (log entry 41), every leg is to be derived, the TAP notices are
sent and the reply leaves (R27, R98, R134, R174). That an assignment asked for and a waiting take remember the reset is the
model's reading (log entry 15). Of PTB and an owner the one that takes the reset second tells the other of the handsets that it
clears, LCU and GFU by release notices and PTB by return notices, so that the effect of a request that one of them took between is
cleared at both (R175): that these notices do it, and the order of PTB's listening notices, are its choice (log entries 38 and
50). IDENTIFY returns the codes and the power-on flag, and clears it (R176, R184). -/
def Obligations.SoftResetGoesThroughItsPhases : Prop :=
  ∀ (s : State),
    (∀ n f, (s.Offers n .resetArm f → exec (.resetArm n) s = .next ((s.takeFrame n f).answer (.port n) .accepted))
      ∧ (s.Offers n .identify f → exec (.identify n) s = .next
        ({ s.takeFrame n f with lki := { (s.takeFrame n f).lki with powerOn := false } }.answer (.port n) .accepted
          [0x3A#8, 0x71#8, 0x12#8, 0xD0#8, 0x01#8, onByte s.lki.powerOn]))
      ∧ (s.Offers n .resetExecute f → s.lki.armed = false →
        exec (.resetExecute n) s = .next ((s.takeFrame n f).answer (.port n) .notPermitted))
      ∧ (s.Offers n .resetExecute f → s.lki.armed = true → ∃ t, exec (.resetExecute n) s = .next t
        ∧ t.lki = { (s.takeFrame n f).lki with softReset := some ⟨false, false, false, false, false, false⟩ }
        ∧ (∀ m, t.events m = { s.events m with
            marks := Table.fill false, queue := if (s.events m).up = true then [.systemReset] else [] })
        ∧ t = { s with lki := t.lki, evu := t.evu }))
    ∧ ((∀ r, s.lki.softReset = some r → r.ptb = true) → exec .softResetAtPtb s = .next s)
    ∧ ((∀ r, s.lki.softReset = some r → r.lcu = true) → exec .softResetAtLcu s = .next s)
    ∧ ((∀ r, s.lki.softReset = some r → r.gfu = true) → exec .softResetAtGfu s = .next s)
    ∧ ((∀ r, s.lki.softReset = some r → r.cmx = true) → exec .softResetAtCmx s = .next s)
    ∧ ((∀ r, s.lki.softReset = some r → r.rtu = true) → exec .softResetAtRtu s = .next s)
    ∧ ((∀ r, s.lki.softReset = some r → r.squ = true) → exec .softResetAtSqu s = .next s)
    ∧ (s.lki.softReset ≠ some ⟨true, true, true, true, true, true⟩ → exec .softResetCompletion s = .next s)
    ∧ (∀ r, s.lki.softReset = some r →
      (r.ptb = false → ∃ t, exec .softResetAtPtb s = .next t
        ∧ t.lki = { s.lki with softReset := some { r with ptb := true } } ∧ t.lcu = s.lcu ∧ t.gfu = s.gfu
        ∧ t.cmx = s.cmx ∧ t.rtu = s.rtu ∧ t.squ = s.squ ∧ t.evu = s.evu
        ∧ t.chan = { s.chan with
            notices := s.chan.notices ++ (List.finRange 16).flatMap fun p =>
              if (s.pos p).claim = ⟨.none, .none⟩ then [] else [.position p]
            listening := s.chan.listening ++ (List.finRange 16).flatMap fun p =>
              ((List.finRange 16).filter fun g => decide (∃ k, (s.pos p).assign.look k = .group g)).map
                fun g => ⟨p, g, false, true⟩
            toLcu := s.chan.toLcu ++ if r.lcu = false then [] else
              (List.finRange 16).flatMap fun p => [Handset.A, .B].filterMap fun h => match (s.pos p).claim.of h with
                | .line l => some (.giveBack p h (.line l))
                | _ => none
            toGfu := s.chan.toGfu ++ if r.gfu = false then [] else
              (List.finRange 16).flatMap fun p => [Handset.A, .B].filterMap fun h => match (s.pos p).claim.of h with
                | .group g => some (.giveBack p h (.group g))
                | .call c => some (.giveBack p h (.call c))
                | _ => none }
        ∧ ∀ p, t.pos p = { s.pos p with
            claim := ⟨.none, .none⟩, mute := ⟨false, false⟩, assign := Table.fill .none
            asking := Table.build fun k => ((s.pos p).asking.look k).map fun m => { m with sawReset := true } })
      ∧ (r.lcu = false → ∃ t, exec .softResetAtLcu s = .next t
        ∧ t.lki = { s.lki with softReset := some { r with lcu := true } } ∧ t.ptb = s.ptb ∧ t.gfu = s.gfu
        ∧ t.cmx = s.cmx ∧ t.rtu = s.rtu ∧ t.squ = s.squ ∧ t.evu = s.evu
        ∧ t.lcu.waiting = (s.lcu.waiting.map fun w => if w.ended = none then { w with ended := some true } else w)
        ∧ t.chan = { s.chan with
            notices := s.chan.notices ++ (List.finRange 64).flatMap fun l =>
              if (s.line l).state = .incoming ∧ ((s.line l).cfg.kind = .ringdown ∨ (s.line l).cfg.kind = .automatic) then
                [.line l] else []
            fromLcu := s.chan.fromLcu
              ++ (if r.ptb = false then [] else (List.finRange 64).flatMap fun l =>
                if (s.line l).state ≠ .outOfService ∧ ((s.line l).cfg.kind = .ringdown ∨ (s.line l).cfg.kind = .automatic) then
                  (s.line l).connected.map fun c => .released c.pos c.hs (.line l)
                else [])
              ++ (s.lcu.waiting.filter fun w => w.ended.isNone).map fun w => .outcome w.pos w.hs w.via (.inr .handsetBusy)
            toRtu := s.chan.toRtu ++ (List.finRange 64).flatMap fun l =>
              if (s.line l).state ≠ .outOfService ∧ ((s.line l).cfg.kind = .ringdown ∨ (s.line l).cfg.kind = .automatic) then
                ((s.line l).connected.filter fun c => c.covered).map fun c => .release c.pos c.hs l true
              else [] }
        ∧ (∀ l p, (t.row l).look p = ⟨((s.row l).look p).mode, true⟩)
        ∧ ∀ l x, s.line l = x →
          (x.state ≠ .outOfService → x.cfg.kind = .ringdown ∨ x.cfg.kind = .automatic →
            t.line l = { x with
              state := .idle, nearSeize := false, ringOut := false, stateTimer := none, direction := none,
              privacy := false, connected := [], owner := none, resetIdle := true })
          ∧ (x.state = .outOfService ∨ x.cfg.kind = .hoot ∨ x.cfg.kind = .unused → t.line l = x))
      ∧ (∀ leaving : Grp → List Pos, r.gfu = false →
        (∀ g, leaving g = (s.group g).floor.holderPos.toList ++ (s.group g).floor.talkers.map fun k => k.pos) →
        ∃ t, exec .softResetAtGfu s = .next t
        ∧ t.lki = { s.lki with softReset := some { r with gfu := true } } ∧ t.ptb = s.ptb ∧ t.lcu = s.lcu
        ∧ t.cmx = s.cmx ∧ t.rtu = s.rtu ∧ t.squ = s.squ ∧ t.evu = s.evu
        ∧ t.chan = { s.chan with
            notices := s.chan.notices
              ++ ((List.finRange 8).flatMap fun c => match s.call c with
                | .alerting _ _ callee _ _ => [.position callee]
                | _ => [])
              ++ (List.finRange 16).flatMap fun g =>
                if leaving g = [] then [] else .group g :: (leaving g).map .position
            fromGfu := s.chan.fromGfu ++ if r.ptb = false then [] else
              ((List.finRange 16).flatMap fun g => (s.group g).joined.map fun m => .released m.1 m.2 (.group g))
              ++ (List.finRange 8).flatMap fun c => match s.call c with
                | .free => []
                | .alerting q k _ _ _ => [.released q k (.call c)]
                | .active q k a i _ => [.released q k (.call c), .released a i (.call c)] }
        ∧ (∀ c, t.call c = .free) ∧ t.gfu = { s.gfu with groups := t.gfu.groups, calls := t.gfu.calls }
        ∧ ∀ g, t.group g = { s.group g with joined := [], floor := Floor.empty })
      ∧ (r.cmx = false → ∃ t, exec .softResetAtCmx s = .next t
        ∧ t = { s with
            cmx := t.cmx, lki := { s.lki with softReset := some { r with cmx := true } } }
        ∧ t.cmx = { s.cmx with
            legs := t.cmx.legs, free := 1536, awaited := Table.fill false, truncated := Table.fill false
            inProgress := none }
        ∧ ∀ k, t.leg k = { s.leg k with list := [], idle := s.idleOf k, clip := 0 })
      ∧ (r.rtu = false → exec .softResetAtRtu s = .next
        { s with lki := { s.lki with softReset := some { r with rtu := true } } })
      ∧ (r.squ = false → exec .softResetAtSqu s = .next
        { s with
          lki := { s.lki with softReset := some { r with squ := true } }
          squ := { s.squ with runs := Table.build fun p => match (s.runOf p).state with
            | .idle | .pausing .. => ⟨.idle, 0⟩
            | .waiting .. | .draining => ⟨.draining, 0⟩ } })
      ∧ (r = ⟨true, true, true, true, true, true⟩ → ∀ rises : Line → Bool,
        (∀ l, rises l = true ↔ (s.line l).resetIdle = true ∧ (s.line l).state = .idle ∧ (s.line l).qualified = true
          ∧ ((s.line l).cfg.kind = .ringdown ∨ (s.line l).cfg.kind = .automatic)) →
        ∃ t, exec .softResetCompletion s = .next t
          ∧ t = ({ s with
              cmx := t.cmx, lcu := t.lcu, lki := { s.lki with softReset := none }
              chan := { s.chan with
                given := s.chan.given ++ (List.finRange 64).flatMap fun l =>
                  if rises l = true then lineStates l (s.row l) (t.line l) .none else []
                notices := s.chan.notices ++ ((List.finRange 64).filter rises).map Subject.line
                  ++ (List.finRange 16).map Subject.tap } }).answer (.port mgmt) .accepted
          ∧ t.cmx = { s.cmx with awaited := t.cmx.awaited } ∧ (∀ k, t.cmx.awaited.look k = true)
          ∧ t.lcu = { s.lcu with lines := t.lcu.lines }
          ∧ ∀ l x, s.line l = x →
            (rises l = true → t.line l = { x with
              state := .incoming, nearSeize := false, ringOut := false, resetIdle := false
              stateTimer := if x.cfg.kind = .ringdown then some x.cfg.answerCount.val else none })
            ∧ (rises l = false → t.line l = { x with resetIdle := false })))

/-! ## Headlines: the link, and what every step keeps -/

/-- A frame sent comes through: for every frame with a body of at most 60 bytes, a SYNCED receiver that takes the frame's stuffed bytes
and CLOSE reports one opening and one end, ends in SYNCED, holds the frame's own bytes, finds its check good, and reads the same tag,
kind and body (R155 to R158, R177); and an UP port in NORMAL mode with room has exactly that frame appended to its request queue. -/
def Obligations.FramesComeThroughTheLink : Prop :=
  ∀ f : Frame, f.body.length ≤ 60 →
    (Rx.takeAll Rx.insync (f.wire ++ [0xD3#8, 0x02#8])).1 = Rx.insync
    ∧ (Rx.takeAll Rx.insync (f.wire ++ [0xD3#8, 0x02#8])).2 = [.opened, .closed f.bytes]
    ∧ verdict f.bytes = .good ∧ frameOfBuffer f.bytes = f
    ∧ ∀ (s : State) (n : Port), (s.port n).rx = Rx.insync → (s.port n).mode = .normal → (s.port n).up = true →
      (s.port n).queue.length < 4 →
      ∃ t, exec (.frameOpen n) s = .next t
        ∧ exec (.frameClose n (f.bytes.flatMap stuffByte)) t =
          .next (s.setPort n { s.port n with queue := (s.port n).queue ++ [f] })

/-- Every step keeps the pool balanced, with no list above 16 entries (R97, R117), no mix list, nor that of the leg in
derivation, with a source twice (R97), and the coverage lists at four entries at most, empty in a DISABLED tap, and with no
handset in two of them or twice in one (R133, R135, R138): that RTU makes no second entry for a handset it already covers is
the model's choice (log entry 35). And a FIXED tap that is ENABLED keeps its lock, its state and its programming at every step
but a power-on reset (R137). -/
def Obligations.PoolAndTapsAreKept : Prop :=
  ∀ s t : State, step s = .next t →
    (s.PoolBalanced → t.PoolBalanced) ∧ (s.SourcesOnce → t.SourcesOnce)
    ∧ (s.CoverageKept → t.CoverageKept)
    ∧ (∀ r, (s.tap r).lock = .fixed → (s.tap r).enabled = true →
      (∀ far present rest, s.pending ≠ .powerOnReset far present :: rest) →
      (t.tap r).lock = .fixed ∧ (t.tap r).enabled = true ∧ (t.tap r).target = (s.tap r).target
        ∧ (t.tap r).receive = (s.tap r).receive ∧ (t.tap r).send = (s.tap r).send
        ∧ (t.tap r).incoming = (s.tap r).incoming ∧ (t.tap r).outgoing = (s.tap r).outgoing)

/-- Every step keeps the request queues within four frames (R158), and the event queues within 32 records, with EVU's images following
the standing of the ports (R161, R168). -/
def Obligations.QueuesAreKept : Prop :=
  ∀ s t : State, step s = .next t → (s.RequestsFit → t.RequestsFit) ∧ (s.EventsFit → t.EventsFit)

/-- Every step keeps a DOWN position with both claims NONE, both mutes OFF and every speaker unassigned, whatever answers and
notices are still on their way to it (R49, R65). And every step keeps every ALERTING or ACTIVE call between positions whose
standing image at GFU is UP (R74): what becomes of a call that PTB forwarded before the caller's loss is the model's choice
(log entry 36). -/
def Obligations.DownPositionsStayEmpty : Prop :=
  ∀ s t : State, step s = .next t →
    (s.DownIsEmpty → t.DownIsEmpty) ∧ (s.CallsNameUp → t.CallsNameUp)

/-- Every step keeps every line sound: handsets only on an OUTGOING or CONNECTED line and no more than its bridge limit (R3,
R4), near seize and ring out ON only in the states that R6 names. And every step keeps every handset at most once over the
connected lists of all lines, and at most once over the joined lists and the call records (R3, R35, R60, R67): what an owner
does with a handset that it still holds, whose claim PTB has freed before the owner takes the loss or the reset, is the
model's choice (log entry 34). -/
def Obligations.LinesStaySound : Prop :=
  ∀ s t : State, step s = .next t →
    (s.LinesSound → t.LinesSound) ∧ (s.HandsetsStandOnce → t.HandsetsStandOnce)

/-- Every step keeps every floor sound: nobody engaged twice on it, nobody waiting at a free MANAGED floor (R80), the lists of
the other mode empty (R91), and every deferred request behind a waiting one of its level (R83, R84). And every step keeps the
desk microphone of each position engaged on at most one group's floor (R76), and every group of kind UNUSED idle (R56): that a
listen-on notice which comes after a change of kind adds nobody is the model's choice (log entry 44). -/
def Obligations.FloorsStaySound : Prop :=
  ∀ s t : State, step s = .next t →
    (s.FloorsSound → t.FloorsSound) ∧ (s.MicsEngagedOnce → t.MicsEngagedOnce)
    ∧ (s.UnusedGroupsIdle → t.UnusedGroupsIdle)

/-- Power-on reset meets every invariant, whatever the inputs and whatever commands wait. -/
def Obligations.PowerOnMeetsTheInvariants : Prop :=
  ∀ (far : Vector Bool 64) (present : Vector Bool 16) (cs : List Instr),
    (State.poweredOn far present cs).PoolBalanced ∧ (State.poweredOn far present cs).CoverageKept
      ∧ (State.poweredOn far present cs).RequestsFit ∧ (State.poweredOn far present cs).EventsFit
      ∧ (State.poweredOn far present cs).DownIsEmpty ∧ (State.poweredOn far present cs).LinesSound
      ∧ (State.poweredOn far present cs).FloorsSound
      ∧ (State.poweredOn far present cs).HandsetsStandOnce ∧ (State.poweredOn far present cs).SourcesOnce
      ∧ (State.poweredOn far present cs).MicsEngagedOnce
      ∧ (State.poweredOn far present cs).CallsNameUp ∧ (State.poweredOn far present cs).UnusedGroupsIdle
end

