-- ==== Sys2Proof/Laws/Table.lean ====
section
/-! SUPPORT. The laws of tables and of taking the first element of a list that satisfies a test. -/

namespace Sys2Proof

theorem Table.look_put_same {n : Nat} {α : Type} (t : Table n α) (i : Fin n) (a : α) : (t.put i a).look i = a := by
  simp [Table.look, Table.put]

theorem Table.look_put_of_ne {n : Nat} {α : Type} (t : Table n α) {i j : Fin n} (a : α) (h : i ≠ j) :
    (t.put i a).look j = t.look j := by
  have : i.val ≠ j.val := fun e => h (Fin.ext e)
  simp [Table.look, Table.put, this]

/-- Reading one place of a table after a write: the written value there, the old one elsewhere. -/
@[simp] theorem Table.look_put {n : Nat} {α : Type} (t : Table n α) (i j : Fin n) (a : α) :
    (t.put i a).look j = if i = j then a else t.look j := by
  split
  · next h => subst h; exact Table.look_put_same t i a
  · next h => exact Table.look_put_of_ne t a h

@[simp] theorem Table.look_build {n : Nat} {α : Type} (f : Fin n → α) (i : Fin n) : (Table.build f).look i = f i := by
  simp [Table.look, Table.build]

@[simp] theorem Table.look_fill {n : Nat} {α : Type} (a : α) (i : Fin n) : (Table.fill (n := n) a).look i = a := by
  simp [Table.fill]

/-- Two tables are equal when they agree everywhere. -/
theorem Table.ext_look {n : Nat} {α : Type} {t u : Table n α} (h : ∀ i, t.look i = u.look i) : t = u := by
  apply Vector.ext
  intro i hi
  exact h ⟨i, hi⟩

/-- A table written with what it holds is unchanged. -/
theorem Table.put_look {n : Nat} {α : Type} (t : Table n α) (i : Fin n) : t.put i (t.look i) = t := by
  apply Table.ext_look
  intro j
  by_cases h : i = j
  · subst h; simp
  · simp [h]

/-- The last write to a place wins. -/
theorem Table.put_put {n : Nat} {α : Type} (t : Table n α) (i : Fin n) (a b : α) : (t.put i a).put i b = t.put i b := by
  apply Table.ext_look
  intro j
  by_cases h : i = j <;> simp [h]

/-- What `takeFirst` takes satisfies the test, and the list is what it was with that element taken out of its place. -/
theorem takeFirst_some {α : Type} {q : α → Bool} {l : List α} {a : α} {rest : List α}
    (h : takeFirst q l = some (a, rest)) :
    q a = true ∧ ∃ front back, l = front ++ a :: back ∧ rest = front ++ back ∧ ∀ b ∈ front, q b = false := by
  induction l generalizing rest with
  | nil => simp [takeFirst] at h
  | cons x xs ih =>
    simp only [takeFirst] at h
    split at h
    · next hx =>
      obtain ⟨rfl, rfl⟩ : x = a ∧ xs = rest := by simpa using h
      exact ⟨hx, [], xs, rfl, rfl, by simp⟩
    · next hx =>
      obtain ⟨⟨b, r⟩, hr, he⟩ := Option.map_eq_some_iff.mp h
      obtain ⟨rfl, rfl⟩ : b = a ∧ x :: r = rest := by simpa using he
      obtain ⟨hq, front, back, rfl, rfl, hf⟩ := ih hr
      exact ⟨hq, x :: front, back, rfl, rfl, by simpa using ⟨by simpa using hx, hf⟩⟩

/-- `takeFirst` finds nothing exactly where nothing satisfies the test. -/
theorem takeFirst_eq_none {α : Type} {q : α → Bool} {l : List α} : takeFirst q l = none ↔ ∀ a ∈ l, q a = false := by
  induction l with
  | nil => simp [takeFirst]
  | cons x xs ih =>
    by_cases hx : q x = true <;> simp [takeFirst, hx, ih]

end Sys2Proof
end

