-- ==== Sys2Proof/Laws/State.lean ====
section
/-! SUPPORT. One lemma for each field of State after each of its updates, and for each record read back. -/

namespace Sys2Proof.Machine

/-! ### setPort -/

@[simp] theorem State.setPort_ptb (s : State) (n : Port) (r : PortRec) : (s.setPort n r).ptb = s.ptb := rfl
@[simp] theorem State.setPort_lcu (s : State) (n : Port) (r : PortRec) : (s.setPort n r).lcu = s.lcu := rfl
@[simp] theorem State.setPort_gfu (s : State) (n : Port) (r : PortRec) : (s.setPort n r).gfu = s.gfu := rfl
@[simp] theorem State.setPort_cmx (s : State) (n : Port) (r : PortRec) : (s.setPort n r).cmx = s.cmx := rfl
@[simp] theorem State.setPort_rtu (s : State) (n : Port) (r : PortRec) : (s.setPort n r).rtu = s.rtu := rfl
@[simp] theorem State.setPort_squ (s : State) (n : Port) (r : PortRec) : (s.setPort n r).squ = s.squ := rfl
@[simp] theorem State.setPort_evu (s : State) (n : Port) (r : PortRec) : (s.setPort n r).evu = s.evu := rfl
@[simp] theorem State.setPort_chan (s : State) (n : Port) (r : PortRec) : (s.setPort n r).chan = s.chan := rfl
@[simp] theorem State.setPort_ticks (s : State) (n : Port) (r : PortRec) : (s.setPort n r).ticks = s.ticks := rfl
@[simp] theorem State.setPort_pending (s : State) (n : Port) (r : PortRec) : (s.setPort n r).pending = s.pending := rfl
@[simp] theorem State.setPort_lki_armed (s : State) (n : Port) (r : PortRec) :
    (s.setPort n r).lki.armed = s.lki.armed := rfl
@[simp] theorem State.setPort_lki_softReset (s : State) (n : Port) (r : PortRec) :
    (s.setPort n r).lki.softReset = s.lki.softReset := rfl
@[simp] theorem State.setPort_lki_powerOn (s : State) (n : Port) (r : PortRec) :
    (s.setPort n r).lki.powerOn = s.lki.powerOn := rfl
@[simp] theorem State.setPort_port (s : State) (n : Port) (r : PortRec) (j : Port) :
    (s.setPort n r).port j = if n = j then r else s.port j := by simp [State.setPort, State.port]
@[simp] theorem State.setPort_pos (s : State) (n : Port) (r : PortRec) (j : Pos) : (s.setPort n r).pos j = s.pos j := rfl
@[simp] theorem State.setPort_line (s : State) (n : Port) (r : PortRec) (j : Line) : (s.setPort n r).line j = s.line j := rfl
@[simp] theorem State.setPort_row (s : State) (n : Port) (r : PortRec) (j : Line) : (s.setPort n r).row j = s.row j := rfl
@[simp] theorem State.setPort_group (s : State) (n : Port) (r : PortRec) (j : Grp) : (s.setPort n r).group j = s.group j := rfl
@[simp] theorem State.setPort_call (s : State) (n : Port) (r : PortRec) (j : CallNo) : (s.setPort n r).call j = s.call j := rfl
@[simp] theorem State.setPort_tap (s : State) (n : Port) (r : PortRec) (j : TapNo) : (s.setPort n r).tap j = s.tap j := rfl
@[simp] theorem State.setPort_runOf (s : State) (n : Port) (r : PortRec) (j : Pos) : (s.setPort n r).runOf j = s.runOf j := rfl
@[simp] theorem State.setPort_events (s : State) (n : Port) (r : PortRec) (j : Port) : (s.setPort n r).events j = s.events j := rfl
@[simp] theorem State.setPort_leg (s : State) (n : Port) (r : PortRec) (j : Leg) : (s.setPort n r).leg j = s.leg j := rfl

/-! ### setPos -/

@[simp] theorem State.setPos_lki (s : State) (p : Pos) (r : PosRec) : (s.setPos p r).lki = s.lki := rfl
@[simp] theorem State.setPos_lcu (s : State) (p : Pos) (r : PosRec) : (s.setPos p r).lcu = s.lcu := rfl
@[simp] theorem State.setPos_gfu (s : State) (p : Pos) (r : PosRec) : (s.setPos p r).gfu = s.gfu := rfl
@[simp] theorem State.setPos_cmx (s : State) (p : Pos) (r : PosRec) : (s.setPos p r).cmx = s.cmx := rfl
@[simp] theorem State.setPos_rtu (s : State) (p : Pos) (r : PosRec) : (s.setPos p r).rtu = s.rtu := rfl
@[simp] theorem State.setPos_squ (s : State) (p : Pos) (r : PosRec) : (s.setPos p r).squ = s.squ := rfl
@[simp] theorem State.setPos_evu (s : State) (p : Pos) (r : PosRec) : (s.setPos p r).evu = s.evu := rfl
@[simp] theorem State.setPos_chan (s : State) (p : Pos) (r : PosRec) : (s.setPos p r).chan = s.chan := rfl
@[simp] theorem State.setPos_ticks (s : State) (p : Pos) (r : PosRec) : (s.setPos p r).ticks = s.ticks := rfl
@[simp] theorem State.setPos_pending (s : State) (p : Pos) (r : PosRec) : (s.setPos p r).pending = s.pending := rfl
@[simp] theorem State.setPos_port (s : State) (p : Pos) (r : PosRec) (j : Port) : (s.setPos p r).port j = s.port j := rfl
@[simp] theorem State.setPos_pos (s : State) (p : Pos) (r : PosRec) (j : Pos) :
    (s.setPos p r).pos j = if p = j then r else s.pos j := by simp [State.setPos, State.pos]
@[simp] theorem State.setPos_line (s : State) (p : Pos) (r : PosRec) (j : Line) : (s.setPos p r).line j = s.line j := rfl
@[simp] theorem State.setPos_row (s : State) (p : Pos) (r : PosRec) (j : Line) : (s.setPos p r).row j = s.row j := rfl
@[simp] theorem State.setPos_group (s : State) (p : Pos) (r : PosRec) (j : Grp) : (s.setPos p r).group j = s.group j := rfl
@[simp] theorem State.setPos_call (s : State) (p : Pos) (r : PosRec) (j : CallNo) : (s.setPos p r).call j = s.call j := rfl
@[simp] theorem State.setPos_tap (s : State) (p : Pos) (r : PosRec) (j : TapNo) : (s.setPos p r).tap j = s.tap j := rfl
@[simp] theorem State.setPos_runOf (s : State) (p : Pos) (r : PosRec) (j : Pos) : (s.setPos p r).runOf j = s.runOf j := rfl
@[simp] theorem State.setPos_events (s : State) (p : Pos) (r : PosRec) (j : Port) : (s.setPos p r).events j = s.events j := rfl
@[simp] theorem State.setPos_leg (s : State) (p : Pos) (r : PosRec) (j : Leg) : (s.setPos p r).leg j = s.leg j := rfl

/-! ### setLine -/

@[simp] theorem State.setLine_lki (s : State) (l : Line) (r : LineRec) : (s.setLine l r).lki = s.lki := rfl
@[simp] theorem State.setLine_ptb (s : State) (l : Line) (r : LineRec) : (s.setLine l r).ptb = s.ptb := rfl
@[simp] theorem State.setLine_gfu (s : State) (l : Line) (r : LineRec) : (s.setLine l r).gfu = s.gfu := rfl
@[simp] theorem State.setLine_cmx (s : State) (l : Line) (r : LineRec) : (s.setLine l r).cmx = s.cmx := rfl
@[simp] theorem State.setLine_rtu (s : State) (l : Line) (r : LineRec) : (s.setLine l r).rtu = s.rtu := rfl
@[simp] theorem State.setLine_squ (s : State) (l : Line) (r : LineRec) : (s.setLine l r).squ = s.squ := rfl
@[simp] theorem State.setLine_evu (s : State) (l : Line) (r : LineRec) : (s.setLine l r).evu = s.evu := rfl
@[simp] theorem State.setLine_chan (s : State) (l : Line) (r : LineRec) : (s.setLine l r).chan = s.chan := rfl
@[simp] theorem State.setLine_ticks (s : State) (l : Line) (r : LineRec) : (s.setLine l r).ticks = s.ticks := rfl
@[simp] theorem State.setLine_pending (s : State) (l : Line) (r : LineRec) : (s.setLine l r).pending = s.pending := rfl
@[simp] theorem State.setLine_lcu_apps (s : State) (l : Line) (r : LineRec) :
    (s.setLine l r).lcu.apps = s.lcu.apps := rfl
@[simp] theorem State.setLine_lcu_waiting (s : State) (l : Line) (r : LineRec) :
    (s.setLine l r).lcu.waiting = s.lcu.waiting := rfl
@[simp] theorem State.setLine_port (s : State) (l : Line) (r : LineRec) (j : Port) : (s.setLine l r).port j = s.port j := rfl
@[simp] theorem State.setLine_pos (s : State) (l : Line) (r : LineRec) (j : Pos) : (s.setLine l r).pos j = s.pos j := rfl
@[simp] theorem State.setLine_line (s : State) (l : Line) (r : LineRec) (j : Line) :
    (s.setLine l r).line j = if l = j then r else s.line j := by simp [State.setLine, State.line]
@[simp] theorem State.setLine_row (s : State) (l : Line) (r : LineRec) (j : Line) : (s.setLine l r).row j = s.row j := rfl
@[simp] theorem State.setLine_group (s : State) (l : Line) (r : LineRec) (j : Grp) : (s.setLine l r).group j = s.group j := rfl
@[simp] theorem State.setLine_call (s : State) (l : Line) (r : LineRec) (j : CallNo) : (s.setLine l r).call j = s.call j := rfl
@[simp] theorem State.setLine_tap (s : State) (l : Line) (r : LineRec) (j : TapNo) : (s.setLine l r).tap j = s.tap j := rfl
@[simp] theorem State.setLine_runOf (s : State) (l : Line) (r : LineRec) (j : Pos) : (s.setLine l r).runOf j = s.runOf j := rfl
@[simp] theorem State.setLine_events (s : State) (l : Line) (r : LineRec) (j : Port) : (s.setLine l r).events j = s.events j := rfl
@[simp] theorem State.setLine_leg (s : State) (l : Line) (r : LineRec) (j : Leg) : (s.setLine l r).leg j = s.leg j := rfl

/-! ### setGroup -/

@[simp] theorem State.setGroup_lki (s : State) (g : Grp) (r : GroupRec) : (s.setGroup g r).lki = s.lki := rfl
@[simp] theorem State.setGroup_ptb (s : State) (g : Grp) (r : GroupRec) : (s.setGroup g r).ptb = s.ptb := rfl
@[simp] theorem State.setGroup_lcu (s : State) (g : Grp) (r : GroupRec) : (s.setGroup g r).lcu = s.lcu := rfl
@[simp] theorem State.setGroup_cmx (s : State) (g : Grp) (r : GroupRec) : (s.setGroup g r).cmx = s.cmx := rfl
@[simp] theorem State.setGroup_rtu (s : State) (g : Grp) (r : GroupRec) : (s.setGroup g r).rtu = s.rtu := rfl
@[simp] theorem State.setGroup_squ (s : State) (g : Grp) (r : GroupRec) : (s.setGroup g r).squ = s.squ := rfl
@[simp] theorem State.setGroup_evu (s : State) (g : Grp) (r : GroupRec) : (s.setGroup g r).evu = s.evu := rfl
@[simp] theorem State.setGroup_chan (s : State) (g : Grp) (r : GroupRec) : (s.setGroup g r).chan = s.chan := rfl
@[simp] theorem State.setGroup_ticks (s : State) (g : Grp) (r : GroupRec) : (s.setGroup g r).ticks = s.ticks := rfl
@[simp] theorem State.setGroup_pending (s : State) (g : Grp) (r : GroupRec) : (s.setGroup g r).pending = s.pending := rfl
@[simp] theorem State.setGroup_gfu_alertCount (s : State) (g : Grp) (r : GroupRec) :
    (s.setGroup g r).gfu.alertCount = s.gfu.alertCount := rfl
@[simp] theorem State.setGroup_gfu_up (s : State) (g : Grp) (r : GroupRec) :
    (s.setGroup g r).gfu.up = s.gfu.up := rfl
@[simp] theorem State.setGroup_gfu_keptUp (s : State) (g : Grp) (r : GroupRec) :
    (s.setGroup g r).gfu.keptUp = s.gfu.keptUp := rfl
@[simp] theorem State.setGroup_port (s : State) (g : Grp) (r : GroupRec) (j : Port) : (s.setGroup g r).port j = s.port j := rfl
@[simp] theorem State.setGroup_pos (s : State) (g : Grp) (r : GroupRec) (j : Pos) : (s.setGroup g r).pos j = s.pos j := rfl
@[simp] theorem State.setGroup_line (s : State) (g : Grp) (r : GroupRec) (j : Line) : (s.setGroup g r).line j = s.line j := rfl
@[simp] theorem State.setGroup_row (s : State) (g : Grp) (r : GroupRec) (j : Line) : (s.setGroup g r).row j = s.row j := rfl
@[simp] theorem State.setGroup_group (s : State) (g : Grp) (r : GroupRec) (j : Grp) :
    (s.setGroup g r).group j = if g = j then r else s.group j := by simp [State.setGroup, State.group]
@[simp] theorem State.setGroup_call (s : State) (g : Grp) (r : GroupRec) (j : CallNo) : (s.setGroup g r).call j = s.call j := rfl
@[simp] theorem State.setGroup_tap (s : State) (g : Grp) (r : GroupRec) (j : TapNo) : (s.setGroup g r).tap j = s.tap j := rfl
@[simp] theorem State.setGroup_runOf (s : State) (g : Grp) (r : GroupRec) (j : Pos) : (s.setGroup g r).runOf j = s.runOf j := rfl
@[simp] theorem State.setGroup_events (s : State) (g : Grp) (r : GroupRec) (j : Port) : (s.setGroup g r).events j = s.events j := rfl
@[simp] theorem State.setGroup_leg (s : State) (g : Grp) (r : GroupRec) (j : Leg) : (s.setGroup g r).leg j = s.leg j := rfl

/-! ### setCall -/

@[simp] theorem State.setCall_lki (s : State) (c : CallNo) (r : CallRec) : (s.setCall c r).lki = s.lki := rfl
@[simp] theorem State.setCall_ptb (s : State) (c : CallNo) (r : CallRec) : (s.setCall c r).ptb = s.ptb := rfl
@[simp] theorem State.setCall_lcu (s : State) (c : CallNo) (r : CallRec) : (s.setCall c r).lcu = s.lcu := rfl
@[simp] theorem State.setCall_cmx (s : State) (c : CallNo) (r : CallRec) : (s.setCall c r).cmx = s.cmx := rfl
@[simp] theorem State.setCall_rtu (s : State) (c : CallNo) (r : CallRec) : (s.setCall c r).rtu = s.rtu := rfl
@[simp] theorem State.setCall_squ (s : State) (c : CallNo) (r : CallRec) : (s.setCall c r).squ = s.squ := rfl
@[simp] theorem State.setCall_evu (s : State) (c : CallNo) (r : CallRec) : (s.setCall c r).evu = s.evu := rfl
@[simp] theorem State.setCall_chan (s : State) (c : CallNo) (r : CallRec) : (s.setCall c r).chan = s.chan := rfl
@[simp] theorem State.setCall_ticks (s : State) (c : CallNo) (r : CallRec) : (s.setCall c r).ticks = s.ticks := rfl
@[simp] theorem State.setCall_pending (s : State) (c : CallNo) (r : CallRec) : (s.setCall c r).pending = s.pending := rfl
@[simp] theorem State.setCall_gfu_alertCount (s : State) (c : CallNo) (r : CallRec) :
    (s.setCall c r).gfu.alertCount = s.gfu.alertCount := rfl
@[simp] theorem State.setCall_gfu_up (s : State) (c : CallNo) (r : CallRec) :
    (s.setCall c r).gfu.up = s.gfu.up := rfl
@[simp] theorem State.setCall_gfu_keptUp (s : State) (c : CallNo) (r : CallRec) :
    (s.setCall c r).gfu.keptUp = s.gfu.keptUp := rfl
@[simp] theorem State.setCall_port (s : State) (c : CallNo) (r : CallRec) (j : Port) : (s.setCall c r).port j = s.port j := rfl
@[simp] theorem State.setCall_pos (s : State) (c : CallNo) (r : CallRec) (j : Pos) : (s.setCall c r).pos j = s.pos j := rfl
@[simp] theorem State.setCall_line (s : State) (c : CallNo) (r : CallRec) (j : Line) : (s.setCall c r).line j = s.line j := rfl
@[simp] theorem State.setCall_row (s : State) (c : CallNo) (r : CallRec) (j : Line) : (s.setCall c r).row j = s.row j := rfl
@[simp] theorem State.setCall_group (s : State) (c : CallNo) (r : CallRec) (j : Grp) : (s.setCall c r).group j = s.group j := rfl
@[simp] theorem State.setCall_call (s : State) (c : CallNo) (r : CallRec) (j : CallNo) :
    (s.setCall c r).call j = if c = j then r else s.call j := by simp [State.setCall, State.call]
@[simp] theorem State.setCall_tap (s : State) (c : CallNo) (r : CallRec) (j : TapNo) : (s.setCall c r).tap j = s.tap j := rfl
@[simp] theorem State.setCall_runOf (s : State) (c : CallNo) (r : CallRec) (j : Pos) : (s.setCall c r).runOf j = s.runOf j := rfl
@[simp] theorem State.setCall_events (s : State) (c : CallNo) (r : CallRec) (j : Port) : (s.setCall c r).events j = s.events j := rfl
@[simp] theorem State.setCall_leg (s : State) (c : CallNo) (r : CallRec) (j : Leg) : (s.setCall c r).leg j = s.leg j := rfl

/-! ### setTap -/

@[simp] theorem State.setTap_lki (s : State) (r : TapNo) (x : TapRec) : (s.setTap r x).lki = s.lki := rfl
@[simp] theorem State.setTap_ptb (s : State) (r : TapNo) (x : TapRec) : (s.setTap r x).ptb = s.ptb := rfl
@[simp] theorem State.setTap_lcu (s : State) (r : TapNo) (x : TapRec) : (s.setTap r x).lcu = s.lcu := rfl
@[simp] theorem State.setTap_gfu (s : State) (r : TapNo) (x : TapRec) : (s.setTap r x).gfu = s.gfu := rfl
@[simp] theorem State.setTap_cmx (s : State) (r : TapNo) (x : TapRec) : (s.setTap r x).cmx = s.cmx := rfl
@[simp] theorem State.setTap_squ (s : State) (r : TapNo) (x : TapRec) : (s.setTap r x).squ = s.squ := rfl
@[simp] theorem State.setTap_evu (s : State) (r : TapNo) (x : TapRec) : (s.setTap r x).evu = s.evu := rfl
@[simp] theorem State.setTap_chan (s : State) (r : TapNo) (x : TapRec) : (s.setTap r x).chan = s.chan := rfl
@[simp] theorem State.setTap_ticks (s : State) (r : TapNo) (x : TapRec) : (s.setTap r x).ticks = s.ticks := rfl
@[simp] theorem State.setTap_pending (s : State) (r : TapNo) (x : TapRec) : (s.setTap r x).pending = s.pending := rfl
@[simp] theorem State.setTap_rtu_faults (s : State) (r : TapNo) (x : TapRec) :
    (s.setTap r x).rtu.faults = s.rtu.faults := rfl
@[simp] theorem State.setTap_port (s : State) (r : TapNo) (x : TapRec) (j : Port) : (s.setTap r x).port j = s.port j := rfl
@[simp] theorem State.setTap_pos (s : State) (r : TapNo) (x : TapRec) (j : Pos) : (s.setTap r x).pos j = s.pos j := rfl
@[simp] theorem State.setTap_line (s : State) (r : TapNo) (x : TapRec) (j : Line) : (s.setTap r x).line j = s.line j := rfl
@[simp] theorem State.setTap_row (s : State) (r : TapNo) (x : TapRec) (j : Line) : (s.setTap r x).row j = s.row j := rfl
@[simp] theorem State.setTap_group (s : State) (r : TapNo) (x : TapRec) (j : Grp) : (s.setTap r x).group j = s.group j := rfl
@[simp] theorem State.setTap_call (s : State) (r : TapNo) (x : TapRec) (j : CallNo) : (s.setTap r x).call j = s.call j := rfl
@[simp] theorem State.setTap_tap (s : State) (r : TapNo) (x : TapRec) (j : TapNo) :
    (s.setTap r x).tap j = if r = j then x else s.tap j := by simp [State.setTap, State.tap]
@[simp] theorem State.setTap_runOf (s : State) (r : TapNo) (x : TapRec) (j : Pos) : (s.setTap r x).runOf j = s.runOf j := rfl
@[simp] theorem State.setTap_events (s : State) (r : TapNo) (x : TapRec) (j : Port) : (s.setTap r x).events j = s.events j := rfl
@[simp] theorem State.setTap_leg (s : State) (r : TapNo) (x : TapRec) (j : Leg) : (s.setTap r x).leg j = s.leg j := rfl

/-! ### setRun -/

@[simp] theorem State.setRun_lki (s : State) (p : Pos) (r : RunRec) : (s.setRun p r).lki = s.lki := rfl
@[simp] theorem State.setRun_ptb (s : State) (p : Pos) (r : RunRec) : (s.setRun p r).ptb = s.ptb := rfl
@[simp] theorem State.setRun_lcu (s : State) (p : Pos) (r : RunRec) : (s.setRun p r).lcu = s.lcu := rfl
@[simp] theorem State.setRun_gfu (s : State) (p : Pos) (r : RunRec) : (s.setRun p r).gfu = s.gfu := rfl
@[simp] theorem State.setRun_cmx (s : State) (p : Pos) (r : RunRec) : (s.setRun p r).cmx = s.cmx := rfl
@[simp] theorem State.setRun_rtu (s : State) (p : Pos) (r : RunRec) : (s.setRun p r).rtu = s.rtu := rfl
@[simp] theorem State.setRun_evu (s : State) (p : Pos) (r : RunRec) : (s.setRun p r).evu = s.evu := rfl
@[simp] theorem State.setRun_chan (s : State) (p : Pos) (r : RunRec) : (s.setRun p r).chan = s.chan := rfl
@[simp] theorem State.setRun_ticks (s : State) (p : Pos) (r : RunRec) : (s.setRun p r).ticks = s.ticks := rfl
@[simp] theorem State.setRun_pending (s : State) (p : Pos) (r : RunRec) : (s.setRun p r).pending = s.pending := rfl
@[simp] theorem State.setRun_squ_steps (s : State) (p : Pos) (r : RunRec) :
    (s.setRun p r).squ.steps = s.squ.steps := rfl
@[simp] theorem State.setRun_port (s : State) (p : Pos) (r : RunRec) (j : Port) : (s.setRun p r).port j = s.port j := rfl
@[simp] theorem State.setRun_pos (s : State) (p : Pos) (r : RunRec) (j : Pos) : (s.setRun p r).pos j = s.pos j := rfl
@[simp] theorem State.setRun_line (s : State) (p : Pos) (r : RunRec) (j : Line) : (s.setRun p r).line j = s.line j := rfl
@[simp] theorem State.setRun_row (s : State) (p : Pos) (r : RunRec) (j : Line) : (s.setRun p r).row j = s.row j := rfl
@[simp] theorem State.setRun_group (s : State) (p : Pos) (r : RunRec) (j : Grp) : (s.setRun p r).group j = s.group j := rfl
@[simp] theorem State.setRun_call (s : State) (p : Pos) (r : RunRec) (j : CallNo) : (s.setRun p r).call j = s.call j := rfl
@[simp] theorem State.setRun_tap (s : State) (p : Pos) (r : RunRec) (j : TapNo) : (s.setRun p r).tap j = s.tap j := rfl
@[simp] theorem State.setRun_runOf (s : State) (p : Pos) (r : RunRec) (j : Pos) :
    (s.setRun p r).runOf j = if p = j then r else s.runOf j := by simp [State.setRun, State.runOf]
@[simp] theorem State.setRun_events (s : State) (p : Pos) (r : RunRec) (j : Port) : (s.setRun p r).events j = s.events j := rfl
@[simp] theorem State.setRun_leg (s : State) (p : Pos) (r : RunRec) (j : Leg) : (s.setRun p r).leg j = s.leg j := rfl

/-! ### setEvents -/

@[simp] theorem State.setEvents_lki (s : State) (n : Port) (e : EventPort) : (s.setEvents n e).lki = s.lki := rfl
@[simp] theorem State.setEvents_ptb (s : State) (n : Port) (e : EventPort) : (s.setEvents n e).ptb = s.ptb := rfl
@[simp] theorem State.setEvents_lcu (s : State) (n : Port) (e : EventPort) : (s.setEvents n e).lcu = s.lcu := rfl
@[simp] theorem State.setEvents_gfu (s : State) (n : Port) (e : EventPort) : (s.setEvents n e).gfu = s.gfu := rfl
@[simp] theorem State.setEvents_cmx (s : State) (n : Port) (e : EventPort) : (s.setEvents n e).cmx = s.cmx := rfl
@[simp] theorem State.setEvents_rtu (s : State) (n : Port) (e : EventPort) : (s.setEvents n e).rtu = s.rtu := rfl
@[simp] theorem State.setEvents_squ (s : State) (n : Port) (e : EventPort) : (s.setEvents n e).squ = s.squ := rfl
@[simp] theorem State.setEvents_chan (s : State) (n : Port) (e : EventPort) : (s.setEvents n e).chan = s.chan := rfl
@[simp] theorem State.setEvents_ticks (s : State) (n : Port) (e : EventPort) : (s.setEvents n e).ticks = s.ticks := rfl
@[simp] theorem State.setEvents_pending (s : State) (n : Port) (e : EventPort) : (s.setEvents n e).pending = s.pending := rfl
@[simp] theorem State.setEvents_port (s : State) (n : Port) (e : EventPort) (j : Port) : (s.setEvents n e).port j = s.port j := rfl
@[simp] theorem State.setEvents_pos (s : State) (n : Port) (e : EventPort) (j : Pos) : (s.setEvents n e).pos j = s.pos j := rfl
@[simp] theorem State.setEvents_line (s : State) (n : Port) (e : EventPort) (j : Line) : (s.setEvents n e).line j = s.line j := rfl
@[simp] theorem State.setEvents_row (s : State) (n : Port) (e : EventPort) (j : Line) : (s.setEvents n e).row j = s.row j := rfl
@[simp] theorem State.setEvents_group (s : State) (n : Port) (e : EventPort) (j : Grp) : (s.setEvents n e).group j = s.group j := rfl
@[simp] theorem State.setEvents_call (s : State) (n : Port) (e : EventPort) (j : CallNo) : (s.setEvents n e).call j = s.call j := rfl
@[simp] theorem State.setEvents_tap (s : State) (n : Port) (e : EventPort) (j : TapNo) : (s.setEvents n e).tap j = s.tap j := rfl
@[simp] theorem State.setEvents_runOf (s : State) (n : Port) (e : EventPort) (j : Pos) : (s.setEvents n e).runOf j = s.runOf j := rfl
@[simp] theorem State.setEvents_events (s : State) (n : Port) (e : EventPort) (j : Port) :
    (s.setEvents n e).events j = if n = j then e else s.events j := by simp [State.setEvents, State.events]
@[simp] theorem State.setEvents_leg (s : State) (n : Port) (e : EventPort) (j : Leg) : (s.setEvents n e).leg j = s.leg j := rfl

/-! ### setLeg -/

@[simp] theorem State.setLeg_lki (s : State) (k : Leg) (r : LegRec) : (s.setLeg k r).lki = s.lki := rfl
@[simp] theorem State.setLeg_ptb (s : State) (k : Leg) (r : LegRec) : (s.setLeg k r).ptb = s.ptb := rfl
@[simp] theorem State.setLeg_lcu (s : State) (k : Leg) (r : LegRec) : (s.setLeg k r).lcu = s.lcu := rfl
@[simp] theorem State.setLeg_gfu (s : State) (k : Leg) (r : LegRec) : (s.setLeg k r).gfu = s.gfu := rfl
@[simp] theorem State.setLeg_rtu (s : State) (k : Leg) (r : LegRec) : (s.setLeg k r).rtu = s.rtu := rfl
@[simp] theorem State.setLeg_squ (s : State) (k : Leg) (r : LegRec) : (s.setLeg k r).squ = s.squ := rfl
@[simp] theorem State.setLeg_evu (s : State) (k : Leg) (r : LegRec) : (s.setLeg k r).evu = s.evu := rfl
@[simp] theorem State.setLeg_chan (s : State) (k : Leg) (r : LegRec) : (s.setLeg k r).chan = s.chan := rfl
@[simp] theorem State.setLeg_ticks (s : State) (k : Leg) (r : LegRec) : (s.setLeg k r).ticks = s.ticks := rfl
@[simp] theorem State.setLeg_pending (s : State) (k : Leg) (r : LegRec) : (s.setLeg k r).pending = s.pending := rfl
@[simp] theorem State.setLeg_cmx_free (s : State) (k : Leg) (r : LegRec) :
    (s.setLeg k r).cmx.free = s.cmx.free := rfl
@[simp] theorem State.setLeg_cmx_awaited (s : State) (k : Leg) (r : LegRec) :
    (s.setLeg k r).cmx.awaited = s.cmx.awaited := rfl
@[simp] theorem State.setLeg_cmx_truncated (s : State) (k : Leg) (r : LegRec) :
    (s.setLeg k r).cmx.truncated = s.cmx.truncated := rfl
@[simp] theorem State.setLeg_cmx_inProgress (s : State) (k : Leg) (r : LegRec) :
    (s.setLeg k r).cmx.inProgress = s.cmx.inProgress := rfl
@[simp] theorem State.setLeg_cmx_detectors (s : State) (k : Leg) (r : LegRec) :
    (s.setLeg k r).cmx.detectors = s.cmx.detectors := rfl
@[simp] theorem State.setLeg_cmx_micSet (s : State) (k : Leg) (r : LegRec) :
    (s.setLeg k r).cmx.micSet = s.cmx.micSet := rfl
@[simp] theorem State.setLeg_cmx_lineSet (s : State) (k : Leg) (r : LegRec) :
    (s.setLeg k r).cmx.lineSet = s.cmx.lineSet := rfl
@[simp] theorem State.setLeg_cmx_alertCount (s : State) (k : Leg) (r : LegRec) :
    (s.setLeg k r).cmx.alertCount = s.cmx.alertCount := rfl
@[simp] theorem State.setLeg_cmx_attentionCount (s : State) (k : Leg) (r : LegRec) :
    (s.setLeg k r).cmx.attentionCount = s.cmx.attentionCount := rfl
@[simp] theorem State.setLeg_port (s : State) (k : Leg) (r : LegRec) (j : Port) : (s.setLeg k r).port j = s.port j := rfl
@[simp] theorem State.setLeg_pos (s : State) (k : Leg) (r : LegRec) (j : Pos) : (s.setLeg k r).pos j = s.pos j := rfl
@[simp] theorem State.setLeg_line (s : State) (k : Leg) (r : LegRec) (j : Line) : (s.setLeg k r).line j = s.line j := rfl
@[simp] theorem State.setLeg_row (s : State) (k : Leg) (r : LegRec) (j : Line) : (s.setLeg k r).row j = s.row j := rfl
@[simp] theorem State.setLeg_group (s : State) (k : Leg) (r : LegRec) (j : Grp) : (s.setLeg k r).group j = s.group j := rfl
@[simp] theorem State.setLeg_call (s : State) (k : Leg) (r : LegRec) (j : CallNo) : (s.setLeg k r).call j = s.call j := rfl
@[simp] theorem State.setLeg_tap (s : State) (k : Leg) (r : LegRec) (j : TapNo) : (s.setLeg k r).tap j = s.tap j := rfl
@[simp] theorem State.setLeg_runOf (s : State) (k : Leg) (r : LegRec) (j : Pos) : (s.setLeg k r).runOf j = s.runOf j := rfl
@[simp] theorem State.setLeg_events (s : State) (k : Leg) (r : LegRec) (j : Port) : (s.setLeg k r).events j = s.events j := rfl
@[simp] theorem State.setLeg_leg (s : State) (k : Leg) (r : LegRec) (j : Leg) :
    (s.setLeg k r).leg j = if k = j then r else s.leg j := by simp [State.setLeg, State.leg]

/-! ### emit -/

@[simp] theorem State.emit_lki (s : State) (o : Sends) : (s.emit o).lki = s.lki := rfl
@[simp] theorem State.emit_ptb (s : State) (o : Sends) : (s.emit o).ptb = s.ptb := rfl
@[simp] theorem State.emit_lcu (s : State) (o : Sends) : (s.emit o).lcu = s.lcu := rfl
@[simp] theorem State.emit_gfu (s : State) (o : Sends) : (s.emit o).gfu = s.gfu := rfl
@[simp] theorem State.emit_cmx (s : State) (o : Sends) : (s.emit o).cmx = s.cmx := rfl
@[simp] theorem State.emit_rtu (s : State) (o : Sends) : (s.emit o).rtu = s.rtu := rfl
@[simp] theorem State.emit_squ (s : State) (o : Sends) : (s.emit o).squ = s.squ := rfl
@[simp] theorem State.emit_evu (s : State) (o : Sends) : (s.emit o).evu = s.evu := rfl
@[simp] theorem State.emit_ticks (s : State) (o : Sends) : (s.emit o).ticks = s.ticks := rfl
@[simp] theorem State.emit_pending (s : State) (o : Sends) : (s.emit o).pending = s.pending := rfl
@[simp] theorem State.emit_port (s : State) (o : Sends) (j : Port) : (s.emit o).port j = s.port j := rfl
@[simp] theorem State.emit_pos (s : State) (o : Sends) (j : Pos) : (s.emit o).pos j = s.pos j := rfl
@[simp] theorem State.emit_line (s : State) (o : Sends) (j : Line) : (s.emit o).line j = s.line j := rfl
@[simp] theorem State.emit_row (s : State) (o : Sends) (j : Line) : (s.emit o).row j = s.row j := rfl
@[simp] theorem State.emit_group (s : State) (o : Sends) (j : Grp) : (s.emit o).group j = s.group j := rfl
@[simp] theorem State.emit_call (s : State) (o : Sends) (j : CallNo) : (s.emit o).call j = s.call j := rfl
@[simp] theorem State.emit_tap (s : State) (o : Sends) (j : TapNo) : (s.emit o).tap j = s.tap j := rfl
@[simp] theorem State.emit_runOf (s : State) (o : Sends) (j : Pos) : (s.emit o).runOf j = s.runOf j := rfl
@[simp] theorem State.emit_events (s : State) (o : Sends) (j : Port) : (s.emit o).events j = s.events j := rfl
@[simp] theorem State.emit_leg (s : State) (o : Sends) (j : Leg) : (s.emit o).leg j = s.leg j := rfl
@[simp] theorem State.emit_chan (s : State) (o : Sends) : (s.emit o).chan = s.chan.add o := rfl

/-! ### setChan -/

@[simp] theorem State.setChan_lki (s : State) (c : Chan) : (s.setChan c).lki = s.lki := rfl
@[simp] theorem State.setChan_ptb (s : State) (c : Chan) : (s.setChan c).ptb = s.ptb := rfl
@[simp] theorem State.setChan_lcu (s : State) (c : Chan) : (s.setChan c).lcu = s.lcu := rfl
@[simp] theorem State.setChan_gfu (s : State) (c : Chan) : (s.setChan c).gfu = s.gfu := rfl
@[simp] theorem State.setChan_cmx (s : State) (c : Chan) : (s.setChan c).cmx = s.cmx := rfl
@[simp] theorem State.setChan_rtu (s : State) (c : Chan) : (s.setChan c).rtu = s.rtu := rfl
@[simp] theorem State.setChan_squ (s : State) (c : Chan) : (s.setChan c).squ = s.squ := rfl
@[simp] theorem State.setChan_evu (s : State) (c : Chan) : (s.setChan c).evu = s.evu := rfl
@[simp] theorem State.setChan_ticks (s : State) (c : Chan) : (s.setChan c).ticks = s.ticks := rfl
@[simp] theorem State.setChan_pending (s : State) (c : Chan) : (s.setChan c).pending = s.pending := rfl
@[simp] theorem State.setChan_port (s : State) (c : Chan) (j : Port) : (s.setChan c).port j = s.port j := rfl
@[simp] theorem State.setChan_pos (s : State) (c : Chan) (j : Pos) : (s.setChan c).pos j = s.pos j := rfl
@[simp] theorem State.setChan_line (s : State) (c : Chan) (j : Line) : (s.setChan c).line j = s.line j := rfl
@[simp] theorem State.setChan_row (s : State) (c : Chan) (j : Line) : (s.setChan c).row j = s.row j := rfl
@[simp] theorem State.setChan_group (s : State) (c : Chan) (j : Grp) : (s.setChan c).group j = s.group j := rfl
@[simp] theorem State.setChan_call (s : State) (c : Chan) (j : CallNo) : (s.setChan c).call j = s.call j := rfl
@[simp] theorem State.setChan_tap (s : State) (c : Chan) (j : TapNo) : (s.setChan c).tap j = s.tap j := rfl
@[simp] theorem State.setChan_runOf (s : State) (c : Chan) (j : Pos) : (s.setChan c).runOf j = s.runOf j := rfl
@[simp] theorem State.setChan_events (s : State) (c : Chan) (j : Port) : (s.setChan c).events j = s.events j := rfl
@[simp] theorem State.setChan_leg (s : State) (c : Chan) (j : Leg) : (s.setChan c).leg j = s.leg j := rfl
@[simp] theorem State.setChan_chan (s : State) (c : Chan) : (s.setChan c).chan = c := rfl

/-! ### What is sent -/

@[simp] theorem Chan.add_given (c : Chan) (o : Sends) : (c.add o).given = c.given ++ o.given := rfl
@[simp] theorem Chan.add_notices (c : Chan) (o : Sends) : (c.add o).notices = c.notices ++ o.notices := rfl
@[simp] theorem Chan.add_fromLcu (c : Chan) (o : Sends) : (c.add o).fromLcu = c.fromLcu ++ o.fromLcu := rfl
@[simp] theorem Chan.add_fromGfu (c : Chan) (o : Sends) : (c.add o).fromGfu = c.fromGfu ++ o.fromGfu := rfl
@[simp] theorem Chan.add_toLcu (c : Chan) (o : Sends) : (c.add o).toLcu = c.toLcu ++ o.toLcu := rfl
@[simp] theorem Chan.add_toGfu (c : Chan) (o : Sends) : (c.add o).toGfu = c.toGfu ++ o.toGfu := rfl
@[simp] theorem Chan.add_listening (c : Chan) (o : Sends) : (c.add o).listening = c.listening ++ o.listening := rfl
@[simp] theorem Chan.add_ups (c : Chan) (o : Sends) : (c.add o).ups = c.ups := rfl
@[simp] theorem Chan.add_downPtb (c : Chan) (o : Sends) : (c.add o).downPtb = c.downPtb := rfl
@[simp] theorem Chan.add_downLcu (c : Chan) (o : Sends) : (c.add o).downLcu = c.downLcu := rfl
@[simp] theorem Chan.add_downGfu (c : Chan) (o : Sends) : (c.add o).downGfu = c.downGfu := rfl
@[simp] theorem Chan.add_downSqu (c : Chan) (o : Sends) : (c.add o).downSqu = c.downSqu := rfl
@[simp] theorem Chan.add_downEvu (c : Chan) (o : Sends) : (c.add o).downEvu = c.downEvu := rfl
@[simp] theorem Chan.add_toRtu (c : Chan) (o : Sends) : (c.add o).toRtu = c.toRtu ++ o.toRtu := rfl
@[simp] theorem Chan.add_fromRtu (c : Chan) (o : Sends) : (c.add o).fromRtu = c.fromRtu := rfl
@[simp] theorem Chan.add_attachToLcu (c : Chan) (o : Sends) : (c.add o).attachToLcu = c.attachToLcu := rfl
@[simp] theorem Chan.add_attachToGfu (c : Chan) (o : Sends) : (c.add o).attachToGfu = c.attachToGfu := rfl
@[simp] theorem Chan.add_talk (c : Chan) (o : Sends) : (c.add o).talk = c.talk := rfl
@[simp] theorem Chan.add_vox (c : Chan) (o : Sends) : (c.add o).vox = c.vox := rfl
@[simp] theorem Chan.add_submitted (c : Chan) (o : Sends) : (c.add o).submitted = c.submitted := rfl
@[simp] theorem Chan.add_outcomes (c : Chan) (o : Sends) : (c.add o).outcomes = c.outcomes := rfl
@[simp] theorem Sends.and_given (a b : Sends) : (a.and b).given = a.given ++ b.given := rfl
@[simp] theorem Sends.and_notices (a b : Sends) : (a.and b).notices = a.notices ++ b.notices := rfl
@[simp] theorem Sends.and_fromLcu (a b : Sends) : (a.and b).fromLcu = a.fromLcu ++ b.fromLcu := rfl
@[simp] theorem Sends.and_fromGfu (a b : Sends) : (a.and b).fromGfu = a.fromGfu ++ b.fromGfu := rfl
@[simp] theorem Sends.and_toLcu (a b : Sends) : (a.and b).toLcu = a.toLcu ++ b.toLcu := rfl
@[simp] theorem Sends.and_toGfu (a b : Sends) : (a.and b).toGfu = a.toGfu ++ b.toGfu := rfl
@[simp] theorem Sends.and_toRtu (a b : Sends) : (a.and b).toRtu = a.toRtu ++ b.toRtu := rfl
@[simp] theorem Sends.and_listening (a b : Sends) : (a.and b).listening = a.listening ++ b.listening := rfl

/-- Sending nothing changes nothing. -/
@[simp] theorem State.emit_nothing (s : State) : s.emit {} = s := by
  simp [State.emit, Chan.add]

/-- Sending one thing after another is sending both. -/
theorem State.emit_emit (s : State) (a b : Sends) : (s.emit a).emit b = s.emit (a.and b) := by
  simp [State.emit, Chan.add, Sends.and]

end Sys2Proof.Machine
end

