-- ==== Sys2Proof/Laws/Requests.lean ====
section
/-! SUPPORT. What the dispatcher's operations do, said once: taking a request whose hypotheses are met, and refusing one. -/

namespace Sys2Proof.Machine

theorem State.awaits_of_heads {s : State} {n : Port} {k : ReqKind} {f : Frame} (h : s.Heads n k f)
    (ok : Frame → Bool) : s.awaits n ok = if ok f then some f else none := by
  obtain ⟨h1, h2, h3, -⟩ := h
  cases hq : (s.port n).queue with
  | nil => simp [hq] at h3
  | cons g rest =>
    obtain rfl : g = f := by simpa [hq] using h3
    simp [State.awaits, h1, h2, hq]

/-- A request that passes the checks of R166 goes to its owner with its body, once the owner may take it. -/
theorem State.dispatchIf_of_offers {s : State} {n : Port} {k : ReqKind} {f : Frame} (h : s.Offers n k f)
    {ok : List Byte → Bool} (hok : ok f.body = true) (own : List Byte → State → State) :
    s.dispatchIf k n ok own = own f.body (s.takeFrame n f) := by
  obtain ⟨h1, h2, h3⟩ := h
  simp [State.dispatchIf, State.awaits_of_heads h1, h1.2.2.2, hok, h2, h3]

theorem State.dispatch_of_offers {s : State} {n : Port} {k : ReqKind} {f : Frame} (h : s.Offers n k f)
    (own : List Byte → State → State) : s.dispatch k n own = own f.body (s.takeFrame n f) :=
  State.dispatchIf_of_offers h rfl own

theorem State.tapRequest_of_offers {s : State} {n : Port} {k : ReqKind} {f : Frame} (h : s.Offers n k f) {r : TapNo}
    (hr : numOf 16 (byteAt f.body 0) = some r) (own : TapNo → List Byte → State → State) :
    s.tapRequest k n own = own r f.body (s.takeFrame n f) := by
  simp [State.tapRequest, State.dispatch_of_offers h, hr]

/-- Check 2 of R166. -/
theorem State.dispatchIf_not_permitted {s : State} {n : Port} {k : ReqKind} {f : Frame} (h : s.Heads n k f)
    (hp : k.permitted n = false) (ok : List Byte → Bool) (own : List Byte → State → State) :
    s.dispatchIf k n ok own = (s.takeFrame n f).answer (.port n) .notPermitted := by
  simp [State.dispatchIf, State.awaits_of_heads h, h.2.2.2, hp]

/-- Check 3 of R166. -/
theorem State.dispatchIf_bad_length {s : State} {n : Port} {k : ReqKind} {f : Frame} (h : s.Heads n k f)
    (hp : k.permitted n = true) (hl : k.lengthOk f.body.length = false) (ok : List Byte → Bool)
    (own : List Byte → State → State) :
    s.dispatchIf k n ok own = (s.takeFrame n f).answer (.port n) .badValue := by
  simp [State.dispatchIf, State.awaits_of_heads h, h.2.2.2, hp, hl]

/-- A position's request goes to its owner, who is told the position and which of its senders it was. -/
theorem State.request_of_sends {s t : State} {r : Requester} {k : ReqKind} {p : Pos} {body : List Byte}
    (h : s.Submits r k p body t) (own : Pos → Via → List Byte → State → State) :
    s.request k r own = own p (requesterVia r) body t := by
  cases r with
  | port n =>
    obtain ⟨hp, f, hf, rfl, rfl⟩ := h
    simp [State.request, State.dispatch_of_offers hf, hp, requesterVia]
  | run q =>
    obtain ⟨rfl, o, ho, rfl, rfl⟩ := h
    simp [State.request, State.takeStep, ho, requesterVia]

theorem portOf_of_posOf {n : Port} {p : Pos} (h : posOf n = some p) : portOf p = n := by
  unfold posOf at h
  split at h
  · obtain rfl : _ = p := by simpa using h
    rfl
  · simp at h

/-- The answer that goes to a position's sender goes to the requester. -/
theorem State.reply_of_sends {s t : State} {r : Requester} {k : ReqKind} {p : Pos} {body : List Byte}
    (h : s.Submits r k p body t) (u : State) (c : Code) : u.reply p (requesterVia r) c = u.answer r c := by
  cases r with
  | port n =>
    simp [State.reply, requesterVia, requesterOf, portOf_of_posOf h.1]
  | run q =>
    obtain rfl := h.1
    rfl

end Sys2Proof.Machine
end

