-- ==== Sys2Proof/Laws/Answers.lean ====
section
/-! SUPPORT. Taking a frame, answering and replying: what each leaves as it was, and what it writes. -/

namespace Sys2Proof.Machine

/-! ### takeFrame -/

@[simp] theorem State.takeFrame_ptb (s : State) (n : Port) (f : Frame) : (s.takeFrame n f).ptb = s.ptb := rfl
@[simp] theorem State.takeFrame_lcu (s : State) (n : Port) (f : Frame) : (s.takeFrame n f).lcu = s.lcu := rfl
@[simp] theorem State.takeFrame_gfu (s : State) (n : Port) (f : Frame) : (s.takeFrame n f).gfu = s.gfu := rfl
@[simp] theorem State.takeFrame_cmx (s : State) (n : Port) (f : Frame) : (s.takeFrame n f).cmx = s.cmx := rfl
@[simp] theorem State.takeFrame_rtu (s : State) (n : Port) (f : Frame) : (s.takeFrame n f).rtu = s.rtu := rfl
@[simp] theorem State.takeFrame_squ (s : State) (n : Port) (f : Frame) : (s.takeFrame n f).squ = s.squ := rfl
@[simp] theorem State.takeFrame_evu (s : State) (n : Port) (f : Frame) : (s.takeFrame n f).evu = s.evu := rfl
@[simp] theorem State.takeFrame_chan (s : State) (n : Port) (f : Frame) : (s.takeFrame n f).chan = s.chan := rfl
@[simp] theorem State.takeFrame_ticks (s : State) (n : Port) (f : Frame) : (s.takeFrame n f).ticks = s.ticks := rfl
@[simp] theorem State.takeFrame_pending (s : State) (n : Port) (f : Frame) : (s.takeFrame n f).pending = s.pending := rfl
@[simp] theorem State.takeFrame_pos (s : State) (n : Port) (f : Frame) (j : Pos) : (s.takeFrame n f).pos j = s.pos j := rfl
@[simp] theorem State.takeFrame_line (s : State) (n : Port) (f : Frame) (j : Line) : (s.takeFrame n f).line j = s.line j := rfl
@[simp] theorem State.takeFrame_row (s : State) (n : Port) (f : Frame) (j : Line) : (s.takeFrame n f).row j = s.row j := rfl
@[simp] theorem State.takeFrame_group (s : State) (n : Port) (f : Frame) (j : Grp) : (s.takeFrame n f).group j = s.group j := rfl
@[simp] theorem State.takeFrame_call (s : State) (n : Port) (f : Frame) (j : CallNo) : (s.takeFrame n f).call j = s.call j := rfl
@[simp] theorem State.takeFrame_tap (s : State) (n : Port) (f : Frame) (j : TapNo) : (s.takeFrame n f).tap j = s.tap j := rfl
@[simp] theorem State.takeFrame_runOf (s : State) (n : Port) (f : Frame) (j : Pos) : (s.takeFrame n f).runOf j = s.runOf j := rfl
@[simp] theorem State.takeFrame_events (s : State) (n : Port) (f : Frame) (j : Port) : (s.takeFrame n f).events j = s.events j := rfl
@[simp] theorem State.takeFrame_leg (s : State) (n : Port) (f : Frame) (j : Leg) : (s.takeFrame n f).leg j = s.leg j := rfl
@[simp] theorem State.takeFrame_lki_softReset (s : State) (n : Port) (f : Frame) :
    (s.takeFrame n f).lki.softReset = s.lki.softReset := rfl
@[simp] theorem State.takeFrame_lki_powerOn (s : State) (n : Port) (f : Frame) :
    (s.takeFrame n f).lki.powerOn = s.lki.powerOn := rfl
@[simp] theorem State.takeFrame_port (s : State) (n : Port) (f : Frame) (j : Port) :
    (s.takeFrame n f).port j =
      if n = j then { s.port n with queue := (s.port n).queue.tail, inFlight := some ⟨f.tag, f.kind, false⟩ } else s.port j := by
  simp [State.takeFrame, State.port]

/-! ### answer -/

@[simp] theorem State.answer_ptb (s : State) (r : Requester) (c : Code) (b : List Byte) :
    (s.answer r c b).ptb = s.ptb := by
  cases r with
  | port n => simp only [State.answer]; split <;> rfl
  | run p => rfl
@[simp] theorem State.answer_lcu (s : State) (r : Requester) (c : Code) (b : List Byte) :
    (s.answer r c b).lcu = s.lcu := by
  cases r with
  | port n => simp only [State.answer]; split <;> rfl
  | run p => rfl
@[simp] theorem State.answer_gfu (s : State) (r : Requester) (c : Code) (b : List Byte) :
    (s.answer r c b).gfu = s.gfu := by
  cases r with
  | port n => simp only [State.answer]; split <;> rfl
  | run p => rfl
@[simp] theorem State.answer_cmx (s : State) (r : Requester) (c : Code) (b : List Byte) :
    (s.answer r c b).cmx = s.cmx := by
  cases r with
  | port n => simp only [State.answer]; split <;> rfl
  | run p => rfl
@[simp] theorem State.answer_rtu (s : State) (r : Requester) (c : Code) (b : List Byte) :
    (s.answer r c b).rtu = s.rtu := by
  cases r with
  | port n => simp only [State.answer]; split <;> rfl
  | run p => rfl
@[simp] theorem State.answer_squ (s : State) (r : Requester) (c : Code) (b : List Byte) :
    (s.answer r c b).squ = s.squ := by
  cases r with
  | port n => simp only [State.answer]; split <;> rfl
  | run p => rfl
@[simp] theorem State.answer_evu (s : State) (r : Requester) (c : Code) (b : List Byte) :
    (s.answer r c b).evu = s.evu := by
  cases r with
  | port n => simp only [State.answer]; split <;> rfl
  | run p => rfl
@[simp] theorem State.answer_ticks (s : State) (r : Requester) (c : Code) (b : List Byte) :
    (s.answer r c b).ticks = s.ticks := by
  cases r with
  | port n => simp only [State.answer]; split <;> rfl
  | run p => rfl
@[simp] theorem State.answer_pending (s : State) (r : Requester) (c : Code) (b : List Byte) :
    (s.answer r c b).pending = s.pending := by
  cases r with
  | port n => simp only [State.answer]; split <;> rfl
  | run p => rfl
@[simp] theorem State.answer_pos (s : State) (r : Requester) (c : Code) (b : List Byte) (j : Pos) :
    (s.answer r c b).pos j = s.pos j := by
  cases r with
  | port n => simp only [State.answer]; split <;> rfl
  | run p => rfl
@[simp] theorem State.answer_line (s : State) (r : Requester) (c : Code) (b : List Byte) (j : Line) :
    (s.answer r c b).line j = s.line j := by
  cases r with
  | port n => simp only [State.answer]; split <;> rfl
  | run p => rfl
@[simp] theorem State.answer_row (s : State) (r : Requester) (c : Code) (b : List Byte) (j : Line) :
    (s.answer r c b).row j = s.row j := by
  cases r with
  | port n => simp only [State.answer]; split <;> rfl
  | run p => rfl
@[simp] theorem State.answer_group (s : State) (r : Requester) (c : Code) (b : List Byte) (j : Grp) :
    (s.answer r c b).group j = s.group j := by
  cases r with
  | port n => simp only [State.answer]; split <;> rfl
  | run p => rfl
@[simp] theorem State.answer_call (s : State) (r : Requester) (c : Code) (b : List Byte) (j : CallNo) :
    (s.answer r c b).call j = s.call j := by
  cases r with
  | port n => simp only [State.answer]; split <;> rfl
  | run p => rfl
@[simp] theorem State.answer_tap (s : State) (r : Requester) (c : Code) (b : List Byte) (j : TapNo) :
    (s.answer r c b).tap j = s.tap j := by
  cases r with
  | port n => simp only [State.answer]; split <;> rfl
  | run p => rfl
@[simp] theorem State.answer_runOf (s : State) (r : Requester) (c : Code) (b : List Byte) (j : Pos) :
    (s.answer r c b).runOf j = s.runOf j := by
  cases r with
  | port n => simp only [State.answer]; split <;> rfl
  | run p => rfl
@[simp] theorem State.answer_events (s : State) (r : Requester) (c : Code) (b : List Byte) (j : Port) :
    (s.answer r c b).events j = s.events j := by
  cases r with
  | port n => simp only [State.answer]; split <;> rfl
  | run p => rfl
@[simp] theorem State.answer_leg (s : State) (r : Requester) (c : Code) (b : List Byte) (j : Leg) :
    (s.answer r c b).leg j = s.leg j := by
  cases r with
  | port n => simp only [State.answer]; split <;> rfl
  | run p => rfl
@[simp] theorem State.answer_lki_armed (s : State) (r : Requester) (c : Code) (b : List Byte) :
    (s.answer r c b).lki.armed = s.lki.armed := by
  cases r with
  | port n => simp only [State.answer]; split <;> rfl
  | run p => rfl
@[simp] theorem State.answer_lki_softReset (s : State) (r : Requester) (c : Code) (b : List Byte) :
    (s.answer r c b).lki.softReset = s.lki.softReset := by
  cases r with
  | port n => simp only [State.answer]; split <;> rfl
  | run p => rfl
@[simp] theorem State.answer_lki_powerOn (s : State) (r : Requester) (c : Code) (b : List Byte) :
    (s.answer r c b).lki.powerOn = s.lki.powerOn := by
  cases r with
  | port n => simp only [State.answer]; split <;> rfl
  | run p => rfl

/-- An answer to a port leaves the paths as they were. -/
@[simp] theorem State.answer_port_chan (s : State) (n : Port) (c : Code) (b : List Byte) :
    (s.answer (.port n) c b).chan = s.chan := by
  simp only [State.answer]; split <;> rfl

/-- An answer ends the request in flight, and touches nothing else of any port but the waiting reply. -/
theorem State.answer_port_frame (s : State) (r : Requester) (c : Code) (b : List Byte) (j : Port) :
    ∃ x y, (s.answer r c b).port j = { s.port j with inFlight := x, reply := y } := by
  cases r with
  | run p => exact ⟨_, _, rfl⟩
  | port n =>
    simp only [State.answer]
    split
    · exact ⟨_, _, rfl⟩
    · rw [State.setPort_port]
      split
      · next h => subst h; exact ⟨_, _, rfl⟩
      · exact ⟨_, _, rfl⟩

/-! ### reply -/

@[simp] theorem State.reply_ptb (s : State) (p : Pos) (v : Via) (c : Code) : (s.reply p v c).ptb = s.ptb := by
  simp [State.reply]
@[simp] theorem State.reply_lcu (s : State) (p : Pos) (v : Via) (c : Code) : (s.reply p v c).lcu = s.lcu := by
  simp [State.reply]
@[simp] theorem State.reply_gfu (s : State) (p : Pos) (v : Via) (c : Code) : (s.reply p v c).gfu = s.gfu := by
  simp [State.reply]
@[simp] theorem State.reply_cmx (s : State) (p : Pos) (v : Via) (c : Code) : (s.reply p v c).cmx = s.cmx := by
  simp [State.reply]
@[simp] theorem State.reply_rtu (s : State) (p : Pos) (v : Via) (c : Code) : (s.reply p v c).rtu = s.rtu := by
  simp [State.reply]
@[simp] theorem State.reply_squ (s : State) (p : Pos) (v : Via) (c : Code) : (s.reply p v c).squ = s.squ := by
  simp [State.reply]
@[simp] theorem State.reply_evu (s : State) (p : Pos) (v : Via) (c : Code) : (s.reply p v c).evu = s.evu := by
  simp [State.reply]
@[simp] theorem State.reply_ticks (s : State) (p : Pos) (v : Via) (c : Code) : (s.reply p v c).ticks = s.ticks := by
  simp [State.reply]
@[simp] theorem State.reply_pending (s : State) (p : Pos) (v : Via) (c : Code) : (s.reply p v c).pending = s.pending := by
  simp [State.reply]
@[simp] theorem State.reply_pos (s : State) (p : Pos) (v : Via) (c : Code) (j : Pos) :
    (s.reply p v c).pos j = s.pos j := by simp [State.reply]
@[simp] theorem State.reply_line (s : State) (p : Pos) (v : Via) (c : Code) (j : Line) :
    (s.reply p v c).line j = s.line j := by simp [State.reply]
@[simp] theorem State.reply_row (s : State) (p : Pos) (v : Via) (c : Code) (j : Line) :
    (s.reply p v c).row j = s.row j := by simp [State.reply]
@[simp] theorem State.reply_group (s : State) (p : Pos) (v : Via) (c : Code) (j : Grp) :
    (s.reply p v c).group j = s.group j := by simp [State.reply]
@[simp] theorem State.reply_call (s : State) (p : Pos) (v : Via) (c : Code) (j : CallNo) :
    (s.reply p v c).call j = s.call j := by simp [State.reply]
@[simp] theorem State.reply_tap (s : State) (p : Pos) (v : Via) (c : Code) (j : TapNo) :
    (s.reply p v c).tap j = s.tap j := by simp [State.reply]
@[simp] theorem State.reply_runOf (s : State) (p : Pos) (v : Via) (c : Code) (j : Pos) :
    (s.reply p v c).runOf j = s.runOf j := by simp [State.reply]
@[simp] theorem State.reply_events (s : State) (p : Pos) (v : Via) (c : Code) (j : Port) :
    (s.reply p v c).events j = s.events j := by simp [State.reply]
@[simp] theorem State.reply_leg (s : State) (p : Pos) (v : Via) (c : Code) (j : Leg) :
    (s.reply p v c).leg j = s.leg j := by simp [State.reply]

end Sys2Proof.Machine
end

