-- ==== Sys2Proof/Laws/Mix.lean ====
section
/-! SUPPORT. What a derived list keeps of its entries, and what a receiver takes by a command. -/

namespace Sys2Proof.Machine

/-- A list with each source once is what the entries are, less some of them, in their order (R97). -/
theorem eachSourceOnce_sublist (es : List MixEntry) : (eachSourceOnce es).Sublist es := by
  induction es with
  | nil => exact .slnil
  | cons e es ih => exact (List.filter_sublist.trans ih).cons_cons e

/-- No source stands twice (R97). -/
theorem eachSourceOnce_once (es : List MixEntry) : (eachSourceOnce es).Pairwise fun a b => a.src ≠ b.src := by
  induction es with
  | nil => exact .nil
  | cons e es ih =>
    refine .cons (fun x hx => ?_) (ih.filter _)
    simpa [ne_comm] using (List.mem_filter.mp hx).2

/-- Every source of the entries is kept (R97). -/
theorem eachSourceOnce_keeps {es : List MixEntry} {e : MixEntry} (h : e ∈ es) : ∃ x ∈ eachSourceOnce es, x.src = e.src := by
  induction es with
  | nil => cases h
  | cons a es ih =>
    by_cases ha : a.src = e.src
    · exact ⟨a, by simp [eachSourceOnce], ha⟩
    · rcases List.mem_cons.mp h with rfl | h
      · exact absurd rfl ha
      · obtain ⟨x, hx, hs⟩ := ih h
        exact ⟨x, by simp [eachSourceOnce, hx, hs, Ne.symm ha], hs⟩

/-- A receiver takes the bytes of a command, or SYNC_B and then those (R157). -/
theorem bytesTaken_cases (x : Rx) (bytes : List Byte) (named : RxEvent → Bool) :
    bytesTaken x bytes named = bytes
      ∨ x.inPair = true ∧ bytesTaken x bytes named = Config.syncB :: bytes := by
  unfold bytesTaken
  split
  · next h => exact .inr ⟨(Bool.and_eq_true_iff.mp h).1, rfl⟩
  · exact .inl rfl

end Sys2Proof.Machine
end

