-- ==== Sys2Proof/Laws/Loop.lean ====
section
/-! SUPPORT. What a receiver takes of stuffed bytes, and what the loop of a LOCAL_LOOP port gives it and keeps. -/

namespace Sys2Proof.Machine

/-! ## Receivers -/

/-- Bytes that make a receiver report nothing are passed over by the search for its first report. -/
theorem Rx.takeUntil_append_of_silent {x : Rx} {a : List Byte} (b : List Byte) (h : (x.takeAll a).2 = []) :
    x.takeUntil (a ++ b) = (x.takeAll a).1.takeUntil b := by
  induction a generalizing x with
  | nil => rfl
  | cons c a ih =>
    simp only [Rx.takeAll, List.append_eq_nil_iff] at h
    simp [Rx.takeUntil, Rx.takeAll, h.1, ih h.2]

/-- The bytes up to the first report are passed over, and the last of them makes it. -/
theorem Rx.takeUntil_some {x y : Rx} {es : List RxEvent} {bytes rest : List Byte} (h : x.takeUntil bytes = some (y, es, rest)) :
    ∃ pre b, bytes = pre ++ b :: rest ∧ (x.takeAll pre).2 = [] ∧ (x.takeAll pre).1.take b = (y, es) ∧ es ≠ [] := by
  induction bytes generalizing x with
  | nil => cases h
  | cons c bs ih =>
    simp only [Rx.takeUntil] at h
    split at h
    · next he =>
      obtain ⟨pre, b, rfl, hs, ht, hn⟩ := ih h
      exact ⟨c :: pre, b, rfl, by simp [Rx.takeAll, List.isEmpty_iff.mp he, hs], by simpa [Rx.takeAll] using ht, hn⟩
    · next he =>
      cases h
      exact ⟨[], c, rfl, rfl, rfl, by simpa using he⟩

/-- Taking one run of bytes and then another (R156). -/
theorem Rx.takeAll_append (x : Rx) (a b : List Byte) :
    x.takeAll (a ++ b) = (((x.takeAll a).1.takeAll b).1, (x.takeAll a).2 ++ ((x.takeAll a).1.takeAll b).2) := by
  induction a generalizing x with
  | nil => rfl
  | cons c a ih => simp [Rx.takeAll, ih]

/-- A receiver in HUNT takes no byte (R156). -/
@[simp] theorem Rx.takeAll_hunting (bytes : List Byte) : Rx.hunting.takeAll bytes = (Rx.hunting, []) := by
  induction bytes with
  | nil => rfl
  | cons b bs ih => simp only [Rx.takeAll, show Rx.hunting.take b = (Rx.hunting, []) from rfl, ih, List.append_nil]

/-- A receiver that has lost the alignment by a run of bytes is not SYNCED at its end (R156). -/
theorem Rx.takeAll_lost {x : Rx} {l : List Byte} (h : RxEvent.lost ∈ (x.takeAll l).2) : (x.takeAll l).1.state ≠ .synced := by
  induction l generalizing x with
  | nil => simp [Rx.takeAll] at h
  | cons b l ih =>
    simp only [Rx.takeAll, List.mem_append] at h ⊢
    rcases h with h | h
    · have : (x.take b).1 = Rx.hunting := by
        revert h
        simp only [Rx.take, Rx.takeSynced, Rx.takeInFrame, Rx.append, Rx.insync]
        repeat' split
        all_goals simp
      rw [this, Rx.takeAll_hunting]; decide
    · exact ih h

/-- One data byte comes through its stuffing (R155, R157). -/
theorem Rx.takeAll_stuffByte (buf : List Byte) (b : Byte) (h : buf.length < Config.maxFrame) :
    (Rx.mk .inFrame none buf).takeAll (stuffByte b) = (⟨.inFrame, none, buf ++ [b]⟩, []) := by
  by_cases hb : isMark b = true
  · have hx : b ^^^ Config.stuffBit ^^^ Config.stuffBit = b := by rw [BitVec.xor_assoc, BitVec.xor_self, BitVec.xor_zero]
    simp [stuffByte, hb, Rx.takeAll, Rx.take, Rx.takeInFrame, hx, Rx.append, h]
  · simp only [Bool.not_eq_true] at hb
    have he : (b == Config.esc) = false := by simp only [isMark, Bool.or_eq_false_iff] at hb; exact hb.2
    simp [stuffByte, hb, Rx.takeAll, Rx.take, Rx.takeInFrame, he, Rx.append, h]

/-- Data bytes come through their stuffing, as far as the buffer has room (R155, R157). -/
theorem Rx.takeAll_stuffed (buf data : List Byte) (h : buf.length + data.length ≤ Config.maxFrame) :
    (Rx.mk .inFrame none buf).takeAll (data.flatMap stuffByte) = (⟨.inFrame, none, buf ++ data⟩, []) := by
  induction data generalizing buf with
  | nil => simp [Rx.takeAll]
  | cons b data ih =>
    simp only [List.length_cons] at h
    rw [List.flatMap_cons, Rx.takeAll_append, Rx.takeAll_stuffByte buf b (by omega), ih _ (by simp; omega)]
    simp

/-! ## The loop -/

/-- What comes after the first pair of a run of bytes (R156). -/
theorem afterPair_first {pre rest : List Byte} (h : ¬[Config.syncA, Config.syncB] <:+: pre ++ [Config.syncA]) :
    afterPair (pre ++ [Config.syncA, Config.syncB] ++ rest) = rest := by
  induction pre with
  | nil => simp [afterPair]
  | cons a pre ih =>
    have h' : ¬[Config.syncA, Config.syncB] <:+: pre ++ [Config.syncA] := fun c => h (List.infix_cons c)
    have hne : ∀ b, (pre ++ [Config.syncA]).head? = some b → ¬(a = Config.syncA ∧ b = Config.syncB) := by
      rintro b hb ⟨rfl, rfl⟩
      obtain ⟨l, hl⟩ : ∃ l, pre ++ [Config.syncA] = Config.syncB :: l := List.head?_eq_some_iff.mp hb
      exact h ⟨[], l, by simp [hl]⟩
    cases pre with
    | nil => simpa [afterPair] using fun ha hb => absurd ⟨ha, hb⟩ (hne _ rfl)
    | cons b pre => simpa [afterPair, hne b rfl] using ih h'

/-- Nothing comes after the first pair where there is none. -/
theorem afterPair_none {l : List Byte} (h : ¬[Config.syncA, Config.syncB] <:+: l) : afterPair l = [] := by
  induction l with
  | nil => rfl
  | cons a l ih =>
    have h' := ih fun c => h (List.infix_cons c)
    cases l with
    | nil => rfl
    | cons b l =>
      have hne : ¬(a = Config.syncA ∧ b = Config.syncB) := by rintro ⟨rfl, rfl⟩; exact h ⟨[], l, by simp⟩
      simpa [afterPair, hne] using h'

/-- As many bytes leave the loop as its receiver takes. -/
theorem PortRec.loopAfter_append {r : PortRec} {sent rest : List Byte} (h : r.loop = sent ++ rest) :
    r.loopAfter sent.length = rest := by simp [PortRec.loopAfter, h]

/-- Bytes taken beyond what has been sent are idle fill, and leave the rest of its pair (R155). -/
theorem PortRec.loopAfter_beyond {r : PortRec} {k : Nat} (h : r.loop.length < k) :
    r.loopAfter k = if (k - r.loop.length) % 2 = 1 then [Config.syncB] else [] := by
  simp [PortRec.loopAfter, Nat.not_le.mpr h]

/-- What a receiver can take off its loop: nothing, or bytes that bring one report, the one that is named, and that do not
outrun what its transmitter sends. -/
theorem State.takeLoop_cases (s : State) (n : Port) (bytes : List Byte) (named : RxEvent → Bool) :
    s.takeLoop n bytes named = s
      ∨ ∃ x e es rest, (s.port n).rx.takeUntil bytes = some (x, e :: es, rest) ∧ named e = true
        ∧ ((s.port n).tx = none ∨ bytes.length ≤ (s.port n).loop.length)
        ∧ s.takeLoop n bytes named = (e :: es).foldl (fun u a => u.rxEvent n a)
            (s.setPort n { s.port n with rx := x, loop := (s.port n).loopAfter bytes.length }) := by
  unfold State.takeLoop
  dsimp only
  split
  · next hk =>
    split
    · next x e es rest ht =>
      split
      · next he => exact .inr ⟨x, e, es, rest, ht, he, hk, rfl⟩
      · exact .inl rfl
    · exact .inl rfl
  · exact .inl rfl

/-- What taking OPEN off the loop can do: nothing, or OPEN and the bytes before it leave the loop. -/
theorem State.takeOpen_cases (s : State) (n : Port) :
    s.takeOpen n = s
      ∨ ∃ x rest, (s.port n).rx.takeUntil (s.port n).loop = some (x, [.opened], rest)
        ∧ s.takeOpen n = s.setPort n { s.port n with rx := x, loop := rest } := by
  unfold State.takeOpen
  split
  · next x rest ht => exact .inr ⟨x, rest, ht, rfl⟩
  · exact .inl rfl

/-- What a command of a receiver can do: nothing, or its bytes are taken off the link or off the loop (R163). -/
theorem State.hear_cases (s : State) (n : Port) (due : RxState) (bytes : List Byte) (named : RxEvent → Bool) :
    s.hear n due bytes named = s
      ∨ (s.port n).rx.state = due ∧ (s.port n).mode = .localLoop
        ∧ s.hear n due bytes named = s.takeLoop n (bytesTaken (s.port n).rx bytes named) named
      ∨ (s.port n).rx.state = due ∧ (s.port n).mode ≠ .localLoop
        ∧ s.hear n due bytes named = s.receive n (bytesTaken (s.port n).rx bytes named) := by
  unfold State.hear
  dsimp only
  split
  · next hd => split <;> simp_all
  · exact .inl rfl

/-- A command of a receiver whose bytes bring one report, by their last byte and the one that the command names: off the link it
leaves the loop as it is and a REMOTE_ECHO port sends the bytes out again; off the loop as many bytes leave it (R156, R157, R163). -/
theorem State.hear_of_report {s : State} {n : Port} {r : PortRec} {due : RxState} {bytes taken pre loop : List Byte} {b : Byte}
    {named : RxEvent → Bool} {x : Rx} {e : RxEvent} {es : List RxEvent}
    (hr : s.port n = r) (hd : r.rx.state = due) (ht : bytesTaken r.rx bytes named = taken)
    (hp : taken = pre ++ [b]) (silent : (r.rx.takeAll pre).2 = []) (report : (r.rx.takeAll pre).1.take b = (x, e :: es))
    (hn : named e = true)
    (hl : r.mode ≠ .localLoop ∧ loop = r.loop
      ∨ r.mode = .localLoop ∧ (r.tx = none ∨ taken.length ≤ r.loop.length) ∧ loop = r.loopAfter taken.length) :
    s.hear n due bytes named = (e :: es).foldl (fun u a => u.rxEvent n a)
      (s.setPort n { r with rx := x, loop := loop, linkOut := if r.mode = .remoteEcho then taken else r.linkOut }) := by
  subst hr
  have hu : (s.port n).rx.takeUntil taken = some (x, e :: es, []) := by
    rw [hp, Rx.takeUntil_append_of_silent _ silent]; simp [Rx.takeUntil, report]
  have ha : (s.port n).rx.takeAll taken = (x, e :: es) := by
    rw [hp, Rx.takeAll_append, silent]; simp [Rx.takeAll, report]
  unfold State.hear
  rw [ht]
  rcases hl with ⟨hm, rfl⟩ | ⟨hm, hk, rfl⟩
  · simp [hd, hm, State.receive, ha]
  · simp [hd, hm, State.takeLoop, hu, hk, hn]

/-- A command for another state of the receiver does nothing (R156, R157). -/
theorem State.hear_not_due {s : State} {n : Port} {due : RxState} {bytes : List Byte} {named : RxEvent → Bool}
    (h : (s.port n).rx.state ≠ due) : s.hear n due bytes named = s := by simp [State.hear, h]

/-- While a frame is being sent, no more bytes come round the loop than its transmitter has put there (R155, R163). -/
theorem State.hear_outrun {s : State} {n : Port} {due : RxState} {bytes : List Byte} {named : RxEvent → Bool}
    (hm : (s.port n).mode = .localLoop) (ht : (s.port n).tx.isSome = true) (h : (s.port n).loop.length < bytes.length) :
    s.hear n due bytes named = s := by
  have hb : bytes.length ≤ (bytesTaken (s.port n).rx bytes named).length := by
    rcases bytesTaken_cases (s.port n).rx bytes named with h | h
    · simp [h]
    · simp [h.2]
  rcases State.hear_cases s n due bytes named with h' | ⟨-, -, h'⟩ | ⟨-, hm', -⟩
  · exact h'
  · rcases State.takeLoop_cases s n (bytesTaken (s.port n).rx bytes named) named with h'' | ⟨_, _, _, _, -, -, h1 | h1, -⟩
    · rw [h', h'']
    · simp [h1] at ht
    · omega
  · exact absurd hm hm'

end Sys2Proof.Machine
end

