-- ==== Sys2Proof/Laws/Paths.lean ====
section
/-! SUPPORT. The operations on the paths between the blocks: what each leaves as it was, and what taking a message means. And what
the dispatcher and the runs leave as it was, given what the owner does. -/

namespace Sys2Proof.Machine

/-! ### setToOwner -/

@[simp] theorem State.setToOwner_lki (s : State) (o : Owner) (l : List ToOwner) :
    (s.setToOwner o l).lki = s.lki := by
  cases o <;> rfl
@[simp] theorem State.setToOwner_ptb (s : State) (o : Owner) (l : List ToOwner) :
    (s.setToOwner o l).ptb = s.ptb := by
  cases o <;> rfl
@[simp] theorem State.setToOwner_lcu (s : State) (o : Owner) (l : List ToOwner) :
    (s.setToOwner o l).lcu = s.lcu := by
  cases o <;> rfl
@[simp] theorem State.setToOwner_gfu (s : State) (o : Owner) (l : List ToOwner) :
    (s.setToOwner o l).gfu = s.gfu := by
  cases o <;> rfl
@[simp] theorem State.setToOwner_cmx (s : State) (o : Owner) (l : List ToOwner) :
    (s.setToOwner o l).cmx = s.cmx := by
  cases o <;> rfl
@[simp] theorem State.setToOwner_rtu (s : State) (o : Owner) (l : List ToOwner) :
    (s.setToOwner o l).rtu = s.rtu := by
  cases o <;> rfl
@[simp] theorem State.setToOwner_squ (s : State) (o : Owner) (l : List ToOwner) :
    (s.setToOwner o l).squ = s.squ := by
  cases o <;> rfl
@[simp] theorem State.setToOwner_evu (s : State) (o : Owner) (l : List ToOwner) :
    (s.setToOwner o l).evu = s.evu := by
  cases o <;> rfl
@[simp] theorem State.setToOwner_ticks (s : State) (o : Owner) (l : List ToOwner) :
    (s.setToOwner o l).ticks = s.ticks := by
  cases o <;> rfl
@[simp] theorem State.setToOwner_pending (s : State) (o : Owner) (l : List ToOwner) :
    (s.setToOwner o l).pending = s.pending := by
  cases o <;> rfl
@[simp] theorem State.setToOwner_port (s : State) (o : Owner) (l : List ToOwner) (j : Port) :
    (s.setToOwner o l).port j = s.port j := by
  cases o <;> rfl
@[simp] theorem State.setToOwner_pos (s : State) (o : Owner) (l : List ToOwner) (j : Pos) :
    (s.setToOwner o l).pos j = s.pos j := by
  cases o <;> rfl
@[simp] theorem State.setToOwner_line (s : State) (o : Owner) (l : List ToOwner) (j : Line) :
    (s.setToOwner o l).line j = s.line j := by
  cases o <;> rfl
@[simp] theorem State.setToOwner_row (s : State) (o : Owner) (l : List ToOwner) (j : Line) :
    (s.setToOwner o l).row j = s.row j := by
  cases o <;> rfl
@[simp] theorem State.setToOwner_group (s : State) (o : Owner) (l : List ToOwner) (j : Grp) :
    (s.setToOwner o l).group j = s.group j := by
  cases o <;> rfl
@[simp] theorem State.setToOwner_call (s : State) (o : Owner) (l : List ToOwner) (j : CallNo) :
    (s.setToOwner o l).call j = s.call j := by
  cases o <;> rfl
@[simp] theorem State.setToOwner_tap (s : State) (o : Owner) (l : List ToOwner) (j : TapNo) :
    (s.setToOwner o l).tap j = s.tap j := by
  cases o <;> rfl
@[simp] theorem State.setToOwner_runOf (s : State) (o : Owner) (l : List ToOwner) (j : Pos) :
    (s.setToOwner o l).runOf j = s.runOf j := by
  cases o <;> rfl
@[simp] theorem State.setToOwner_events (s : State) (o : Owner) (l : List ToOwner) (j : Port) :
    (s.setToOwner o l).events j = s.events j := by
  cases o <;> rfl
@[simp] theorem State.setToOwner_leg (s : State) (o : Owner) (l : List ToOwner) (j : Leg) :
    (s.setToOwner o l).leg j = s.leg j := by
  cases o <;> rfl

/-! ### setFromOwner -/

@[simp] theorem State.setFromOwner_lki (s : State) (o : Owner) (l : List ToPtb) :
    (s.setFromOwner o l).lki = s.lki := by
  cases o <;> rfl
@[simp] theorem State.setFromOwner_ptb (s : State) (o : Owner) (l : List ToPtb) :
    (s.setFromOwner o l).ptb = s.ptb := by
  cases o <;> rfl
@[simp] theorem State.setFromOwner_lcu (s : State) (o : Owner) (l : List ToPtb) :
    (s.setFromOwner o l).lcu = s.lcu := by
  cases o <;> rfl
@[simp] theorem State.setFromOwner_gfu (s : State) (o : Owner) (l : List ToPtb) :
    (s.setFromOwner o l).gfu = s.gfu := by
  cases o <;> rfl
@[simp] theorem State.setFromOwner_cmx (s : State) (o : Owner) (l : List ToPtb) :
    (s.setFromOwner o l).cmx = s.cmx := by
  cases o <;> rfl
@[simp] theorem State.setFromOwner_rtu (s : State) (o : Owner) (l : List ToPtb) :
    (s.setFromOwner o l).rtu = s.rtu := by
  cases o <;> rfl
@[simp] theorem State.setFromOwner_squ (s : State) (o : Owner) (l : List ToPtb) :
    (s.setFromOwner o l).squ = s.squ := by
  cases o <;> rfl
@[simp] theorem State.setFromOwner_evu (s : State) (o : Owner) (l : List ToPtb) :
    (s.setFromOwner o l).evu = s.evu := by
  cases o <;> rfl
@[simp] theorem State.setFromOwner_ticks (s : State) (o : Owner) (l : List ToPtb) :
    (s.setFromOwner o l).ticks = s.ticks := by
  cases o <;> rfl
@[simp] theorem State.setFromOwner_pending (s : State) (o : Owner) (l : List ToPtb) :
    (s.setFromOwner o l).pending = s.pending := by
  cases o <;> rfl
@[simp] theorem State.setFromOwner_port (s : State) (o : Owner) (l : List ToPtb) (j : Port) :
    (s.setFromOwner o l).port j = s.port j := by
  cases o <;> rfl
@[simp] theorem State.setFromOwner_pos (s : State) (o : Owner) (l : List ToPtb) (j : Pos) :
    (s.setFromOwner o l).pos j = s.pos j := by
  cases o <;> rfl
@[simp] theorem State.setFromOwner_line (s : State) (o : Owner) (l : List ToPtb) (j : Line) :
    (s.setFromOwner o l).line j = s.line j := by
  cases o <;> rfl
@[simp] theorem State.setFromOwner_row (s : State) (o : Owner) (l : List ToPtb) (j : Line) :
    (s.setFromOwner o l).row j = s.row j := by
  cases o <;> rfl
@[simp] theorem State.setFromOwner_group (s : State) (o : Owner) (l : List ToPtb) (j : Grp) :
    (s.setFromOwner o l).group j = s.group j := by
  cases o <;> rfl
@[simp] theorem State.setFromOwner_call (s : State) (o : Owner) (l : List ToPtb) (j : CallNo) :
    (s.setFromOwner o l).call j = s.call j := by
  cases o <;> rfl
@[simp] theorem State.setFromOwner_tap (s : State) (o : Owner) (l : List ToPtb) (j : TapNo) :
    (s.setFromOwner o l).tap j = s.tap j := by
  cases o <;> rfl
@[simp] theorem State.setFromOwner_runOf (s : State) (o : Owner) (l : List ToPtb) (j : Pos) :
    (s.setFromOwner o l).runOf j = s.runOf j := by
  cases o <;> rfl
@[simp] theorem State.setFromOwner_events (s : State) (o : Owner) (l : List ToPtb) (j : Port) :
    (s.setFromOwner o l).events j = s.events j := by
  cases o <;> rfl
@[simp] theorem State.setFromOwner_leg (s : State) (o : Owner) (l : List ToPtb) (j : Leg) :
    (s.setFromOwner o l).leg j = s.leg j := by
  cases o <;> rfl

/-! ### forward -/

@[simp] theorem State.forward_lki (s : State) (o : Owner) (m : ToOwner) :
    (s.forward o m).lki = s.lki := by
  cases o <;> rfl
@[simp] theorem State.forward_ptb (s : State) (o : Owner) (m : ToOwner) :
    (s.forward o m).ptb = s.ptb := by
  cases o <;> rfl
@[simp] theorem State.forward_lcu (s : State) (o : Owner) (m : ToOwner) :
    (s.forward o m).lcu = s.lcu := by
  cases o <;> rfl
@[simp] theorem State.forward_gfu (s : State) (o : Owner) (m : ToOwner) :
    (s.forward o m).gfu = s.gfu := by
  cases o <;> rfl
@[simp] theorem State.forward_cmx (s : State) (o : Owner) (m : ToOwner) :
    (s.forward o m).cmx = s.cmx := by
  cases o <;> rfl
@[simp] theorem State.forward_rtu (s : State) (o : Owner) (m : ToOwner) :
    (s.forward o m).rtu = s.rtu := by
  cases o <;> rfl
@[simp] theorem State.forward_squ (s : State) (o : Owner) (m : ToOwner) :
    (s.forward o m).squ = s.squ := by
  cases o <;> rfl
@[simp] theorem State.forward_evu (s : State) (o : Owner) (m : ToOwner) :
    (s.forward o m).evu = s.evu := by
  cases o <;> rfl
@[simp] theorem State.forward_ticks (s : State) (o : Owner) (m : ToOwner) :
    (s.forward o m).ticks = s.ticks := by
  cases o <;> rfl
@[simp] theorem State.forward_pending (s : State) (o : Owner) (m : ToOwner) :
    (s.forward o m).pending = s.pending := by
  cases o <;> rfl
@[simp] theorem State.forward_port (s : State) (o : Owner) (m : ToOwner) (j : Port) :
    (s.forward o m).port j = s.port j := by
  cases o <;> rfl
@[simp] theorem State.forward_pos (s : State) (o : Owner) (m : ToOwner) (j : Pos) :
    (s.forward o m).pos j = s.pos j := by
  cases o <;> rfl
@[simp] theorem State.forward_line (s : State) (o : Owner) (m : ToOwner) (j : Line) :
    (s.forward o m).line j = s.line j := by
  cases o <;> rfl
@[simp] theorem State.forward_row (s : State) (o : Owner) (m : ToOwner) (j : Line) :
    (s.forward o m).row j = s.row j := by
  cases o <;> rfl
@[simp] theorem State.forward_group (s : State) (o : Owner) (m : ToOwner) (j : Grp) :
    (s.forward o m).group j = s.group j := by
  cases o <;> rfl
@[simp] theorem State.forward_call (s : State) (o : Owner) (m : ToOwner) (j : CallNo) :
    (s.forward o m).call j = s.call j := by
  cases o <;> rfl
@[simp] theorem State.forward_tap (s : State) (o : Owner) (m : ToOwner) (j : TapNo) :
    (s.forward o m).tap j = s.tap j := by
  cases o <;> rfl
@[simp] theorem State.forward_runOf (s : State) (o : Owner) (m : ToOwner) (j : Pos) :
    (s.forward o m).runOf j = s.runOf j := by
  cases o <;> rfl
@[simp] theorem State.forward_events (s : State) (o : Owner) (m : ToOwner) (j : Port) :
    (s.forward o m).events j = s.events j := by
  cases o <;> rfl
@[simp] theorem State.forward_leg (s : State) (o : Owner) (m : ToOwner) (j : Leg) :
    (s.forward o m).leg j = s.leg j := by
  cases o <;> rfl

/-! ### applyLine -/

@[simp] theorem State.applyLine_lki (s : State) (l : Line) (fx : LineFx) :
    (s.applyLine l fx).lki = s.lki := by
  rfl
@[simp] theorem State.applyLine_ptb (s : State) (l : Line) (fx : LineFx) :
    (s.applyLine l fx).ptb = s.ptb := by
  rfl
@[simp] theorem State.applyLine_gfu (s : State) (l : Line) (fx : LineFx) :
    (s.applyLine l fx).gfu = s.gfu := by
  rfl
@[simp] theorem State.applyLine_cmx (s : State) (l : Line) (fx : LineFx) :
    (s.applyLine l fx).cmx = s.cmx := by
  rfl
@[simp] theorem State.applyLine_rtu (s : State) (l : Line) (fx : LineFx) :
    (s.applyLine l fx).rtu = s.rtu := by
  rfl
@[simp] theorem State.applyLine_squ (s : State) (l : Line) (fx : LineFx) :
    (s.applyLine l fx).squ = s.squ := by
  rfl
@[simp] theorem State.applyLine_evu (s : State) (l : Line) (fx : LineFx) :
    (s.applyLine l fx).evu = s.evu := by
  rfl
@[simp] theorem State.applyLine_ticks (s : State) (l : Line) (fx : LineFx) :
    (s.applyLine l fx).ticks = s.ticks := by
  rfl
@[simp] theorem State.applyLine_pending (s : State) (l : Line) (fx : LineFx) :
    (s.applyLine l fx).pending = s.pending := by
  rfl
@[simp] theorem State.applyLine_port (s : State) (l : Line) (fx : LineFx) (j : Port) :
    (s.applyLine l fx).port j = s.port j := by
  rfl
@[simp] theorem State.applyLine_pos (s : State) (l : Line) (fx : LineFx) (j : Pos) :
    (s.applyLine l fx).pos j = s.pos j := by
  rfl
@[simp] theorem State.applyLine_group (s : State) (l : Line) (fx : LineFx) (j : Grp) :
    (s.applyLine l fx).group j = s.group j := by
  rfl
@[simp] theorem State.applyLine_call (s : State) (l : Line) (fx : LineFx) (j : CallNo) :
    (s.applyLine l fx).call j = s.call j := by
  rfl
@[simp] theorem State.applyLine_tap (s : State) (l : Line) (fx : LineFx) (j : TapNo) :
    (s.applyLine l fx).tap j = s.tap j := by
  rfl
@[simp] theorem State.applyLine_runOf (s : State) (l : Line) (fx : LineFx) (j : Pos) :
    (s.applyLine l fx).runOf j = s.runOf j := by
  rfl
@[simp] theorem State.applyLine_events (s : State) (l : Line) (fx : LineFx) (j : Port) :
    (s.applyLine l fx).events j = s.events j := by
  rfl
@[simp] theorem State.applyLine_leg (s : State) (l : Line) (fx : LineFx) (j : Leg) :
    (s.applyLine l fx).leg j = s.leg j := by
  rfl

/-! ### freeClaim -/

@[simp] theorem State.freeClaim_lki (s : State) (p : Pos) (h : Handset) :
    (s.freeClaim p h).lki = s.lki := by
  rfl
@[simp] theorem State.freeClaim_lcu (s : State) (p : Pos) (h : Handset) :
    (s.freeClaim p h).lcu = s.lcu := by
  rfl
@[simp] theorem State.freeClaim_gfu (s : State) (p : Pos) (h : Handset) :
    (s.freeClaim p h).gfu = s.gfu := by
  rfl
@[simp] theorem State.freeClaim_cmx (s : State) (p : Pos) (h : Handset) :
    (s.freeClaim p h).cmx = s.cmx := by
  rfl
@[simp] theorem State.freeClaim_rtu (s : State) (p : Pos) (h : Handset) :
    (s.freeClaim p h).rtu = s.rtu := by
  rfl
@[simp] theorem State.freeClaim_squ (s : State) (p : Pos) (h : Handset) :
    (s.freeClaim p h).squ = s.squ := by
  rfl
@[simp] theorem State.freeClaim_evu (s : State) (p : Pos) (h : Handset) :
    (s.freeClaim p h).evu = s.evu := by
  rfl
@[simp] theorem State.freeClaim_ticks (s : State) (p : Pos) (h : Handset) :
    (s.freeClaim p h).ticks = s.ticks := by
  rfl
@[simp] theorem State.freeClaim_pending (s : State) (p : Pos) (h : Handset) :
    (s.freeClaim p h).pending = s.pending := by
  rfl
@[simp] theorem State.freeClaim_port (s : State) (p : Pos) (h : Handset) (j : Port) :
    (s.freeClaim p h).port j = s.port j := by
  rfl
@[simp] theorem State.freeClaim_line (s : State) (p : Pos) (h : Handset) (j : Line) :
    (s.freeClaim p h).line j = s.line j := by
  rfl
@[simp] theorem State.freeClaim_row (s : State) (p : Pos) (h : Handset) (j : Line) :
    (s.freeClaim p h).row j = s.row j := by
  rfl
@[simp] theorem State.freeClaim_group (s : State) (p : Pos) (h : Handset) (j : Grp) :
    (s.freeClaim p h).group j = s.group j := by
  rfl
@[simp] theorem State.freeClaim_call (s : State) (p : Pos) (h : Handset) (j : CallNo) :
    (s.freeClaim p h).call j = s.call j := by
  rfl
@[simp] theorem State.freeClaim_tap (s : State) (p : Pos) (h : Handset) (j : TapNo) :
    (s.freeClaim p h).tap j = s.tap j := by
  rfl
@[simp] theorem State.freeClaim_runOf (s : State) (p : Pos) (h : Handset) (j : Pos) :
    (s.freeClaim p h).runOf j = s.runOf j := by
  rfl
@[simp] theorem State.freeClaim_events (s : State) (p : Pos) (h : Handset) (j : Port) :
    (s.freeClaim p h).events j = s.events j := by
  rfl
@[simp] theorem State.freeClaim_leg (s : State) (p : Pos) (h : Handset) (j : Leg) :
    (s.freeClaim p h).leg j = s.leg j := by
  rfl

/-! ### freeClaimOf -/

@[simp] theorem State.freeClaimOf_lki (s : State) (p : Pos) (h : Handset) (c : Claim) :
    (s.freeClaimOf p h c).lki = s.lki := by
  unfold State.freeClaimOf; split <;> rfl
@[simp] theorem State.freeClaimOf_lcu (s : State) (p : Pos) (h : Handset) (c : Claim) :
    (s.freeClaimOf p h c).lcu = s.lcu := by
  unfold State.freeClaimOf; split <;> rfl
@[simp] theorem State.freeClaimOf_gfu (s : State) (p : Pos) (h : Handset) (c : Claim) :
    (s.freeClaimOf p h c).gfu = s.gfu := by
  unfold State.freeClaimOf; split <;> rfl
@[simp] theorem State.freeClaimOf_cmx (s : State) (p : Pos) (h : Handset) (c : Claim) :
    (s.freeClaimOf p h c).cmx = s.cmx := by
  unfold State.freeClaimOf; split <;> rfl
@[simp] theorem State.freeClaimOf_rtu (s : State) (p : Pos) (h : Handset) (c : Claim) :
    (s.freeClaimOf p h c).rtu = s.rtu := by
  unfold State.freeClaimOf; split <;> rfl
@[simp] theorem State.freeClaimOf_squ (s : State) (p : Pos) (h : Handset) (c : Claim) :
    (s.freeClaimOf p h c).squ = s.squ := by
  unfold State.freeClaimOf; split <;> rfl
@[simp] theorem State.freeClaimOf_evu (s : State) (p : Pos) (h : Handset) (c : Claim) :
    (s.freeClaimOf p h c).evu = s.evu := by
  unfold State.freeClaimOf; split <;> rfl
@[simp] theorem State.freeClaimOf_ticks (s : State) (p : Pos) (h : Handset) (c : Claim) :
    (s.freeClaimOf p h c).ticks = s.ticks := by
  unfold State.freeClaimOf; split <;> rfl
@[simp] theorem State.freeClaimOf_pending (s : State) (p : Pos) (h : Handset) (c : Claim) :
    (s.freeClaimOf p h c).pending = s.pending := by
  unfold State.freeClaimOf; split <;> rfl
@[simp] theorem State.freeClaimOf_port (s : State) (p : Pos) (h : Handset) (c : Claim) (j : Port) :
    (s.freeClaimOf p h c).port j = s.port j := by
  unfold State.freeClaimOf; split <;> rfl
@[simp] theorem State.freeClaimOf_line (s : State) (p : Pos) (h : Handset) (c : Claim) (j : Line) :
    (s.freeClaimOf p h c).line j = s.line j := by
  unfold State.freeClaimOf; split <;> rfl
@[simp] theorem State.freeClaimOf_row (s : State) (p : Pos) (h : Handset) (c : Claim) (j : Line) :
    (s.freeClaimOf p h c).row j = s.row j := by
  unfold State.freeClaimOf; split <;> rfl
@[simp] theorem State.freeClaimOf_group (s : State) (p : Pos) (h : Handset) (c : Claim) (j : Grp) :
    (s.freeClaimOf p h c).group j = s.group j := by
  unfold State.freeClaimOf; split <;> rfl
@[simp] theorem State.freeClaimOf_call (s : State) (p : Pos) (h : Handset) (c : Claim) (j : CallNo) :
    (s.freeClaimOf p h c).call j = s.call j := by
  unfold State.freeClaimOf; split <;> rfl
@[simp] theorem State.freeClaimOf_tap (s : State) (p : Pos) (h : Handset) (c : Claim) (j : TapNo) :
    (s.freeClaimOf p h c).tap j = s.tap j := by
  unfold State.freeClaimOf; split <;> rfl
@[simp] theorem State.freeClaimOf_runOf (s : State) (p : Pos) (h : Handset) (c : Claim) (j : Pos) :
    (s.freeClaimOf p h c).runOf j = s.runOf j := by
  unfold State.freeClaimOf; split <;> rfl
@[simp] theorem State.freeClaimOf_events (s : State) (p : Pos) (h : Handset) (c : Claim) (j : Port) :
    (s.freeClaimOf p h c).events j = s.events j := by
  unfold State.freeClaimOf; split <;> rfl
@[simp] theorem State.freeClaimOf_leg (s : State) (p : Pos) (h : Handset) (c : Claim) (j : Leg) :
    (s.freeClaimOf p h c).leg j = s.leg j := by
  unfold State.freeClaimOf; split <;> rfl

/-! ### claimFor -/

@[simp] theorem State.claimFor_lcu (s : State) (p : Pos) (h : Handset) (v : Via) (o : Owner) (m : ToOwner) :
    (s.claimFor p h v o m).lcu = s.lcu := by
  unfold State.claimFor; split <;> simp
@[simp] theorem State.claimFor_gfu (s : State) (p : Pos) (h : Handset) (v : Via) (o : Owner) (m : ToOwner) :
    (s.claimFor p h v o m).gfu = s.gfu := by
  unfold State.claimFor; split <;> simp
@[simp] theorem State.claimFor_cmx (s : State) (p : Pos) (h : Handset) (v : Via) (o : Owner) (m : ToOwner) :
    (s.claimFor p h v o m).cmx = s.cmx := by
  unfold State.claimFor; split <;> simp
@[simp] theorem State.claimFor_rtu (s : State) (p : Pos) (h : Handset) (v : Via) (o : Owner) (m : ToOwner) :
    (s.claimFor p h v o m).rtu = s.rtu := by
  unfold State.claimFor; split <;> simp
@[simp] theorem State.claimFor_squ (s : State) (p : Pos) (h : Handset) (v : Via) (o : Owner) (m : ToOwner) :
    (s.claimFor p h v o m).squ = s.squ := by
  unfold State.claimFor; split <;> simp
@[simp] theorem State.claimFor_evu (s : State) (p : Pos) (h : Handset) (v : Via) (o : Owner) (m : ToOwner) :
    (s.claimFor p h v o m).evu = s.evu := by
  unfold State.claimFor; split <;> simp
@[simp] theorem State.claimFor_ticks (s : State) (p : Pos) (h : Handset) (v : Via) (o : Owner) (m : ToOwner) :
    (s.claimFor p h v o m).ticks = s.ticks := by
  unfold State.claimFor; split <;> simp
@[simp] theorem State.claimFor_pending (s : State) (p : Pos) (h : Handset) (v : Via) (o : Owner) (m : ToOwner) :
    (s.claimFor p h v o m).pending = s.pending := by
  unfold State.claimFor; split <;> simp
@[simp] theorem State.claimFor_line (s : State) (p : Pos) (h : Handset) (v : Via) (o : Owner) (m : ToOwner) (j : Line) :
    (s.claimFor p h v o m).line j = s.line j := by
  unfold State.claimFor; split <;> simp
@[simp] theorem State.claimFor_row (s : State) (p : Pos) (h : Handset) (v : Via) (o : Owner) (m : ToOwner) (j : Line) :
    (s.claimFor p h v o m).row j = s.row j := by
  unfold State.claimFor; split <;> simp
@[simp] theorem State.claimFor_group (s : State) (p : Pos) (h : Handset) (v : Via) (o : Owner) (m : ToOwner) (j : Grp) :
    (s.claimFor p h v o m).group j = s.group j := by
  unfold State.claimFor; split <;> simp
@[simp] theorem State.claimFor_call (s : State) (p : Pos) (h : Handset) (v : Via) (o : Owner) (m : ToOwner) (j : CallNo) :
    (s.claimFor p h v o m).call j = s.call j := by
  unfold State.claimFor; split <;> simp
@[simp] theorem State.claimFor_tap (s : State) (p : Pos) (h : Handset) (v : Via) (o : Owner) (m : ToOwner) (j : TapNo) :
    (s.claimFor p h v o m).tap j = s.tap j := by
  unfold State.claimFor; split <;> simp
@[simp] theorem State.claimFor_runOf (s : State) (p : Pos) (h : Handset) (v : Via) (o : Owner) (m : ToOwner) (j : Pos) :
    (s.claimFor p h v o m).runOf j = s.runOf j := by
  unfold State.claimFor; split <;> simp
@[simp] theorem State.claimFor_events (s : State) (p : Pos) (h : Handset) (v : Via) (o : Owner) (m : ToOwner) (j : Port) :
    (s.claimFor p h v o m).events j = s.events j := by
  unfold State.claimFor; split <;> simp
@[simp] theorem State.claimFor_leg (s : State) (p : Pos) (h : Handset) (v : Via) (o : Owner) (m : ToOwner) (j : Leg) :
    (s.claimFor p h v o m).leg j = s.leg j := by
  unfold State.claimFor; split <;> simp

/-! ### What each does -/

@[simp] theorem State.applyLine_line (s : State) (l : Line) (fx : LineFx) (j : Line) :
    (s.applyLine l fx).line j = if l = j then fx.line else s.line j := by simp [State.applyLine]
@[simp] theorem State.applyLine_row (s : State) (l : Line) (fx : LineFx) (j : Line) : (s.applyLine l fx).row j = s.row j := rfl
@[simp] theorem State.applyLine_chan (s : State) (l : Line) (fx : LineFx) :
    (s.applyLine l fx).chan = s.chan.add fx.out := rfl

/-- A claim that is freed is NONE with its mute OFF, and no other position moves (R36). -/
@[simp] theorem State.freeClaim_pos (s : State) (p : Pos) (h : Handset) (j : Pos) :
    (s.freeClaim p h).pos j =
      if p = j then
        { s.pos p with claim := (s.pos p).claim.set h .none, mute := (s.pos p).mute.set h false }
      else s.pos j := by simp [State.freeClaim]

/-- The oldest message to an owner about a handset is one of the messages on the path, and only the path moves. -/
theorem State.nextForHandset_some {s t : State} {o : Owner} {p : Pos} {h : Handset} {m : ToOwner}
    (e : s.nextForHandset o p h = some (m, t)) :
    m.aboutHandset p h = true ∧ ∃ front back, s.toOwner o = front ++ m :: back ∧ t = s.setToOwner o (front ++ back)
      ∧ ∀ x ∈ front, x.aboutHandset p h = false := by
  obtain ⟨⟨a, rest⟩, ha, hb⟩ := Option.map_eq_some_iff.mp e
  obtain ⟨rfl, rfl⟩ : a = m ∧ s.setToOwner o rest = t := by simpa using hb
  obtain ⟨hq, front, back, h1, rfl, h2⟩ := takeFirst_some ha
  exact ⟨hq, front, back, h1, rfl, h2⟩

/-- The same for the question about a speaker. -/
theorem State.nextForSpeaker_some {s t : State} {o : Owner} {p : Pos} {k : Spk} {m : ToOwner}
    (e : s.nextForSpeaker o p k = some (m, t)) :
    m.aboutSpeaker p k = true ∧ ∃ front back, s.toOwner o = front ++ m :: back ∧ t = s.setToOwner o (front ++ back)
      ∧ ∀ x ∈ front, x.aboutSpeaker p k = false := by
  obtain ⟨⟨a, rest⟩, ha, hb⟩ := Option.map_eq_some_iff.mp e
  obtain ⟨rfl, rfl⟩ : a = m ∧ s.setToOwner o rest = t := by simpa using hb
  obtain ⟨hq, front, back, h1, rfl, h2⟩ := takeFirst_some ha
  exact ⟨hq, front, back, h1, rfl, h2⟩

/-- The oldest message of an owner about a handset is one of the messages on the path, and only the path moves. -/
theorem State.heardOfHandset_some {s t : State} {o : Owner} {p : Pos} {h : Handset} {m : ToPtb}
    (e : s.heardOfHandset o p h = some (m, t)) :
    m.aboutHandset p h = true ∧ ∃ front back, s.fromOwner o = front ++ m :: back ∧ t = s.setFromOwner o (front ++ back)
      ∧ ∀ x ∈ front, x.aboutHandset p h = false := by
  obtain ⟨⟨a, rest⟩, ha, hb⟩ := Option.map_eq_some_iff.mp e
  obtain ⟨rfl, rfl⟩ : a = m ∧ s.setFromOwner o rest = t := by simpa using hb
  obtain ⟨hq, front, back, h1, rfl, h2⟩ := takeFirst_some ha
  exact ⟨hq, front, back, h1, rfl, h2⟩

/-- The same for a position's speakers. -/
theorem State.heardOfSpeakers_some {s t : State} {o : Owner} {p : Pos} {m : ToPtb}
    (e : s.heardOfSpeakers o p = some (m, t)) :
    m.aboutSpeakers p = true ∧ ∃ front back, s.fromOwner o = front ++ m :: back ∧ t = s.setFromOwner o (front ++ back)
      ∧ ∀ x ∈ front, x.aboutSpeakers p = false := by
  obtain ⟨⟨a, rest⟩, ha, hb⟩ := Option.map_eq_some_iff.mp e
  obtain ⟨rfl, rfl⟩ : a = m ∧ s.setFromOwner o rest = t := by simpa using hb
  obtain ⟨hq, front, back, h1, rfl, h2⟩ := takeFirst_some ha
  exact ⟨hq, front, back, h1, rfl, h2⟩

/-! ### What a request keeps -/

/-- Whatever taking a frame, answering and the owner all leave as it was, a request of a port leaves as it was. -/
theorem State.dispatchIf_keeps {α : Type} (f : State → α) {k : ReqKind} {n : Port} {ok : List Byte → Bool}
    {own : List Byte → State → State} (take : ∀ s m fr, f (State.takeFrame s m fr) = f s)
    (ans : ∀ s r c b, f (State.answer s r c b) = f s) (hown : ∀ b t, f (own b t) = f t) (s : State) :
    f (s.dispatchIf k n ok own) = f s := by
  unfold State.dispatchIf
  split
  · rfl
  · split
    · rw [ans, take]
    · split
      · rw [ans, take]
      · rw [hown, take]

/-- The same of a request that a position sends on its port or by its run. -/
theorem State.request_keeps {α : Type} (f : State → α) {k : ReqKind} {r : Requester}
    {own : Pos → Via → List Byte → State → State} (take : ∀ s m fr, f (State.takeFrame s m fr) = f s)
    (ans : ∀ s r c b, f (State.answer s r c b) = f s)
    (step : ∀ (s : State) p, f { s with chan := { s.chan with submitted := s.chan.submitted.put p none } } = f s)
    (hown : ∀ p v b t, f (own p v b t) = f t) (s : State) : f (s.request k r own) = f s := by
  cases r with
  | port n =>
    simp only [State.request, State.dispatch]
    refine State.dispatchIf_keeps f take ans (fun b t => ?_) s
    split
    · exact hown _ _ _ _
    · rfl
  | run p =>
    simp only [State.request, State.takeStep]
    split
    · rfl
    · split
      · rw [hown, step]
      · rfl

/-- Whatever taking a frame, answering and the owner all keep true, a request of a port keeps true. -/
theorem State.dispatchIf_preserves (P : State → Prop) {k : ReqKind} {n : Port} {ok : List Byte → Bool}
    {own : List Byte → State → State} (take : ∀ s m fr, P s → P (State.takeFrame s m fr))
    (ans : ∀ s r c b, P s → P (State.answer s r c b)) (hown : ∀ b t, P t → P (own b t)) (s : State) (h : P s) :
    P (s.dispatchIf k n ok own) := by
  unfold State.dispatchIf
  split
  · exact h
  · split
    · exact ans _ _ _ _ (take _ _ _ h)
    · split
      · exact ans _ _ _ _ (take _ _ _ h)
      · exact hown _ _ (take _ _ _ h)

/-- The same of a request that a position sends on its port or by its run. -/
theorem State.request_preserves (P : State → Prop) {k : ReqKind} {r : Requester}
    {own : Pos → Via → List Byte → State → State} (take : ∀ s m fr, P s → P (State.takeFrame s m fr))
    (ans : ∀ s r c b, P s → P (State.answer s r c b))
    (step : ∀ (s : State) p, P s → P { s with chan := { s.chan with submitted := s.chan.submitted.put p none } })
    (hown : ∀ p v b t, P t → P (own p v b t)) (s : State) (h : P s) : P (s.request k r own) := by
  cases r with
  | port n =>
    simp only [State.request, State.dispatch]
    refine State.dispatchIf_preserves P take ans (fun b t ht => ?_) s h
    split
    · exact hown _ _ _ _ ht
    · exact ht
  | run p =>
    simp only [State.request, State.takeStep]
    split
    · exact h
    · split
      · exact hown _ _ _ _ (step _ _ h)
      · exact h

end Sys2Proof.Machine
end

