-- ==== Sys2Proof/Laws/Sends.lean ====
section
/-! SUPPORT. What several things sent in order put on each path. -/

namespace Sys2Proof.Machine

@[simp] theorem Sends.all_nil : Sends.all [] = {} := rfl
@[simp] theorem Sends.all_cons (a : Sends) (l : List Sends) : Sends.all (a :: l) = a.and (Sends.all l) := rfl

/-- Several things sent in order put on each path what each of them puts there. -/
theorem Sends.all_eq (l : List Sends) : Sends.all l =
    { given := l.flatMap Sends.given, notices := l.flatMap Sends.notices, fromLcu := l.flatMap Sends.fromLcu
      fromGfu := l.flatMap Sends.fromGfu, toLcu := l.flatMap Sends.toLcu, toGfu := l.flatMap Sends.toGfu
      toRtu := l.flatMap Sends.toRtu, listening := l.flatMap Sends.listening } := by
  induction l with
  | nil => rfl
  | cons a t ih => simp [ih, Sends.and]

theorem Sends.and_assoc (a b c : Sends) : (a.and b).and c = a.and (b.and c) := by
  simp [Sends.and, List.append_assoc]

@[simp] theorem Sends.nothing_and (a : Sends) : Sends.and {} a = a := by simp [Sends.and]
@[simp] theorem Sends.and_nothing (a : Sends) : a.and {} = a := by simp [Sends.and]

/-- The singletons that a test keeps are the elements that pass it, each mapped. -/
theorem flatMap_if {α β : Type} (l : List α) (q : α → Bool) (g : α → β) :
    (l.flatMap fun c => if q c = true then [g c] else []) = (l.filter q).map g := by
  induction l with
  | nil => rfl
  | cons a t ih => by_cases h : q a <;> simp [h, ih]

/-- Handsets that leave a line by forced release, in list order (R11): the records, the notices, the release notices and the
coverage that goes back. -/
theorem Sends.all_forceSends (l : Line) (why : ReleaseReason) (cs : List Conn) :
    Sends.all (cs.map (forceSends l why)) =
      { given := cs.map fun c => ⟨.lcu, portOf c.pos, .handsetReleased l c.hs why⟩
        notices := cs.map fun c => .position c.pos
        fromLcu := cs.map fun c => .released c.pos c.hs (.line l)
        toRtu := (cs.filter fun c => c.covered).map fun c => .release c.pos c.hs l false } := by
  induction cs with
  | nil => rfl
  | cons c t ih =>
    cases h : c.covered <;> simp [ih, h, forceSends, leaveSends, record, Sends.and]

/-- Handsets that leave a line by no forced release, in list order (R11). -/
theorem Sends.all_leaveSends (l : Line) (cs : List Conn) :
    Sends.all (cs.map (leaveSends l)) =
      { notices := cs.map fun c => .position c.pos
        toRtu := (cs.filter fun c => c.covered).map fun c => .release c.pos c.hs l false } := by
  induction cs with
  | nil => rfl
  | cons c t ih => cases h : c.covered <;> simp [ih, h, leaveSends, Sends.and]

/-- Handsets that leave a line at the loss of their position, in list order (R11, R50). -/
theorem Sends.all_lossSends (l : Line) (tellPtb : Bool) (cs : List Conn) :
    Sends.all (cs.map (lossSends l tellPtb)) =
      { notices := cs.map fun c => .position c.pos
        fromLcu := if tellPtb then cs.map fun c => .released c.pos c.hs (.line l) else []
        toRtu := (cs.filter fun c => c.covered).map fun c => .release c.pos c.hs l false } := by
  induction cs with
  | nil => cases tellPtb <;> rfl
  | cons c t ih => cases tellPtb <;> cases h : c.covered <;> simp [ih, h, lossSends, leaveSends, Sends.and]

/-- Things that are change notices alone, sent in order. -/
theorem Sends.all_notices {α : Type} (l : List α) (g : α → List Subject) :
    Sends.all (l.map fun a => { notices := g a }) = { notices := l.flatMap g } := by
  induction l with
  | nil => rfl
  | cons a t ih => simp [ih, Sends.and]

/-- A floor that a soft reset empties gives change notices alone: the group's and those of its holder and open talkers, if it has
any (R95). -/
theorem Floor.clears_eq (f : Floor) (g : Grp) :
    f.clears g =
      { notices :=
          if f.holderPos.toList ++ f.talkers.map (fun k => k.pos) = [] then []
          else .group g :: (f.holderPos.toList ++ f.talkers.map fun k => k.pos).map .position } := by
  cases f with
  | mk holder wait deferred served talkers holdTimer =>
    cases holder <;> cases talkers <;> rfl

end Sys2Proof.Machine
end

