-- ==== Sys2Proof/Laws/Resets.lean ====
section
/-! SUPPORT. A loss or a soft reset that one of PTB and an owner has taken before the other: what each tells the other, and what PTB
does with an owner's answer for a speaker. -/

namespace Sys2Proof.Machine

theorem State.behindPtb_iff (s : State) (o : Owner) :
    s.behindPtb o = true ↔ ∃ r, s.lki.softReset = some r ∧ r.ptb = true ∧ r.takenBy o = false := by
  cases h : s.lki.softReset <;> simp [State.behindPtb, h]

theorem State.aheadOfPtb_iff (s : State) (o : Owner) :
    s.aheadOfPtb o = true ↔ ∃ r, s.lki.softReset = some r ∧ r.takenBy o = true ∧ r.ptb = false := by
  cases h : s.lki.softReset <;> simp [State.aheadOfPtb, h]

/-- Of PTB and an owner one at most is ahead. -/
theorem State.not_ahead_and_behind (s : State) (o : Owner) : s.aheadOfPtb o = true → s.behindPtb o = false := by
  cases h : s.lki.softReset with
  | none => simp [State.behindPtb, h]
  | some r => cases hp : r.ptb <;> simp [State.aheadOfPtb, State.behindPtb, h, hp]

/-- All that PTB can do with the answer for a speaker that waits (R65, R175): it is refused with a code, or assigned. -/
theorem State.takeAnswer_cases (s : State) {p : Pos} {k : Spk} {m : Asking} (h : (s.pos p).asking.look k = some m) (t : Target)
    (refusal : Option Code) (early : Bool) :
    (∃ c, s.takeAnswer p k t refusal early = (s.setAsking p k none).reply p m.via c
      ∧ (refusal = some c
        ∨ refusal = none ∧ (m.sawDown = true ∨ (s.pos p).up = false) ∧ c = .notPermitted
        ∨ refusal = none ∧ m.sawDown = false ∧ (s.pos p).up = true ∧ (m.sawReset = true ∨ early = true)
          ∧ c = resetRefusal t))
    ∨ (refusal = none ∧ m.sawDown = false ∧ (s.pos p).up = true ∧ m.sawReset = false ∧ early = false
      ∧ s.takeAnswer p k t refusal early = ((s.setAsking p k none).assignTo p k t).reply p m.via .accepted) := by
  cases refusal with
  | some c => exact .inl ⟨c, by simp [State.takeAnswer, h], .inl rfl⟩
  | none =>
    cases hd : m.sawDown <;> cases hu : (s.pos p).up <;> cases hr : m.sawReset <;> cases early <;>
      simp [State.takeAnswer, h, hd, hu, hr, State.setAsking]

/-- All that an owner can do with a return notice (R35): nothing where it does not hold the handset so, else the handset leaves as for a
RELEASE and PTB has a release notice. -/
theorem State.ownerReturn_cases (s : State) (o : Owner) (p : Pos) (h : Handset) (c : Claim) :
    (s.leave p h c = none ∧ s.ownerReturn o p h c = s)
      ∨ ∃ t, s.leave p h c = some t ∧ s.ownerReturn o p h c = t.emit (releasedBy o p h c) := by
  cases e : s.leave p h c with
  | none => exact .inl ⟨rfl, by simp [State.ownerReturn, e]⟩
  | some t => exact .inr ⟨t, rfl, by simp [State.ownerReturn, e]⟩

/-- What PTB sends at its soft reset, position by position (R36, R66, R77). -/
theorem Sends.all_softSends (ps : List Pos) (r : Pos → PosRec) (past : Owner → Bool) :
    Sends.all (ps.map fun p => PosRec.softSends p (r p) past) =
      { notices := ps.flatMap fun p => if (r p).claim.a = .none ∧ (r p).claim.b = .none then [] else [.position p]
        listening := ps.flatMap fun p => listeningNotices p (r p).assign (Table.fill .none) true
        toLcu := ps.flatMap fun p => (r p).returns .lcu p (past .lcu)
        toGfu := ps.flatMap fun p => (r p).returns .gfu p (past .gfu) } := by
  simp [Sends.all_eq, List.flatMap_map, PosRec.softSends]

theorem LineRec.clearedByReset_iff (r : LineRec) :
    r.clearedByReset = true ↔ r.state ≠ .outOfService ∧ (r.cfg.kind = .ringdown ∨ r.cfg.kind = .automatic) := by
  simp [LineRec.clearedByReset]

/-- What a soft reset sends of one line (R13, R27, R175). -/
theorem softLine_out (l : Line) (r : LineRec) (tellPtb : Bool) :
    (softLine l r tellPtb).out =
      { notices := if r.clearedByReset && decide (r.state = .incoming) then [.line l] else []
        fromLcu := if r.clearedByReset && tellPtb then r.connected.map fun c => .released c.pos c.hs (.line l) else []
        toRtu := if r.clearedByReset then (r.connected.filter fun c => c.covered).map fun c => .release c.pos c.hs l true
          else [] } := by
  cases h : r.clearedByReset <;> simp [softLine, h]

/-- What LCU sends at its soft reset, line by line (R13, R27, R175). -/
theorem Sends.all_softLines (ls : List Line) (r : Line → LineRec) (tellPtb : Bool) :
    Sends.all (ls.map fun l => (softLine l (r l) tellPtb).out) =
      { notices := ls.flatMap fun l => if (r l).clearedByReset && decide ((r l).state = .incoming) then [.line l] else []
        fromLcu := ls.flatMap fun l =>
          if (r l).clearedByReset && tellPtb then (r l).connected.map fun c => .released c.pos c.hs (.line l) else []
        toRtu := ls.flatMap fun l =>
          if (r l).clearedByReset then ((r l).connected.filter fun c => c.covered).map fun c => .release c.pos c.hs l true
          else [] } := by
  simp [Sends.all_eq, List.flatMap_map, softLine_out]

/-- An LCU that PTB is ahead of tells PTB of every handset that its soft reset takes off a line (R175). -/
theorem State.lcuReset_releases {s : State} (h : s.behindPtb .lcu = true) {l : Line} (hl : (s.line l).clearedByReset = true)
    {c : Conn} (hc : c ∈ (s.line l).connected) : .released c.pos c.hs (.line l) ∈ s.lcuReset.chan.fromLcu := by
  simp only [State.lcuReset, State.endWaiting, Sends.all_softLines, h, State.emit_chan, Chan.add_fromLcu, List.mem_append,
    List.mem_flatMap]
  exact .inl (.inr ⟨l, List.mem_finRange l, by simpa [hl] using ⟨c, hc, rfl, rfl⟩⟩)

/-- A GFU that PTB is ahead of tells PTB of every handset that its soft reset takes out of a group or a call (R175). -/
theorem State.gfuReset_releases {s : State} (h : s.behindPtb .gfu = true) (p : Pos) (k : Handset) :
    (∀ g, (p, k) ∈ (s.group g).joined → .released p k (.group g) ∈ s.gfuReset.chan.fromGfu)
      ∧ ∀ c, (p, k) ∈ (s.call c).handsets → .released p k (.call c) ∈ s.gfuReset.chan.fromGfu := by
  have e : s.gfuReset.chan.fromGfu = s.chan.fromGfu ++ ((Sends.all ((List.finRange 8).map fun c => (s.call c).alertEnds)).and
      (Sends.all ((List.finRange 16).map fun g => (s.group g).floor.clears g))).fromGfu ++ s.gfuReleases fun _ => true := by
    simp [State.gfuReset, h, List.append_assoc]
  constructor
  · intro g hg
    rw [e]
    exact List.mem_append_right _ (List.mem_append_left _ (List.mem_flatMap.mpr ⟨g, List.mem_finRange g, by simpa using hg⟩))
  · intro c hc
    rw [e]
    exact List.mem_append_right _ (List.mem_append_right _ (List.mem_flatMap.mpr ⟨c, List.mem_finRange c, by simpa using hc⟩))

end Sys2Proof.Machine
end

