-- ==== Sys2Proof/WellFormed.lean ====
section
/-! DEFINITION. The checks on a command's operands that its types do not make. A command that fails them is no row's step;
`exec` is total all the same. -/

namespace Sys2Proof

/-- The bytes leave a frame open: no CLOSE, ABORT, frame error or broken escape among them (R157). -/
def staysInFrame (bytes : List Byte) : Bool :=
  (Rx.takeAll Rx.opened bytes).2.isEmpty && (Rx.takeAll Rx.opened bytes).1.held.isNone

/-- The last of the bytes ends the frame by a frame error, and nothing ends it before (R157). -/
def failsInFrame (bytes : List Byte) : Bool :=
  (Rx.takeAll Rx.opened bytes.dropLast).2.isEmpty && (Rx.takeAll Rx.opened bytes).2.head? == some .failed

/-- The last of the bytes brings a receiver in SYNCED to HUNT, and they do nothing before (R156). -/
def losesSync (bytes : List Byte) : Bool :=
  (Rx.takeAll Rx.insync bytes.dropLast).2.isEmpty && (Rx.takeAll Rx.insync bytes).2.head? == some .lost

/-- A list of numbers that rises strictly: how the notice of an APPEARANCE_BAR names its lines and positions. -/
def rises {n : Nat} (l : List (Fin n)) : Bool := decide (l.Pairwise (· < ·))

/-- Whether a command's operands have the form its row names. -/
def Instr.wellFormed (i : Instr) : Bool :=
  match i with
  | .frameClose _ bytes => staysInFrame bytes
  | .frameAbort _ bytes => staysInFrame bytes
  | .frameError _ bytes => failsInFrame bytes
  | .receiverHunt _ bytes => losesSync bytes
  | .changeNotice (.bars ls ps) => rises ls && rises ps
  | _ => true

end Sys2Proof
end

