-- ==== Sys2Proof/Tests/Slice0.lean ====
section
/-! SUPPORT. Small checks of the model against the manual's worked examples and tables, the well-formedness smoke tests, and for
every obligation with hypotheses a witness: concrete states and operands that meet them, clause by clause, at the ends of the
numbers' ranges where there is a range. -/

namespace Sys2Proof.Tests

/-! The checks of this file are elaborated one after another. Elaborated side by side, each waits in a thread of its own for those
before it, and the stacks of the waiting threads fill the memory that the check of the package has. -/

set_option Elab.async false

open Sys2Proof Sys2Proof.Machine

/-! ## Well-formedness -/

/-- Each check refuses an ill-formed operand: CLOSE among the bytes, a bare SYNC_A, no error at all, an unbroken pair, an unsorted
list. -/
theorem test_wellFormed_refuses :
    Instr.wellFormed (.frameClose 16 [0xD3, 0x02]) = false ∧ Instr.wellFormed (.frameAbort 16 [0x96]) = false
      ∧ Instr.wellFormed (.frameError 16 []) = false ∧ Instr.wellFormed (.receiverHunt 16 [0x96, 0x69]) = false
      ∧ Instr.wellFormed (.frameError 16 [0x96, 0x69]) = false ∧ Instr.wellFormed (.receiverHunt 16 [0x12, 0x12]) = false
      ∧ Instr.wellFormed (.changeNotice (.bars [3, 2] [])) = false
      ∧ Instr.wellFormed (.changeNotice (.bars [] [4, 4])) = false := by decide

theorem test_wellFormed_accepts :
    Instr.wellFormed (.frameClose 16 [0xD3, 0xB6]) = true ∧ Instr.wellFormed (.frameAbort 16 []) = true
      ∧ Instr.wellFormed (.frameError 16 [0xD3, 0x00]) = true ∧ Instr.wellFormed (.frameError 16 [1, 0x96]) = true
      ∧ Instr.wellFormed (.receiverHunt 16 [0x96, 0x12]) = true
      ∧ Instr.wellFormed (.changeNotice (.bars [2, 63] [15])) = true := by decide

/-! ## Formats (chapters 9 and 12) -/

/-- The table gives no row any bits. -/
theorem test_decodeTableWord : decodeTableWord 8 0x10 = none ∧ (State.reset.withFetchWord 8 0x10).pending = [] := by decide

/-- The check over the ASCII bytes of "123456789" (R158). -/
theorem test_frameCheck :
    frameCheck [0x31, 0x32, 0x33, 0x34, 0x35, 0x36, 0x37, 0x38, 0x39] = 0x29B1#16 := by decide +kernel

/-- A tag of 96H is sent as D3H B6H (R155, section 9.8). -/
theorem test_stuffing : stuffByte 0x96#8 = [0xD3#8, 0xB6#8] ∧ stuffByte 0x12#8 = [0x12#8] := by decide

/-- The kind bytes and result codes that R178 spells out. -/
theorem test_codes :
    ReqKind.code .takeLine = 0x10#8 ∧ ReqKind.code .assignSpeaker = 0x16#8 ∧ ReqKind.code .floorRequest = 0x1B#8
      ∧ ReqKind.code .tapSet = 0x4F#8 ∧ ReqKind.code .stepWrite = 0x56#8
      ∧ Code.byte .notRingdown = 0x0D#8 ∧ Code.byte .notWaiting = 0x13#8 ∧ Code.byte .noResource = 0x16#8
      ∧ Code.byte .stepInUse = 0x19#8 ∧ Code.byte .badTap = 0x1D#8 ∧ Code.byte .unknownRequest = 0x20#8 := by decide

/-! ## Levels, terms and envelopes (chapters 5 and 6) -/

/-- The table of section 6.5 and its three entries at level 36 in one frame: the sum 7,031. -/
theorem test_compose : compose 128 96 = 96 ∧ compose 96 48 = 36 := by decide

theorem test_hoot_speaker_frame :
    (LegRec.frame { list := [⟨88, 36, false⟩, ⟨89, 36, false⟩, ⟨29, 36, false⟩], idle := 0, level := 128, clip := 0, out := 0 }
      (fun x => if x = 88 then -7000 else if x = 89 then 20001 else 12000) (fun _ => true)).out = 7031#16 := by decide

/-- Section 6.6: four microphones at 30,000 under a leg level of 160 limit the output and move the clip counter. -/
theorem test_saturating_line_send :
    LegRec.frame { list := [⟨0, 128, false⟩, ⟨3, 128, false⟩, ⟨6, 128, false⟩, ⟨9, 128, false⟩], idle := 0, level := 160,
                   clip := 0, out := 0 } (fun _ => 30000) (fun _ => true)
      = { list := [⟨0, 128, false⟩, ⟨3, 128, false⟩, ⟨6, 128, false⟩, ⟨9, 128, false⟩], idle := 0, level := 160,
          clip := 1, out := 32767#16 } := by decide

/-- Section 6.7: the envelope through an onset of 5,000, and its fall in silence. -/
theorem test_envelope : envelopeAfter 0 5000 = 625 ∧ envelopeAfter 625 5000 = 1172 ∧ envelopeAfter 1172 5000 = 1651
    ∧ envelopeAfter 1500 0 = 1495 ∧ envelopeAfter 1495 0 = 1490 ∧ envelopeAfter 200 0 = 199 := by decide

theorem test_detector_onset :
    ((Detector.reset.frame DetectorSet.reset 5000).state, ((Detector.reset.frame DetectorSet.reset 5000).frame
      DetectorSet.reset 5000).state) = (.quiet, .active) := by decide

/-! ## States for the witnesses -/

/-- The frame that carries a request. -/
def ask (k : ReqKind) (body : List Byte) : Frame := ⟨7, k.code, body⟩

/-- An UP port with one request in its queue. -/
def asked (s : State) (n : Port) (k : ReqKind) (body : List Byte) : State :=
  s.setPort n { s.port n with queue := [ask k body], inFlight := none, reply := none, up := true }

/-- A run that has submitted a step. -/
def ran (s : State) (p : Pos) (k : ReqKind) (o : Operands) : State :=
  s.setChan { s.chan with submitted := s.chan.submitted.put p (some ⟨k, o⟩) }

/-- An owner with one message of PTB to take. -/
def told (s : State) (o : Owner) (m : ToOwner) : State := s.setToOwner o [m]

/-- PTB with one message of an owner to take. -/
def heard (s : State) (o : Owner) (m : ToPtb) : State := s.setFromOwner o [m]

theorem asked_heads {s : State} {n : Port} {k : ReqKind} {body : List Byte} :
    (asked s n k body).Heads n k (ask k body) := by
  have : reqKindOf k.code = some k := by cases k <;> decide
  simp [State.Heads, asked, ask, this]

theorem asked_offers {s : State} {n : Port} {k : ReqKind} {body : List Byte} (hp : k.permitted n = true)
    (hl : k.lengthOk body.length = true) : (asked s n k body).Offers n k (ask k body) :=
  ⟨asked_heads, hp, hl⟩

theorem asked_sends {s : State} {n : Port} {p : Pos} {k : ReqKind} {body : List Byte} (hn : posOf n = some p)
    (hp : k.permitted n = true) (hl : k.lengthOk body.length = true) :
    ∃ t, (asked s n k body).Submits (.port n) k p body t :=
  ⟨_, hn, _, asked_offers hp hl, rfl, rfl⟩

theorem ran_sends {s : State} {p : Pos} {k : ReqKind} {o : Operands} :
    ∃ t, (ran s p k o).Submits (.run p) k p o.bytes t :=
  ⟨_, rfl, o, by simp [ran], rfl, rfl⟩

theorem told_handset {s : State} {o : Owner} {p : Pos} {h : Handset} {m : ToOwner}
    (hm : m.aboutHandset p h = true) : ∃ t, (told s o m).nextForHandset o p h = some (m, t) := by
  cases o <;> exact ⟨_, by simp [told, State.nextForHandset, State.toOwner, State.setToOwner, takeFirst, hm]; rfl⟩

theorem told_speaker {s : State} {o : Owner} {p : Pos} {k : Spk} {m : ToOwner}
    (hm : m.aboutSpeaker p k = true) : ∃ t, (told s o m).nextForSpeaker o p k = some (m, t) := by
  cases o <;> exact ⟨_, by simp [told, State.nextForSpeaker, State.toOwner, State.setToOwner, takeFirst, hm]; rfl⟩

theorem heard_handset {s : State} {o : Owner} {p : Pos} {h : Handset} {m : ToPtb}
    (hm : m.aboutHandset p h = true) : ∃ t, (heard s o m).heardOfHandset o p h = some (m, t) := by
  cases o <;> exact ⟨_, by simp [heard, State.heardOfHandset, State.fromOwner, State.setFromOwner, takeFirst, hm]; rfl⟩

theorem heard_speakers {s : State} {o : Owner} {p : Pos} {m : ToPtb}
    (hm : m.aboutSpeakers p = true) : ∃ t, (heard s o m).heardOfSpeakers o p = some (m, t) := by
  cases o <;> exact ⟨_, by simp [heard, State.heardOfSpeakers, State.fromOwner, State.setFromOwner, takeFirst, hm]; rfl⟩

/-- Line 63 with this record. -/
def at63 (r : LineRec) : State := State.reset.setLine 63 r

/-- A line record of this kind and state. -/
def ln (k : LineKind) (st : LineState) : LineRec :=
  { LineRec.reset false with cfg := { LineConfig.reset with kind := k }, state := st }

/-- Line 63 with this record and this appearance of position 15 on it. -/
def seen63 (r : LineRec) (a : Appearance) : State :=
  { at63 r with lcu := { (at63 r).lcu with apps := (at63 r).lcu.apps.put 63 (((at63 r).row 63).put 15 a) } }

/-- Position 15 with this record. -/
def at15 (r : PosRec) : State := State.reset.setPos 15 r

/-- Position 15 UP, with this claim of handset B. -/
def holding (c : Claim) : PosRec := { PosRec.reset with up := true, claim := ⟨.none, c⟩ }

/-- Group 15 with this record. -/
def grp15 (r : GroupRec) : State := State.reset.setGroup 15 r

/-- The state in which position 15 is UP at GFU. -/
def upAt15 (s : State) : State := { s with gfu := { s.gfu with up := s.gfu.up.put 15 true } }

theorem at63_line (r : LineRec) : (at63 r).line 63 = r := by simp [at63]

/-! ## Witnesses: the machine and the dispatcher -/

/-- A queue with nothing in it, and a port in each mode with its receiver in the midst of a pair, between two and in HUNT. -/
theorem witness_IdleStepIsATick :
    State.reset.pending = []
      ∧ ∀ m ∈ [PortMode.normal, .localLoop, .remoteEcho], ∀ rx ∈ [⟨.synced, some 0x96#8, []⟩, Rx.insync, Rx.hunting], ∃ s : State,
        s.pending = [] ∧ (s.port 15).mode = m ∧ (s.port 15).rx = rx :=
  ⟨rfl, fun m _ rx _ => ⟨State.reset.setPort 15 { PortRec.reset with mode := m, rx := rx }, rfl, by simp, by simp⟩⟩

theorem witness_DispatcherChecksInOrder :
    (∃ (s : State) (f : Frame), (s.port 16).inFlight = none ∧ (s.port 16).reply = none ∧ (s.port 16).queue.head? = some f
        ∧ reqKindOf f.kind = none)
      ∧ (∃ (s : State) (f : Frame), s.Heads 16 .takeLine f ∧ ReqKind.takeLine.permitted 16 = false)
      ∧ (∃ (s : State) (f : Frame), s.Heads 15 .identify f ∧ ReqKind.identify.permitted 15 = false)
      ∧ (∃ (s : State) (f : Frame), s.Heads 15 .takeLine f ∧ ReqKind.takeLine.permitted 15 = true
        ∧ ReqKind.takeLine.lengthOk f.body.length = false)
      ∧ (∃ (s : State) (f : Frame), s.Heads 16 .testFrame f ∧ ReqKind.testFrame.permitted 16 = true
        ∧ ReqKind.testFrame.lengthOk f.body.length = false) :=
  ⟨⟨State.reset.setPort 16 { State.reset.port 16 with queue := [⟨7, 0x0F, []⟩] }, ⟨7, 0x0F, []⟩, by decide +kernel⟩,
   ⟨asked State.reset 16 .takeLine [0, 0], _, asked_heads, by decide⟩,
   ⟨asked State.reset 15 .identify [], _, asked_heads, by decide⟩,
   ⟨asked State.reset 15 .takeLine [0], _, asked_heads, by decide, by decide⟩,
   ⟨asked State.reset 16 .testFrame [], _, asked_heads, by decide, by decide⟩⟩


/-- No request in flight; and one in flight on an UP and on a DOWN port, whose reply is due and whose reply is lost. -/
theorem witness_TakenRequestGetsItsReply :
    (State.reset.port 16).inFlight = none
      ∧ ∀ up ∈ [true, false], ∀ lost ∈ [true, false], ∃ s : State,
        (s.port 16).inFlight = some ⟨7, 0x10, lost⟩ ∧ (s.port 16).up = up :=
  ⟨rfl, fun up h lost h1 => ⟨State.reset.setPort 16 { PortRec.reset with inFlight := some ⟨7, 0x10, lost⟩, up := up }, by
    revert up lost; decide +kernel⟩⟩
/-! ## Witnesses: lines -/

/-- A line whose far seize is about to be found risen. -/
def rising (k : LineKind) (st : LineState) : LineRec := { ln k st with raw := true, candidate := some true, qualifyTimer := some 0 }

/-- A line whose far seize is about to be found fallen. -/
def falling (k : LineKind) (st : LineState) : LineRec :=
  { ln k st with candidate := some false, qualified := true, qualifyTimer := some 0 }

/-- A change of the input, a candidate that is discarded, one that differs on a line that does not use it, and a rise and a fall in
each state that acts on it. -/
theorem witness_FarSeizeMovesTheLine :
    ((at63 (ln .automatic .idle)).line 63).raw = !true
      ∧ (∃ r, (at63 r).line 63 = r ∧ r.qualifyTimer = some 0 ∧ r.candidate = some false ∧ r.qualified = false)
      ∧ (∀ p ∈ [(LineKind.hoot, LineState.attached), (.unused, .outOfService), (.ringdown, .outOfService)],
        ∃ r, (at63 r).line 63 = r ∧ r.qualifyTimer = some 0 ∧ r.candidate = some true ∧ r.qualified = !true
          ∧ r.cfg.kind = p.1 ∧ r.state = p.2)
      ∧ (∀ p ∈ [(LineKind.ringdown, LineState.idle), (.ringdown, .incoming), (.ringdown, .connected), (.ringdown, .held),
          (.ringdown, .releasing), (.automatic, .idle), (.automatic, .outgoing), (.automatic, .incoming),
          (.automatic, .connected), (.automatic, .held), (.automatic, .releasing)],
        ∃ r, (at63 r).line 63 = r ∧ r.qualifyTimer = some 0 ∧ r.candidate = some true ∧ r.qualified = false
          ∧ r.cfg.kind = p.1 ∧ r.state = p.2)
      ∧ (∀ p ∈ [(LineKind.ringdown, LineState.held), (.automatic, .idle), (.automatic, .outgoing), (.automatic, .releasing),
          (.automatic, .incoming), (.automatic, .connected), (.automatic, .held)],
        ∃ r, (at63 r).line 63 = r ∧ r.qualifyTimer = some 0 ∧ r.candidate = some false ∧ r.qualified = true
          ∧ r.cfg.kind = p.1 ∧ r.state = p.2 ∧ r.cfg.guardCount ≠ 0)
      ∧ (∀ st ∈ [LineState.connected, .held], ∃ r, (at63 r).line 63 = r ∧ r.qualifyTimer = some 0 ∧ r.candidate = some false
        ∧ r.qualified = true ∧ r.cfg.kind = .automatic ∧ r.state = st ∧ r.cfg.guardCount = 0)
      ∧ ∃ r, (at63 r).line 63 = r ∧ r.qualifyTimer = some 1 ∧ r.qualifyTimer ≠ some 0 :=
  ⟨by rw [at63_line]; rfl,
   ⟨{ rising .automatic .idle with candidate := some false }, at63_line _, rfl, rfl, rfl⟩,
   fun p h => ⟨rising p.1 p.2, at63_line _, rfl, rfl, rfl, rfl, rfl⟩,
   fun p h => ⟨rising p.1 p.2, at63_line _, rfl, rfl, rfl, rfl, rfl⟩,
   fun p h => ⟨falling p.1 p.2, at63_line _, rfl, rfl, rfl, rfl, rfl, by show (5 : Level) ≠ 0; decide⟩,
   fun st h => ⟨{ falling .automatic st with cfg := { LineConfig.reset with kind := .automatic, guardCount := 0 } }, at63_line _, rfl,
     rfl, rfl, rfl, rfl, rfl⟩,
   ⟨{ rising .automatic .idle with qualifyTimer := some 1 }, at63_line _, rfl, by decide⟩⟩

/-- A line whose state timer expires. -/
def timed (k : LineKind) (st : LineState) : LineRec := { ln k st with stateTimer := some 0 }

theorem witness_StateTimerExpiries :
    (∀ p ∈ [(LineKind.ringdown, LineState.incoming), (.automatic, .outgoing), (.ringdown, .connected), (.automatic, .held),
        (.automatic, .releasing)],
      ∃ r, (at63 r).line 63 = r ∧ r.stateTimer = some 0 ∧ r.cfg.kind = p.1 ∧ r.state = p.2 ∧ r.cfg.guardCount ≠ 0
        ∧ r.cfg.recallCount ≠ 0)
      ∧ (∃ r, (at63 r).line 63 = r ∧ r.stateTimer = some 0 ∧ r.cfg.kind = .automatic ∧ r.state = .outgoing
        ∧ r.cfg.guardCount = 0)
      ∧ ∃ r, (at63 r).line 63 = r ∧ r.stateTimer = some 1 ∧ r.state = .connected :=
  ⟨fun p h => ⟨timed p.1 p.2, at63_line _, rfl, rfl, rfl, by show (5 : Level) ≠ 0; decide, by show (60 : Level) ≠ 0; decide⟩,
   ⟨{ timed .automatic .outgoing with cfg := { LineConfig.reset with kind := .automatic, guardCount := 0 } }, at63_line _, rfl, rfl,
     rfl, rfl⟩,
   ⟨{ timed .automatic .connected with stateTimer := some 1 }, at63_line _, rfl, rfl⟩⟩

/-- A LINE_CONFIG body for line 63 with this kind. -/
def lineConfigBody (kind : Byte) : List Byte := [63, kind, 4, 1, 0, 128, 128, 128, 0, 0, 5, 30, 125, 60, 5]

/-- Bad operands (line 64, kind 4), a busy line, each state that may be configured, and each change of kind. -/
theorem witness_LineConfigReplacesTogether :
    (∃ (s : State) (f : Frame), s.Offers 16 .lineConfig f ∧ s.lineHeld (byteAt f.body 0) = false
        ∧ numOf 64 (byteAt f.body 0) = none)
      ∧ (∃ (s : State) (f : Frame), s.Offers 16 .lineConfig f ∧ s.lineHeld (byteAt f.body 0) = false
        ∧ lineConfigOf f.body = none)
      ∧ (∀ st ∈ [LineState.connected, .idle, .outOfService], ∃ (s : State) (f : Frame) (cfg : LineConfig),
        s.Offers 16 .lineConfig f ∧ s.lineHeld (byteAt f.body 0) = false ∧ numOf 64 (byteAt f.body 0) = some 63
        ∧ lineConfigOf f.body = some cfg ∧ (s.line 63).state = st ∧ cfg.kind = (s.line 63).cfg.kind ∧ cfg.kind ≠ .unused)
      ∧ ∀ b ∈ [(0 : Byte), 2, 3], ∃ (s : State) (f : Frame) (cfg : LineConfig),
        s.Offers 16 .lineConfig f ∧ s.lineHeld (byteAt f.body 0) = false ∧ numOf 64 (byteAt f.body 0) = some 63
        ∧ lineConfigOf f.body = some cfg ∧ (s.line 63).state = .idle ∧ (s.line 63).qualified = true
        ∧ cfg.kind ≠ (s.line 63).cfg.kind ∧ lineKindOf b = some cfg.kind :=
  ⟨⟨asked State.reset 16 .lineConfig (64 :: (lineConfigBody 1).tail), _, asked_offers rfl rfl, by decide +kernel⟩,
   ⟨asked State.reset 16 .lineConfig (lineConfigBody 4), _, asked_offers rfl rfl, by decide +kernel⟩,
   fun st h => ⟨asked (at63 (ln .ringdown st)) 16 .lineConfig (lineConfigBody 1), _,
     { LineConfig.reset with kind := .ringdown }, asked_offers rfl rfl, by revert st; decide +kernel⟩,
   fun b h => ⟨asked (at63 { ln .ringdown .idle with qualified := true }) 16 .lineConfig (lineConfigBody b), _,
     { LineConfig.reset with kind := (lineKindOf b).getD .hoot }, asked_offers rfl rfl, by revert b; decide +kernel⟩⟩


/-- A kind changed where the far seize is low, an OUT_OF_SERVICE line given each kind, one kept UNUSED, and a held line. -/
theorem witness_LineConfigReplacesTogether_kinds :
    (∃ (s : State) (f : Frame) (cfg : LineConfig), s.Offers 16 .lineConfig f ∧ s.lineHeld (byteAt f.body 0) = false
        ∧ numOf 64 (byteAt f.body 0) = some 63 ∧ lineConfigOf f.body = some cfg ∧ (s.line 63).state = .idle
        ∧ (s.line 63).qualified = false ∧ cfg.kind ≠ (s.line 63).cfg.kind ∧ cfg.kind = .automatic)
      ∧ (∀ b ∈ [(0 : Byte), 1, 2, 3], ∃ (s : State) (f : Frame) (cfg : LineConfig), s.Offers 16 .lineConfig f
        ∧ numOf 64 (byteAt f.body 0) = some 63 ∧ lineConfigOf f.body = some cfg ∧ (s.line 63).attachHold = false
        ∧ (s.line 63).state = .outOfService ∧ cfg.kind ≠ (s.line 63).cfg.kind ∧ lineKindOf b = some cfg.kind)
      ∧ (∃ (s : State) (f : Frame) (cfg : LineConfig), s.Offers 16 .lineConfig f ∧ s.lineHeld (byteAt f.body 0) = false
        ∧ numOf 64 (byteAt f.body 0) = some 63 ∧ lineConfigOf f.body = some cfg ∧ (s.line 63).state = .outOfService
        ∧ cfg.kind = .unused ∧ (s.line 63).cfg.kind = .unused)
      ∧ ∃ (s : State) (f : Frame) (cfg : LineConfig), s.Offers 16 .lineConfig f ∧ numOf 64 (byteAt f.body 0) = some 63
        ∧ lineConfigOf f.body = some cfg ∧ (s.line 63).attachHold = true := by
  refine ⟨⟨asked (at63 (ln .ringdown .idle)) 16 .lineConfig (lineConfigBody 2), _, { LineConfig.reset with kind := .automatic },
      asked_offers rfl rfl, by decide +kernel⟩,
    fun b h => ⟨asked (at63 (ln (if b = 3 then .ringdown else if b = 0 then .automatic else .hoot) .outOfService)) 16 .lineConfig
      (lineConfigBody b), _, { LineConfig.reset with kind := (lineKindOf b).getD .hoot }, asked_offers rfl rfl,
      by revert b; decide +kernel⟩,
    ⟨asked (at63 (ln .unused .outOfService)) 16 .lineConfig (lineConfigBody 0), _, { LineConfig.reset with kind := .unused },
      asked_offers rfl rfl, by decide +kernel⟩,
    ⟨asked (at63 { ln .hoot .idle with attachHold := true }) 16 .lineConfig (lineConfigBody 0), _,
      { LineConfig.reset with kind := .unused }, asked_offers rfl rfl, by decide +kernel⟩⟩
theorem witness_LineServiceOutAndIn :
    (∃ (s : State) (f : Frame), s.Offers 16 .lineService f ∧ numOf 64 (byteAt f.body 0) = some 63 ∧ byteAt f.body 1 = 0
        ∧ (s.line 63).attachHold = false ∧ (s.line 63).state = .outOfService)
      ∧ (∃ (s : State) (f : Frame), s.Offers 16 .lineService f ∧ numOf 64 (byteAt f.body 0) = some 63 ∧ byteAt f.body 1 = 0
        ∧ (s.line 63).attachHold = false ∧ (s.line 63).state ≠ .outOfService ∧ (s.line 63).hoot = none)
      ∧ (∀ p ∈ [(LineKind.unused, LineState.outOfService), (.ringdown, .idle), (.automatic, .outOfService)],
        ∃ (s : State) (f : Frame), s.Offers 16 .lineService f ∧ numOf 64 (byteAt f.body 0) = some 63 ∧ byteAt f.body 1 = 1
        ∧ (s.line 63).cfg.kind = p.1 ∧ (s.line 63).state = p.2 ∧ (s.line 63).qualified = false ∧ (s.line 63).connected = [])
      ∧ (∀ k ∈ [LineKind.ringdown, .automatic], ∃ (s : State) (f : Frame), s.Offers 16 .lineService f
        ∧ numOf 64 (byteAt f.body 0) = some 63 ∧ byteAt f.body 1 = 1 ∧ (s.line 63).cfg.kind = k
        ∧ (s.line 63).state = .outOfService ∧ (s.line 63).qualified = true ∧ (s.line 63).connected = [])
      ∧ (∃ (s : State) (f : Frame), s.Offers 16 .lineService f ∧ numOf 64 (byteAt f.body 0) = some 63 ∧ byteAt f.body 1 = 0
        ∧ (s.line 63).attachHold = true)
      ∧ (∃ (s : State) (f : Frame), s.Offers 16 .lineService f ∧ numOf 64 (byteAt f.body 0) = none)
      ∧ ∃ (s : State) (f : Frame), s.Offers 16 .lineService f ∧ byteAt f.body 1 = 2
        ∧ numOf 64 (byteAt f.body 0) = some 63 ∧ (s.line 63).attachHold = false :=
  ⟨⟨asked (at63 (ln .hoot .outOfService)) 16 .lineService [63, 0], _, asked_offers rfl rfl, by decide +kernel⟩,
   ⟨asked (at63 (ln .hoot .idle)) 16 .lineService [63, 0], _, asked_offers rfl rfl, by decide +kernel⟩,
   fun p h => ⟨asked (at63 (ln p.1 p.2)) 16 .lineService [63, 1], _, asked_offers rfl rfl, by revert p; decide +kernel⟩,
   fun k h => ⟨asked (at63 { ln k .outOfService with qualified := true }) 16 .lineService [63, 1], _, asked_offers rfl rfl,
     by revert k; decide +kernel⟩,
   ⟨asked (at63 { ln .hoot .idle with attachHold := true }) 16 .lineService [63, 0], _, asked_offers rfl rfl, by decide +kernel⟩,
   ⟨asked State.reset 16 .lineService [64, 1], _, asked_offers rfl rfl, by decide +kernel⟩,
   ⟨asked State.reset 16 .lineService [63, 2], _, asked_offers rfl rfl, by decide +kernel⟩⟩

/-! ## Witnesses: handsets and lines -/

/-- A turret and a run that ask, on a free handset and on one that is claimed; the last line and group; and bad operands. -/
theorem witness_ConnectingRequestsClaimTheHandset :
    (∀ c ∈ [Claim.none, .line 63], ((at15 (holding c)).pos 15).up = true ∧ ((at15 (holding c)).pos 15).claim.of .B = c)
      ∧ (∃ s t, State.Submits s (.port 15) .takeLine 15 [63, 1] t) ∧ (∃ s t, State.Submits s (.run 15) .takeLine 15 [63, 1, 0] t)
      ∧ (∃ s t, State.Submits s (.port 15) .joinGroup 15 [15, 1] t) ∧ (∃ s t, State.Submits s (.port 15) .callPosition 15 [15, 1, 1] t)
      ∧ (∃ s t, State.Submits s (.port 15) .answerCall 15 [7, 1] t) ∧ (∃ s t, State.Submits s (.port 15) .takeLine 15 [64, 1] t)
      ∧ (∃ s t, State.Submits s (.port 15) .takeLine 15 [63, 2] t)
      ∧ numOf 64 63 = some 63 ∧ numOf 64 64 = none ∧ numOf 16 15 = some 15 ∧ numOf 8 7 = some 7
      ∧ handsetOf 1 = some .B ∧ handsetOf 2 = none ∧ onOffOf 1 = some true :=
  ⟨by decide +kernel, ⟨_, asked_sends (s := at15 (holding .none)) rfl rfl rfl⟩,
   ⟨_, ran_sends (s := at15 (holding .none)) (o := ⟨63, 1, 0⟩)⟩, ⟨_, asked_sends (s := at15 (holding .none)) rfl rfl rfl⟩,
   ⟨_, asked_sends (s := at15 (holding .none)) rfl rfl rfl⟩, ⟨_, asked_sends (s := at15 (holding .none)) rfl rfl rfl⟩,
   ⟨_, asked_sends (s := at15 (holding .none)) rfl rfl rfl⟩, ⟨_, asked_sends (s := at15 (holding .none)) rfl rfl rfl⟩,
   by decide⟩


/-- Each operand of each of the other connecting requests one past its range, and the others in it. -/
theorem witness_ConnectingRequestsClaimTheHandset_operands :
    (∀ b ∈ [[16, 1], [15, (2 : Byte)]], ∃ s t, State.Submits s (.port 15) .joinGroup 15 b t
        ∧ (numOf 16 (byteAt b 0) = none ∨ handsetOf (byteAt b 1) = none))
      ∧ (∀ b ∈ [[0, 2, 1], [0, 1, (2 : Byte)]], ∃ s t, State.Submits s (.port 15) .callPosition 15 b t
        ∧ (handsetOf (byteAt b 1) = none ∨ onOffOf (byteAt b 2) = none))
      ∧ ∀ b ∈ [[8, 1], [7, (2 : Byte)]], ∃ s t, State.Submits s (.port 15) .answerCall 15 b t
        ∧ (numOf 8 (byteAt b 0) = none ∨ handsetOf (byteAt b 1) = none) :=
  ⟨fun b h => ⟨_, _, (asked_sends (s := State.reset) rfl rfl (by revert b; decide)).choose_spec, by revert b; decide⟩,
   fun b h => ⟨_, _, (asked_sends (s := State.reset) rfl rfl (by revert b; decide)).choose_spec, by revert b; decide⟩,
   fun b h => ⟨_, _, (asked_sends (s := State.reset) rfl rfl (by revert b; decide)).choose_spec, by revert b; decide⟩⟩
/-- The forwarded take of the witnesses, by handset B of position 15 on line 63. -/
def take63 : ToOwner := .take 15 .B .link 63

/-- A connected list of four handsets. -/
def four : List Conn := [⟨0, .A, false⟩, ⟨0, .B, false⟩, ⟨1, .A, false⟩, ⟨1, .B, false⟩]

/-- A take of handset B that waits at LCU, and RTU's answer to it. -/
def answered (s : State) (ended : Option Bool) (granted : Bool) : State :=
  { s with
    lcu := { s.lcu with waiting := [⟨15, .B, .link, 63, .incoming, ended⟩] }
    chan := { s.chan with fromRtu := [⟨15, .B, granted⟩] } }

/-- Handset B of position 15 neither waits at LCU nor stands on a line. -/
abbrev Free15 (s : State) : Prop :=
  (∀ w ∈ s.lcu.waiting, ¬(w.pos = 15 ∧ w.hs = .B)) ∧ ∀ m, (s.line m).entry 15 .B = none

/-- Handset B of position 15 stands on line 62, and line 63 is free. -/
def standing62 : State :=
  (seen63 (ln .ringdown .idle) ⟨.full, false⟩).setLine 62 { ln .ringdown .connected with connected := [⟨15, .B, false⟩] }

/-- Each failing check of a take, and each state of a line that a take completes in. -/
theorem witness_TakesAreDecidedInOrder :
    (∃ s t, State.nextForHandset s .lcu 15 .B = some (take63, t) ∧ (s.line 63).state = .outOfService ∧ Free15 s)
      ∧ (∃ s t, State.nextForHandset s .lcu 15 .B = some (take63, t) ∧ (s.line 63).state = .attached
        ∧ (s.line 63).cfg.kind = .hoot ∧ Free15 s)
      ∧ (∀ m ∈ [AppMode.none, .listen], ∃ s t, State.nextForHandset s .lcu 15 .B = some (take63, t)
        ∧ (s.line 63).state = .idle ∧ (s.line 63).cfg.kind = .ringdown ∧ ((s.row 63).look 15).mode = m ∧ Free15 s)
      ∧ (∃ s t, State.nextForHandset s .lcu 15 .B = some (take63, t)
        ∧ (s.line 63).state = .idle ∧ (s.line 63).cfg.kind = .ringdown ∧ (s.row 63).look 15 = ⟨.full, true⟩ ∧ Free15 s)
      ∧ (∃ s t, State.nextForHandset s .lcu 15 .B = some (take63, t)
        ∧ (s.line 63).state = .outgoing ∧ (s.line 63).cfg.kind = .automatic ∧ (s.row 63).look 15 = ⟨.full, false⟩ ∧ Free15 s)
      ∧ (∀ st ∈ [LineState.connected, .held], ∃ s t, State.nextForHandset s .lcu 15 .B = some (take63, t)
        ∧ (s.line 63).state = st ∧ (s.line 63).privacy = true ∧ (s.row 63).look 15 = ⟨.full, false⟩
        ∧ (∃ q, (s.line 63).owner = some q ∧ q ≠ 15) ∧ Free15 s)
      ∧ (∃ s t, State.nextForHandset s .lcu 15 .B = some (take63, t)
        ∧ (s.line 63).state = .connected ∧ (s.line 63).privacy = false ∧ (s.row 63).look 15 = ⟨.full, false⟩
        ∧ (s.line 63).connected.length = (s.line 63).cfg.bridgeLimit ∧ Free15 s)
      ∧ (∀ p ∈ [(LineKind.ringdown, LineState.idle), (.automatic, .idle), (.ringdown, .incoming), (.ringdown, .connected),
          (.automatic, .held), (.ringdown, .releasing), (.automatic, .releasing)],
        ∃ s t, State.nextForHandset s .lcu 15 .B = some (take63, t) ∧ (s.row 63).look 15 = ⟨.full, false⟩
        ∧ (s.line 63).cfg.kind = p.1 ∧ (s.line 63).state = p.2 ∧ (s.line 63).cfg.recordRequired = false
        ∧ (s.line 63).privacy = false ∧ (s.line 63).connected.length + 1 = (s.line 63).cfg.bridgeLimit
        ∧ (s.line 63).owner = some 15 ∧ (s.line 63).qualified = false ∧ Free15 s)
      ∧ (∃ s t, State.nextForHandset s .lcu 15 .B = some (take63, t) ∧ ∃ w ∈ s.lcu.waiting, w.pos = 15 ∧ w.hs = .B)
      ∧ ∃ s t, State.nextForHandset s .lcu 15 .B = some (take63, t) ∧ takeCheck (s.line 63) ((s.row 63).look 15) 15 = none
        ∧ (∀ w ∈ s.lcu.waiting, ¬(w.pos = 15 ∧ w.hs = .B)) ∧ ∃ m, ((s.line m).entry 15 .B).isSome = true := by
  have go (r : LineRec) (a : Appearance) := told_handset (s := seen63 r a) (o := .lcu) (m := take63) (p := 15) (h := .B) rfl
  refine ⟨⟨_, _, (go (ln .ringdown .outOfService) ⟨.full, false⟩).choose_spec, by decide +kernel⟩,
    ⟨_, _, (go (ln .hoot .attached) ⟨.full, false⟩).choose_spec, by decide +kernel⟩,
    fun m h => ⟨_, _, (go (ln .ringdown .idle) ⟨m, false⟩).choose_spec, by revert m; decide +kernel⟩,
    ⟨_, _, (go (ln .ringdown .idle) ⟨.full, true⟩).choose_spec, by decide +kernel⟩,
    ⟨_, _, (go (ln .automatic .outgoing) ⟨.full, false⟩).choose_spec, by decide +kernel⟩,
    fun st h => ⟨_, _, (go { ln .automatic st with privacy := true, owner := some 14 } ⟨.full, false⟩).choose_spec,
      by revert st; decide +kernel⟩,
    ⟨_, _, (go { ln .automatic .connected with connected := four } ⟨.full, false⟩).choose_spec, by decide +kernel⟩,
    fun p h => ⟨_, _, (go { ln p.1 p.2 with connected := four.tail, owner := some 15 } ⟨.full, false⟩).choose_spec,
      by revert p; decide +kernel⟩,
    ⟨_, _, (told_handset (s := answered State.reset (some true) true) (o := .lcu) (m := take63) (p := 15) (h := .B) rfl).choose_spec,
      by decide +kernel⟩,
    ⟨_, _, (told_handset (s := standing62) (o := .lcu) (m := take63) (p := 15) (h := .B) rfl).choose_spec, by decide +kernel⟩⟩

/-- Line 63, record-required, in this state with this direction. -/
def recorded (st : LineState) (d : Option Direction) : LineRec :=
  { ln .ringdown st with cfg := { LineConfig.reset with kind := .ringdown, recordRequired := true }, direction := d }

theorem answered_line (r : LineRec) (a : Appearance) (e : Option Bool) (b : Bool) : (answered (seen63 r a) e b).line 63 = r := by
  simp [answered, seen63, at63, State.line, State.setLine]

theorem answered_row (r : LineRec) (a : Appearance) (e : Option Bool) (b : Bool) : ((answered (seen63 r a) e b).row 63).look 15 = a := by
  simp [answered, seen63, State.row]

/-- With nobody on line 63, handset B of position 15 stands on no line. -/
theorem answered_free {r : LineRec} {a : Appearance} {e : Option Bool} {b : Bool} (h : r.connected = []) (m : Line) :
    ((answered (seen63 r a) e b).line m).entry 15 .B = none := by
  by_cases hm : m = 63
  · subst hm; rw [answered_line, LineRec.entry, h]; rfl
  · simp [answered, seen63, at63, State.line, State.setLine, Ne.symm hm, State.reset, State.poweredOn, Lcu.reset, LineRec.reset,
      LineRec.entry]

theorem witness_RecordedTakesWaitForCoverage :
    (∀ q ∈ [(LineState.idle, (none : Option Direction)), (.incoming, none), (.connected, some .incoming), (.held, some .outgoing)],
        ∃ s t, State.nextForHandset s .lcu 15 .B = some (take63, t)
        ∧ takeCheck (s.line 63) ((s.row 63).look 15) 15 = none ∧ (s.line 63).cfg.recordRequired = true
        ∧ (s.line 63).state = q.1 ∧ (s.line 63).direction = q.2 ∧ Free15 s)
      ∧ (∀ rec ∈ [true, false], ∀ st ∈ [LineState.outOfService, .idle, .incoming], ∀ e ∈ [none, some true], ∀ b ∈ [true, false], ∃ s : State,
        takeFirst (fun a : RtuAnswer => a.pos == 15 && a.hs == .B) s.chan.fromRtu = some (⟨15, .B, b⟩, [])
        ∧ takeFirst (fun w : Waiting => w.pos == 15 && w.hs == .B) s.lcu.waiting = some (⟨15, .B, .link, 63, .incoming, e⟩, [])
        ∧ takeCheck (s.line 63) ((s.row 63).look 15) 15 = (if st = .outOfService then some .outOfService else none)
        ∧ (s.line 63).cfg.recordRequired = rec ∧ (s.line 63).state = st ∧ ∀ m, (s.line m).entry 15 .B = none)
      ∧ ∃ s : State, takeFirst (fun a : RtuAnswer => a.pos == 15 && a.hs == .B) s.chan.fromRtu = some (⟨15, .B, true⟩, [])
        ∧ takeFirst (fun w : Waiting => w.pos == 15 && w.hs == .B) s.lcu.waiting = some (⟨15, .B, .link, 63, .incoming, none⟩, [])
        ∧ takeCheck (s.line 63) ((s.row 63).look 15) 15 = none ∧ ∃ m, ((s.line m).entry 15 .B).isSome = true := by
  have go (r : LineRec) := told_handset (s := seen63 r ⟨.full, false⟩) (o := .lcu) (m := take63) (p := 15) (h := .B) rfl
  refine ⟨fun q h => ⟨_, _, (go (recorded q.1 q.2)).choose_spec, by revert q; decide +kernel⟩,
    fun rec hr st h e he b hb => ⟨answered (seen63 { recorded st none with
      cfg := { LineConfig.reset with kind := .ringdown, recordRequired := rec } } ⟨.full, false⟩) e b, ?_⟩,
    ⟨answered standing62 none true, by decide +kernel⟩⟩
  refine ⟨rfl, rfl, ?_, ?_, ?_, answered_free rfl⟩ <;> simp only [answered_line, answered_row] <;> revert rec st e b <;> decide +kernel


/-- Every state in which a take can complete, with the direction asked for and the other, granted and not, record-required and not, of both
kinds of line and for both values of the far seize. -/
theorem witness_RecordedTakesWaitForCoverage_states :
    ∀ q ∈ [(LineState.idle, (none : Option Direction), Direction.outgoing), (.incoming, none, .incoming), (.connected, some .incoming, .incoming),
        (.connected, some .outgoing, .outgoing), (.held, some .incoming, .incoming), (.held, some .outgoing, .outgoing),
        (.releasing, some .incoming, .outgoing)],
      ∀ k ∈ [LineKind.ringdown, .automatic], ∀ rec ∈ [true, false], ∀ far ∈ [true, false], ∀ b ∈ [true, false], ∃ s : State,
        takeFirst (fun a : RtuAnswer => a.pos == 15 && a.hs == .B) s.chan.fromRtu = some (⟨15, .B, b⟩, [])
        ∧ takeFirst (fun w : Waiting => w.pos == 15 && w.hs == .B) s.lcu.waiting = some (⟨15, .B, .link, 63, .incoming, none⟩, [])
        ∧ takeCheck (s.line 63) ((s.row 63).look 15) 15 = none ∧ (∀ m, (s.line m).entry 15 .B = none)
        ∧ (s.line 63).cfg.recordRequired = rec ∧ (s.line 63).cfg.kind = k ∧ (s.line 63).state = q.1
        ∧ (s.line 63).qualified = far ∧ ((s.line 63).state = .idle ∨ (s.line 63).state = .releasing → q.2.2 = .outgoing)
        ∧ ((s.line 63).state = .incoming → q.2.2 = .incoming)
        ∧ ((s.line 63).state = .connected ∨ (s.line 63).state = .held → (s.line 63).direction = some q.2.2) := by
  refine fun q h k hk rec hr far hf b hb => ⟨answered (seen63 { recorded q.1 q.2.1 with
    cfg := { LineConfig.reset with kind := k, recordRequired := rec }, qualified := far } ⟨.full, false⟩) none b, ?_⟩
  refine ⟨rfl, rfl, ?_, answered_free rfl, ?_⟩ <;> simp only [answered_line, answered_row] <;> revert q k rec far b <;> decide +kernel
/-- An acceptance that finds its claim pending and one that does not, a refusal, a release notice that still names the claim and one
that does not. -/
theorem witness_OwnersSettleTheClaim :
    (∀ c ∈ [Claim.pending .link, .pending .run, .none], ∃ s t, State.heardOfHandset s .lcu 15 .B =
        some (.outcome 15 .B .link (.inl (.line 63)), t) ∧ (s.pos 15).claim.of .B = c)
      ∧ (∃ s t, State.heardOfHandset s .gfu 15 .B = some (.outcome 15 .B .link (.inr .badKind), t)
        ∧ (s.pos 15).claim.of .B = .pending .link)
      ∧ (∀ c ∈ [Claim.call 7, .group 15], ∃ s t, State.heardOfHandset s .gfu 15 .B = some (.released 15 .B (.call 7), t)
        ∧ (s.pos 15).claim.of .B = c) := by
  have go (c : Claim) (o : Owner) (m : ToPtb) (h : m.aboutHandset 15 .B = true) :=
    heard_handset (s := at15 (holding c)) (o := o) h
  exact ⟨fun c h => ⟨_, _, (go c .lcu _ rfl).choose_spec, by revert c; decide +kernel⟩,
    ⟨_, _, (go (.pending .link) .gfu _ rfl).choose_spec, by decide +kernel⟩,
    fun c h => ⟨_, _, (go c .gfu _ rfl).choose_spec, by revert c; decide +kernel⟩⟩

/-- Every form of claim, with a release, a hold and a mute of handset B. -/
theorem witness_ReleaseHoldAndMuteReadTheClaim :
    ∀ c ∈ [Claim.none, .pending .link, .line 63, .group 15, .call 7], ∃ s : State, (s.pos 15).claim.of .B = c
      ∧ handsetOf (byteAt [1] 0) = some .B ∧ onOffOf (byteAt [1, 1] 1) = some true
      ∧ (∃ t, (asked s 15 .release [1]).Submits (.port 15) .release 15 [1] t)
      ∧ (∃ t, (ran s 15 .hold ⟨1, 0, 0⟩).Submits (.run 15) .hold 15 [1, 0, 0] t)
      ∧ ∃ t, (asked s 15 .mute [1, 1]).Submits (.port 15) .mute 15 [1, 1] t :=
  fun c h => ⟨at15 (holding c), by revert c; decide +kernel, rfl, rfl, asked_sends rfl rfl rfl, ran_sends,
    asked_sends rfl rfl rfl⟩


/-- A handset of no code for each, and a mute of no code. -/
theorem witness_ReleaseHoldAndMuteReadTheClaim_operands :
    handsetOf (byteAt [2] 0) = none ∧ onOffOf (byteAt [1, 2] 1) = none
      ∧ (∃ s t, State.Submits s (.port 15) .release 15 [2] t) ∧ (∃ s t, State.Submits s (.port 15) .hold 15 [2] t)
      ∧ (∃ s t, State.Submits s (.port 15) .mute 15 [2, 1] t) ∧ ∃ s t, State.Submits s (.port 15) .mute 15 [1, 2] t :=
  ⟨rfl, rfl, ⟨_, asked_sends (s := State.reset) rfl rfl rfl⟩, ⟨_, asked_sends (s := State.reset) rfl rfl rfl⟩,
   ⟨_, asked_sends (s := State.reset) rfl rfl rfl⟩, ⟨_, asked_sends (s := State.reset) rfl rfl rfl⟩⟩
/-- A bridged line, a group, a handset that stands nowhere, and the last handset of a call, for a release and a return notice. -/
theorem witness_OwnersReleaseTheHandset :
    (∀ m ∈ [ToOwner.giveBack 15 .B (.line 63), .release 15 .B .link (.line 63)], ∃ s t c,
        State.nextForHandset s .lcu 15 .B = some (m, t) ∧ (s.line 63).state = .connected
        ∧ (s.line 63).connected.filter (fun d => d.pos == 15 && d.hs == .B) = [c]
        ∧ (s.line 63).connected.filter (fun d => !(d.pos == 15 && d.hs == .B)) ≠ [])
      ∧ (∃ s t, State.nextForHandset s .gfu 15 .B = some (.release 15 .B .link (.group 15), t)
        ∧ (s.group 15).handsetOf 15 = some .B)
      ∧ (∀ m ∈ [ToOwner.giveBack 15 .B (.line 63), .release 15 .B .link (.line 63)], ∃ s t,
        State.nextForHandset s .lcu 15 .B = some (m, t) ∧ (s.line 63).entry 15 .B = none)
      ∧ (∀ c ∈ [Claim.line 63, .group 15], ((at15 (holding c)).pos 15).claim.of .B = c)
      ∧ ∀ st ∈ [LineState.outgoing, .connected], ∃ s t c,
        State.nextForHandset s .lcu 15 .B = some (.giveBack 15 .B (.line 63), t) ∧ (s.line 63).connected = [c]
        ∧ c.pos = 15 ∧ c.hs = .B ∧ (s.line 63).state = st ∧ (s.line 63).cfg.guardCount ≠ 0 := by
  have go (r : LineRec) (m : ToOwner) (h : m.aboutHandset 15 .B = true) := told_handset (s := at63 r) (o := .lcu) h
  refine ⟨fun m h => ?_, ⟨_, _, (told_handset (s := grp15 { GroupRec.reset with joined := [(0, .A), (15, .B)] }) (o := .gfu)
      (m := .release 15 .B .link (.group 15)) (p := 15) (h := .B) rfl).choose_spec, by decide +kernel⟩,
    fun m h => ?_, by decide +kernel, fun st h => ⟨_, _, ⟨15, .B, true⟩,
      (go { ln .automatic st with connected := [⟨15, .B, true⟩] } _ rfl).choose_spec, by revert st; decide +kernel⟩⟩
  · have hm : m.aboutHandset 15 .B = true := by revert m; decide
    exact ⟨_, _, ⟨15, .B, true⟩, (go { ln .automatic .connected with connected := [⟨0, .A, false⟩, ⟨15, .B, true⟩] } m
      hm).choose_spec, by revert m; decide +kernel⟩
  · have hm : m.aboutHandset 15 .B = true := by revert m; decide
    exact ⟨_, _, (go (ln .automatic .connected) m hm).choose_spec, by revert m; decide +kernel⟩


/-- The last handset of a line released with a guard count of 0, and its claim; both parties of a call and the caller of an ALERTING one,
told to release and to take back; a group's member taken back; and a handset that GFU no longer holds. -/
theorem witness_OwnersReleaseTheHandset_calls :
    (∀ m ∈ [ToOwner.giveBack 15 .B (.line 63), .release 15 .B .link (.line 63)], ∃ s t c,
        State.nextForHandset s .lcu 15 .B = some (m, t) ∧ (s.line 63).connected = [c] ∧ c.pos = 15 ∧ c.hs = .B
        ∧ (s.line 63).state = .connected ∧ (s.line 63).cfg.guardCount = 0 ∧ (s.pos 15).claim.of .B = .line 63)
      ∧ (∀ c ∈ [CallRec.active 15 .B 14 .A true, .active 14 .A 15 .B false, .alerting 15 .B 14 true (some 20)],
        ∀ m ∈ [ToOwner.giveBack 15 .B (.call 7), .release 15 .B .link (.call 7)], ∃ s t,
        State.nextForHandset s .gfu 15 .B = some (m, t) ∧ s.call 7 = c ∧ (s.pos 15).claim.of .B = .call 7)
      ∧ (∀ m ∈ [ToOwner.giveBack 15 .B (.group 15), .release 15 .B .link (.group 15)], ∃ s t,
        State.nextForHandset s .gfu 15 .B = some (m, t) ∧ (s.group 15).handsetOf 15 = some .B
        ∧ (s.pos 15).claim.of .B = .group 15)
      ∧ ∀ c ∈ [Claim.group 15, .call 7], ∀ m ∈ [ToOwner.giveBack 15 .B c, .release 15 .B .link c], ∃ s t,
        State.nextForHandset s .gfu 15 .B = some (m, t) ∧ (s.group 15).handsetOf 15 ≠ some .B
        ∧ (s.call 7).holds 15 .B = false := by
  have go (s : State) (o : Owner) (m : ToOwner) (h : m.aboutHandset 15 .B = true) := (told_handset (s := s) (o := o) h).choose_spec
  refine ⟨fun m h => ?_, fun c hc m h => ?_, fun m h => ?_, fun c hc m h => ?_⟩
  · have hm : m.aboutHandset 15 .B = true := by revert m; decide
    exact ⟨_, _, ⟨15, .B, true⟩, go ((at63 { ln .automatic .connected with
      connected := [⟨15, .B, true⟩], cfg := { LineConfig.reset with guardCount := 0 } }).setPos 15 (holding (.line 63))) .lcu m hm,
      by revert m; decide +kernel⟩
  · have hm : m.aboutHandset 15 .B = true := by revert m; decide
    exact ⟨_, _, go ((at15 (holding (.call 7))).setCall 7 c) .gfu m hm, by revert c m; decide +kernel⟩
  · have hm : m.aboutHandset 15 .B = true := by revert m; decide
    exact ⟨_, _, go ((at15 (holding (.group 15))).setGroup 15 { GroupRec.reset with joined := [(0, .A), (15, .B)] }) .gfu m hm,
      by revert m; decide +kernel⟩
  · have hm : m.aboutHandset 15 .B = true := by revert c m; decide
    exact ⟨_, _, go (at15 (holding c)) .gfu m hm, by revert c m; decide +kernel⟩
/-- A HOLD that finds no handset, a bridged line, an OUTGOING line and a CONNECTED one of its own; and a privacy and a ring on the last
line. -/
theorem witness_HoldPrivacyAndRing :
    (∃ s t, State.nextForHandset s .lcu 15 .B = some (.hold 15 .B .link 63, t) ∧ (s.line 63).entry 15 .B = none)
      ∧ (∃ s t, State.nextForHandset s .lcu 15 .B = some (.hold 15 .B .link 63, t)
        ∧ ((s.line 63).entry 15 .B).isSome = true ∧ (s.line 63).connected.length ≠ 1)
      ∧ (∀ st ∈ [LineState.outgoing, .connected], ∃ s t c,
        State.nextForHandset s .lcu 15 .B = some (.hold 15 .B .link 63, t) ∧ (s.line 63).connected = [c] ∧ c.pos = 15
        ∧ c.hs = .B ∧ ((s.line 63).entry 15 .B).isSome = true ∧ (s.line 63).state = st ∧ (s.pos 15).claim.of .B = .line 63)
      ∧ (∃ s t, State.Submits s (.port 15) .setPrivacy 15 [63, 1] t) ∧ (∃ s t, State.Submits s (.run 15) .signalLine 15 [63, 0, 0] t)
      ∧ numOf 64 (byteAt [63, 1] 0) = some 63 ∧ onOffOf (byteAt [63, 1] 1) = some true := by
  have go (r : LineRec) := told_handset (s := (at63 r).setPos 15 (holding (.line 63))) (o := .lcu)
    (m := .hold 15 .B .link 63) (p := 15) (h := .B) rfl
  exact ⟨⟨_, _, (go (ln .ringdown .connected)).choose_spec, by decide +kernel⟩,
    ⟨_, _, (go { ln .ringdown .connected with connected := [⟨0, .A, false⟩, ⟨15, .B, false⟩] }).choose_spec, by decide +kernel⟩,
    fun st h => ⟨_, _, ⟨15, .B, false⟩, (go { ln .ringdown st with connected := [⟨15, .B, false⟩] }).choose_spec,
      by revert st; decide +kernel⟩,
    ⟨_, asked_sends (s := State.reset) (n := 15) rfl rfl rfl⟩, ⟨_, ran_sends (s := State.reset) (o := ⟨63, 0, 0⟩)⟩, by decide⟩


/-- A handset of no code, a line one past the last, and a privacy of no code. -/
theorem witness_HoldPrivacyAndRing_operands :
    handsetOf (byteAt [2] 0) = none ∧ numOf 64 (byteAt [64] 0) = none ∧ onOffOf (byteAt [63, 2] 1) = none
      ∧ (∃ s t, State.Submits s (.port 15) .hold 15 [2] t) ∧ (∃ s t, State.Submits s (.port 15) .signalLine 15 [64] t)
      ∧ (∃ s t, State.Submits s (.port 15) .setPrivacy 15 [64, 1] t) ∧ ∃ s t, State.Submits s (.port 15) .setPrivacy 15 [63, 2] t :=
  ⟨rfl, rfl, rfl, ⟨_, asked_sends (s := State.reset) rfl rfl rfl⟩, ⟨_, asked_sends (s := State.reset) rfl rfl rfl⟩,
   ⟨_, asked_sends (s := State.reset) rfl rfl rfl⟩, ⟨_, asked_sends (s := State.reset) rfl rfl rfl⟩⟩
/-- Position 15 with speaker S6 as these say. -/
def speaker6 (up : Bool) (x : Target) (ask : Option Asking) : PosRec :=
  { PosRec.reset with up := up, assign := (Table.fill .none).put 5 x, asking := (Table.fill none).put 5 ask }

/-- Each case of ASSIGN_SPEAKER, on speaker S6 of position 15: DOWN, out of range, waiting, no change, and a change to nothing, to a
line and to a group. -/
theorem witness_AssignSpeakerAsksTheOwner :
    (∀ x ∈ [Target.none, .line 63, .group 15], ∀ m ∈ [none, some (⟨.link, false, false⟩ : Asking)], ∀ up ∈ [true, false],
        ((at15 (speaker6 up x m)).pos 15).up = up ∧ ((at15 (speaker6 up x m)).pos 15).assign.look 5 = x
        ∧ ((at15 (speaker6 up x m)).pos 15).asking.look 5 = m)
      ∧ (∀ b ∈ [[(6 : Byte), 0, 0], [6, 1, 63], [6, 2, 15], [7, 0, 0], [6, 1, 64], [6, 3, 0]],
        ∃ t, (asked (at15 (speaker6 true .none none)) 15 .assignSpeaker b).Submits (.port 15) .assignSpeaker 15 b t)
      ∧ speakerOf 6 = some 5 ∧ speakerOf 7 = none ∧ targetOf 0 0 = some .none ∧ targetOf 1 63 = some (.line 63)
      ∧ targetOf 1 64 = none ∧ targetOf 2 15 = some (.group 15) ∧ targetOf 3 0 = none :=
  ⟨by decide +kernel, fun b h => asked_sends rfl rfl (by revert b; decide), by decide⟩

/-- Each answer of an owner, each way PTB takes one, and a removal of the last line and the last group. -/
theorem witness_SpeakersFollowTheirOwners :
    (∃ s t, State.nextForSpeaker s .lcu 15 5 = some (.speaker 15 5 (.line 63), t))
      ∧ (∃ s t, State.nextForSpeaker s .gfu 15 5 = some (.speaker 15 5 (.group 15), t))
      ∧ (∀ x ∈ [Target.line 63, .group 15], ∀ c ∈ [none, some Code.badKind], ∀ m ∈ [(⟨.link, true, false⟩ : Asking),
          ⟨.link, false, true⟩, ⟨.run, false, false⟩], ∀ up ∈ [true, false], ∀ early ∈ [true, false],
        ∃ s t, State.heardOfSpeakers s .lcu 15 = some (.answer 15 5 x c early, t) ∧ (s.pos 15).asking.look 5 = some m
        ∧ (s.pos 15).up = up)
      ∧ (∃ s t, State.heardOfSpeakers s .lcu 15 = some (.remove 15 (.line 63), t))
      ∧ ∃ s t, State.heardOfSpeakers s .gfu 15 = some (.remove 15 (.group 15), t) :=
  ⟨⟨_, told_speaker (s := State.reset) rfl⟩, ⟨_, told_speaker (s := State.reset) rfl⟩,
   fun x _ c _ m _ up _ early _ => ⟨_, _, (heard_speakers (s := at15 (speaker6 up .none (some m))) (o := .lcu) (p := 15)
     (m := .answer 15 5 x c early) rfl).choose_spec, by simp [heard, State.setFromOwner, at15, speaker6, State.pos, State.setPos],
     by simp [heard, State.setFromOwner, at15, speaker6, State.pos, State.setPos]⟩,
   ⟨_, heard_speakers (s := State.reset) rfl⟩, ⟨_, heard_speakers (s := State.reset) rfl⟩⟩

/-- The same state with a soft reset in progress that these owners have taken. -/
def passed (r : ResetProgress) (s : State) : State := { s with lki := { s.lki with softReset := some r } }

/-- A question at an owner that PTB is ahead of in a soft reset, at one that has taken it too, and with none in progress. -/
theorem witness_SpeakersFollowTheirOwners_early :
    (∀ lcu ∈ [true, false], ∃ s t q, State.nextForSpeaker s .lcu 15 5 = some (.speaker 15 5 (.line 63), t)
        ∧ s.lki.softReset = some q ∧ q.ptb = true ∧ q.lcu = lcu)
      ∧ (∀ gfu ∈ [true, false], ∃ s t q, State.nextForSpeaker s .gfu 15 5 = some (.speaker 15 5 (.group 15), t)
        ∧ s.lki.softReset = some q ∧ q.ptb = true ∧ q.gfu = gfu)
      ∧ ∀ o : Owner, (told State.reset o (.speaker 15 5 .none)).lki.softReset = none :=
  ⟨fun lcu _ => ⟨_, _, _, (told_speaker (s := passed ⟨true, lcu, false, false, false, false⟩ State.reset) rfl).choose_spec, rfl, rfl, rfl⟩,
   fun gfu _ => ⟨_, _, _, (told_speaker (s := passed ⟨true, false, gfu, false, false, false⟩ State.reset) rfl).choose_spec, rfl, rfl, rfl⟩,
   fun o => by cases o <;> rfl⟩

theorem witness_VolumesAndSettings :
    (∃ s t, State.Submits s (.port 15) .setVolume 15 [6, 255, 0] t) ∧ (∃ s t, State.Submits s (.run 15) .setVolume 15 [6, 255, 0] t)
      ∧ (∃ s f, State.Offers s 16 .setVolume f ∧ speakerOf (byteAt f.body 0) = some 5 ∧ numOf 16 (byteAt f.body 2) = some 15)
      ∧ (∃ s t, State.Submits s (.port 15) .setVolume 15 [7, 255, 0] t ∧ speakerOf (byteAt [7, 255, 0] 0) = none)
      ∧ (∀ b ∈ [[(7 : Byte), 255, 15], [6, 255, 16]], ∃ s f, State.Offers s 16 .setVolume f ∧ f.body = b
        ∧ (speakerOf (byteAt f.body 0) = none ∨ numOf 16 (byteAt f.body 2) = none))
      ∧ (∃ s f, State.Offers s 16 .positionConfig f ∧ numOf 16 (byteAt f.body 0) = some 15
        ∧ speakerOf (byteAt f.body 1) = some 5 ∧ numOf 4 (byteAt f.body 7) = some 3)
      ∧ ∀ b ∈ [[(16 : Byte), 6, 0, 0, 0, 0, 0, 3, 0, 0], [15, 7, 0, 0, 0, 0, 0, 3, 0, 0], [15, 6, 0, 0, 0, 0, 0, 4, 0, 0]],
        ∃ s f, State.Offers s 16 .positionConfig f ∧ f.body = b ∧ (numOf 16 (byteAt f.body 0) = none
          ∨ speakerOf (byteAt f.body 1) = none ∨ numOf 4 (byteAt f.body 7) = none) :=
  ⟨⟨_, asked_sends (s := State.reset) (n := 15) rfl rfl rfl⟩, ⟨_, ran_sends (s := State.reset) (o := ⟨6, 255, 0⟩)⟩,
   ⟨asked State.reset 16 .setVolume [6, 255, 15], _, asked_offers rfl rfl, by decide⟩,
   ⟨_, _, (asked_sends (s := State.reset) (n := 15) (body := [7, 255, 0]) rfl rfl rfl).choose_spec, by decide⟩,
   fun b h => ⟨asked State.reset 16 .setVolume b, _, asked_offers rfl (by revert b; decide), rfl, by revert b; decide⟩,
   ⟨asked State.reset 16 .positionConfig [15, 6, 16, 48, 0, 64, 32, 3, 1, 1], _, asked_offers rfl rfl, by decide⟩,
   fun b h => ⟨asked State.reset 16 .positionConfig b, _, asked_offers rfl (by revert b; decide), rfl, by revert b; decide⟩⟩

/-- QUERY_LINE of a position without and with an appearance and of the manager; QUERY_POSITION from a strange port, from the own port,
from the manager, and with a part of neither kind. -/
theorem witness_QueriesOfLinesAndPositions :
    (∀ m ∈ [AppMode.none, .listen], ∃ s f, State.Offers s 15 .queryLine f ∧ numOf 64 (byteAt f.body 0) = some 63
        ∧ posOf 15 = some 15 ∧ ((s.row 63).look 15).mode = m)
      ∧ (∃ s f, State.Offers s 16 .queryLine f ∧ numOf 64 (byteAt f.body 0) = some 63)
      ∧ (∀ n ∈ [(14 : Port), 15, 16], ∀ part ∈ [(0 : Byte), 1, 2], ∃ s f, State.Offers s n .queryPosition f
        ∧ numOf 16 (byteAt f.body 0) = some 15 ∧ byteAt f.body 1 = part)
      ∧ (∀ n ∈ [(15 : Port), 16], ∃ s f, State.Offers s n .queryLine f ∧ 63 < (byteAt f.body 0).toNat)
      ∧ ∀ n ∈ [(15 : Port), 16], ∃ s f, State.Offers s n .queryPosition f ∧ 15 < (byteAt f.body 0).toNat :=
  ⟨fun m h => ⟨asked (seen63 (ln .ringdown .idle) ⟨m, true⟩) 15 .queryLine [63], _, asked_offers rfl rfl, by
     revert m; decide +kernel⟩,
   ⟨asked State.reset 16 .queryLine [63], _, asked_offers rfl rfl, by decide⟩,
   fun n hn part hp => ⟨asked State.reset n .queryPosition [15, part], _, asked_offers (by revert n; decide) rfl,
     rfl, rfl⟩,
   fun n hn => ⟨asked State.reset n .queryLine [64], _, asked_offers (by revert n; decide) rfl, by decide⟩,
   fun n hn => ⟨asked State.reset n .queryPosition [16, 0], _, asked_offers (by revert n; decide) rfl, by decide⟩⟩

/-- APPEARANCE_SET with each bad operand, to the same mode, to another, and from FULL on a HELD line; APPEARANCE_BAR in each scope, where
nothing changes and where something does. -/
theorem witness_AppearancesAreSetAndBarred :
    (∀ b ∈ [[(64 : Byte), 15, 1], [63, 16, 1], [63, 15, 3]], ∃ s f, State.Offers s 16 .appearanceSet f ∧ f.body = b
        ∧ (numOf 64 (byteAt f.body 0) = none ∨ numOf 16 (byteAt f.body 1) = none ∨ appModeOf (byteAt f.body 2) = none))
      ∧ (∀ m ∈ [AppMode.none, .full, .listen], ∃ s f, State.Offers s 16 .appearanceSet f
        ∧ numOf 64 (byteAt f.body 0) = some 63 ∧ numOf 16 (byteAt f.body 1) = some 15
        ∧ appModeOf (byteAt f.body 2) = some .listen ∧ ((s.row 63).look 15).mode = m ∧ (s.line 63).state = .held
        ∧ (s.line 63).connected = [] ∧ (s.line 63).owner = some 15)
      ∧ (∀ b ∈ [[(0 : Byte), 63, 15, 1], [1, 63, 0, 1], [2, 0, 15, 0], [3, 0, 0, 0]], ∃ s f,
        State.Offers s 16 .appearanceBar f ∧ f.body = b)
      ∧ numOf 64 63 = some 63 ∧ numOf 16 15 = some 15 ∧ onOffOf 0 = some false ∧ onOffOf 1 = some true
      ∧ (∀ l p, ((State.reset.row l).look p).barred = true) ∧ ((State.reset.row 63).look 15).barred ≠ false :=
  ⟨fun b h => ⟨asked State.reset 16 .appearanceSet b, _, asked_offers rfl (by revert b; decide), rfl, by revert b; decide⟩,
   fun m h => ⟨asked (seen63 { ln .ringdown .held with owner := some 15 } ⟨m, false⟩) 16 .appearanceSet [63, 15, 2], _,
     asked_offers rfl rfl, by revert m; decide +kernel⟩,
   fun b h => ⟨asked State.reset 16 .appearanceBar b, _, asked_offers rfl (by revert b; decide), rfl⟩,
   by decide, by decide, by decide, by decide,
   fun l p => by simp [State.reset, State.poweredOn, State.row, Lcu.reset], by decide +kernel⟩


/-- APPEARANCE_SET from FULL to LISTEN and to NONE with the last handsets of a line, with and without a guard, with handsets of others and
with none; from LISTEN to NONE; and each bad APPEARANCE_BAR. -/
theorem witness_AppearancesAreSetAndBarred_released :
    (∀ b ∈ [(0 : Byte), 2], ∀ cs ∈ [[], [(⟨15, .A, true⟩ : Conn), ⟨15, .B, false⟩], [⟨0, .A, false⟩, ⟨15, .B, true⟩]],
        ∀ guard ∈ [(0 : Level), 5], ∃ (s : State) (f : Frame) (m : AppMode), s.Offers 16 .appearanceSet f
        ∧ numOf 64 (byteAt f.body 0) = some 63 ∧ numOf 16 (byteAt f.body 1) = some 15 ∧ appModeOf (byteAt f.body 2) = some m
        ∧ ((s.row 63).look 15).mode = .full ∧ ((s.row 63).look 15).mode ≠ m ∧ (s.line 63).state = .connected
        ∧ (s.line 63).connected = cs ∧ (s.line 63).cfg.guardCount = guard ∧ appModeOf b = some m)
      ∧ (∃ (s : State) (f : Frame), s.Offers 16 .appearanceSet f ∧ numOf 64 (byteAt f.body 0) = some 63
        ∧ numOf 16 (byteAt f.body 1) = some 15 ∧ appModeOf (byteAt f.body 2) = some .none ∧ ((s.row 63).look 15).mode = .listen)
      ∧ ∀ b ∈ [[(4 : Byte), 0, 0, 0], [3, 0, 0, 2], [0, 64, 0, 0], [1, 64, 0, 0], [0, 0, 16, 0], [2, 0, 16, 0]],
        ∃ (s : State) (f : Frame), s.Offers 16 .appearanceBar f ∧ f.body = b
        ∧ (3 < (byteAt f.body 0).toNat ∨ onOffOf (byteAt f.body 3) = none
          ∨ ((byteAt f.body 0 = 0 ∨ byteAt f.body 0 = 1) ∧ numOf 64 (byteAt f.body 1) = none)
          ∨ ((byteAt f.body 0 = 0 ∨ byteAt f.body 0 = 2) ∧ numOf 16 (byteAt f.body 2) = none)) :=
  ⟨fun b hb cs hc gd hg => ⟨asked (seen63 { ln .ringdown .connected with
     connected := cs, cfg := { LineConfig.reset with kind := .ringdown, guardCount := gd } } ⟨.full, false⟩) 16 .appearanceSet
     [63, 15, b], _, (appModeOf b).getD .full, asked_offers rfl rfl, by revert b cs gd; decide +kernel⟩,
   ⟨asked (seen63 (ln .ringdown .idle) ⟨.listen, false⟩) 16 .appearanceSet [63, 15, 0], _, asked_offers rfl rfl, by decide +kernel⟩,
   fun b h => ⟨asked State.reset 16 .appearanceBar b, _, asked_offers rfl (by revert b; decide), rfl, by revert b; decide⟩⟩
/-- A group of this kind whose mask is every position. -/
def grp (k : GroupKind) : GroupRec := { GroupRec.reset with kind := k, allow := Table.fill true }

/-- A HOOT floor of group 15 on which every position listens. -/
def hoot15 (f : Floor) : GroupRec := { grp .hoot with listening := Table.fill true, floor := f }

/-- The state in which every block has the down notice of position 15, or PTB's UP notice of it, to take. -/
def notices15 (s : State) : State :=
  s.setChan { s.chan with
    downPtb := [15], downLcu := [15], downGfu := [15], downSqu := [15], downEvu := [15, 16], ups := [15] }

/-- Position 15 with a floor to lose: as its holder, with nobody and with one waiting, and as an open talker. -/
def lost15 : List Floor :=
  [{ Floor.empty with holder := some ⟨15, 0, false, false, .explicit⟩ },
   { Floor.empty with holder := some ⟨15, 0, false, false, .explicit⟩, wait := [⟨0, 1, false, .vox⟩] },
   { Floor.empty with talkers := [⟨15, .vox⟩] }, Floor.empty]

/-- Position 14 holds the floor in this way. -/
def held14 (lv : Fin 4) (latched pinned : Bool) : Floor := { Floor.empty with holder := some ⟨14, lv, latched, pinned, .explicit⟩ }

/-- A floor that position `p` holds, with three waiting, of whom position 0 is the grant rule's choice and, unless `lv` is its level 2,
the last of its level, and two deferred. -/
def passing (p : Pos) (pinned : Bool) (o : Origin) (lv : Fin 4) : Floor := { Floor.empty with
  holder := some ⟨p, 0, false, pinned, o⟩
  wait := [⟨13, 1, false, .vox⟩, ⟨0, 2, true, .explicit⟩, ⟨12, lv, false, .vox⟩]
  deferred := [⟨11, 2, false, .explicit⟩, ⟨10, 1, false, .explicit⟩] }

/-- A floor that position 14 holds, with position 15 waiting between two others and two deferred. -/
def waiting15 (o : Origin) (lv : Fin 4) : Floor := { held14 0 false false with
  wait := [⟨13, 1, false, .vox⟩, ⟨15, 2, true, o⟩, ⟨12, lv, false, .vox⟩]
  deferred := [⟨11, 2, false, .explicit⟩, ⟨10, 1, false, .explicit⟩] }

/-- The deferred entries of those floors that move up when the entry of level 2 leaves, and those that stay. -/
def moves (lv : Fin 4) : List Waiter × List Waiter :=
  if lv = 2 then ([], [⟨11, 2, false, .explicit⟩, ⟨10, 1, false, .explicit⟩]) else ([⟨11, 2, false, .explicit⟩], [⟨10, 1, false, .explicit⟩])

/-- The choice of the grant rule on the first of those floors, and position 15's entry on the second. -/
theorem floors_split : ∀ lv ∈ [(1 : Fin 4), 2], ∀ o ∈ [Origin.explicit, .vox], ∀ pinned ∈ [true, false],
    (passing 15 pinned o lv).Picks ⟨0, 2, true, .explicit⟩ [⟨13, 1, false, .vox⟩] [⟨12, lv, false, .vox⟩] (moves lv).1 (moves lv).2
      ∧ (waiting15 o lv).Splits ⟨15, 2, true, o⟩ [⟨13, 1, false, .vox⟩] [⟨12, lv, false, .vox⟩] (moves lv).1 (moves lv).2 := by
  decide +kernel

/-- Every block's notice; a line that loses its last handset, with and without a guard; and each loss at GFU. -/
theorem witness_BlocksTakeTheDownNotice :
    takeFirst (· == 15) (notices15 State.reset).chan.downPtb = some (15, [])
      ∧ takeFirst (· == 15) (notices15 State.reset).chan.downLcu = some (15, [])
      ∧ takeFirst (· == 15) (notices15 State.reset).chan.downSqu = some (15, [])
      ∧ takeFirst (· == 15) (notices15 State.reset).chan.ups = some (15, [])
      ∧ takeFirst (· == 15) (notices15 State.reset).chan.downEvu = some (15, [16])
      ∧ takeFirst (· == 16) (notices15 State.reset).chan.downEvu = some (16, [15])
      ∧ (∀ guard ∈ [(0 : Level), 5], ∃ s : State, takeFirst (· == 15) s.chan.downLcu = some (15, [])
        ∧ (s.line 63).connected = [⟨15, .B, true⟩] ∧ (s.line 63).state = .connected ∧ (s.line 63).cfg.guardCount = guard)
      ∧ (∀ f ∈ lost15, ∃ s : State, takeFirst (· == 15) s.chan.downGfu = some (15, []) ∧ (s.group 15).floor = f
        ∧ ∀ k, k ≠ 15 → (s.group k).floor.engaged 15 = false)
      ∧ (notices15 State.reset).FloorsSound :=
  ⟨rfl, rfl, rfl, rfl, rfl, rfl,
   fun gd h => ⟨notices15 (at63 { ln .ringdown .connected with
     connected := [⟨15, .B, true⟩], cfg := { LineConfig.reset with kind := .ringdown, guardCount := gd } }), rfl,
     by revert gd; decide +kernel⟩,
   fun f h => ⟨notices15 (grp15 (hoot15 f)), rfl, by revert f; decide +kernel⟩,
   by
    intro g
    simp [notices15, State.reset, State.poweredOn, State.group, State.setChan, Gfu.reset, Floor.Sound, GroupRec.reset,
      Floor.empty, Floor.everyone]⟩


/-- Each order of PTB and of the two owners at one notice, for a handset that is claimed and stands on a line, in a group and in a call. -/
theorem witness_BlocksTakeTheDownNotice_orders :
    (∀ c ∈ [Claim.line 63, .group 15, .call 7], ∀ d ∈ [[], [(15 : Pos)]],
        ∃ s : State, takeFirst (· == 15) s.chan.downPtb = some (15, []) ∧ (s.pos 15).claim.of .B = c
        ∧ s.chan.downLcu = d ∧ s.chan.downGfu = d)
      ∧ ∀ d ∈ [[], [(15 : Pos)]], ∃ s : State, takeFirst (· == 15) s.chan.downLcu = some (15, [])
        ∧ takeFirst (· == 15) s.chan.downGfu = some (15, []) ∧ s.chan.downPtb = d ∧ (s.line 63).connected = [⟨15, .B, false⟩]
        ∧ (s.group 15).joined = [(15, .A)] ∧ (s.call 7).handsets = [(15, .B), (13, .A)] :=
  ⟨fun c _ d _ => ⟨(at15 (holding c)).setChan { State.reset.chan with downPtb := [15], downLcu := d, downGfu := d }, rfl, by
     simp [at15, holding, Pair.of], rfl, rfl⟩,
   fun d _ => ⟨((((at63 { ln .ringdown .connected with connected := [⟨15, .B, false⟩] }).setGroup 15
     { grp .intercom with joined := [(15, .A)] }).setCall 7 (.active 15 .B 13 .A true))).setChan
       { State.reset.chan with downPtb := d, downLcu := [15], downGfu := [15] }, rfl, rfl, rfl, by
     simp [at63, ln, grp, State.setChan, State.line, State.setLine, State.group, State.setGroup, State.call, State.setCall,
       CallRec.handsets]⟩⟩

/-- The grant rule's choice among three waiters, and a waiter that leaves two others, with the last of its level and not: before it,
after it and deferred behind it stand others. -/
theorem witness_BlocksTakeTheDownNotice_floors :
    (∀ lv ∈ [(1 : Fin 4), 2], ∃ s : State, takeFirst (· == 15) s.chan.downGfu = some (15, [])
        ∧ (s.group 15).floor.holderPos = some 15 ∧ (s.group 15).floor.deferred.length = 2
        ∧ (s.group 15).floor.wait = [⟨0, 1, false, .vox⟩] ++ ⟨1, 2, true, .explicit⟩ :: [⟨2, lv, false, .vox⟩]
        ∧ (∀ x ∈ [(0 : Pos), 2], x ≠ 1 ∧ x ≠ 15) ∧ lv ≤ 2 ∧ ∀ k, k ≠ 15 → (s.group k).floor.engaged 15 = false)
      ∧ ∀ lv ∈ [(1 : Fin 4), 2], ∃ s : State, takeFirst (· == 15) s.chan.downGfu = some (15, [])
        ∧ (s.group 15).floor.holderPos = some 5 ∧ (∀ x ∈ (s.group 15).floor.deferred, x.pos ≠ 15)
        ∧ (s.group 15).floor.wait = [⟨0, 1, false, .vox⟩] ++ ⟨15, 2, true, .explicit⟩ :: [⟨2, lv, false, .vox⟩]
        ∧ ∀ k, k ≠ 15 → (s.group k).floor.engaged 15 = false :=
  ⟨fun lv h => ⟨notices15 (grp15 (hoot15 { Floor.empty with
      holder := some ⟨15, 2, false, false, .explicit⟩
      wait := [⟨0, 1, false, .vox⟩, ⟨1, 2, true, .explicit⟩, ⟨2, lv, false, .vox⟩]
      deferred := [⟨3, 2, false, .explicit⟩, ⟨4, 1, false, .explicit⟩] })), rfl, by revert lv; decide +kernel⟩,
   fun lv h => ⟨notices15 (grp15 (hoot15 { Floor.empty with
      holder := some ⟨5, 2, false, false, .explicit⟩
      wait := [⟨0, 1, false, .vox⟩, ⟨15, 2, true, .explicit⟩, ⟨2, lv, false, .vox⟩]
      deferred := [⟨3, 2, false, .explicit⟩, ⟨4, 1, false, .explicit⟩] })), rfl, by revert lv; decide +kernel⟩⟩
/-! ## Witnesses: groups and calls -/

/-- A GROUP_CONFIG body with this kind and this high byte of the mask. -/
def groupBody (kind hi : Byte) : List Byte := [15, kind, hi, 0xFF, 128, 0, 0]

theorem witness_GroupsAreConfiguredAndJoined :
    (∀ b ∈ [16 :: (groupBody 1 0xFF).tail, groupBody 3 0xFF, [15, 1, 0, 0, 128, 2, 0]], ∃ s f,
        State.Offers s 16 .groupConfig f ∧ f.body = b ∧ (numOf 16 (byteAt f.body 0) = none
          ∨ groupKindOf (byteAt f.body 1) = none ∨ onOffOf (byteAt f.body 5) = none))
      ∧ (∃ s f, State.Offers s 16 .groupConfig f ∧ numOf 16 (byteAt f.body 0) = some 15
        ∧ groupKindOf (byteAt f.body 1) = some .hoot ∧ onOffOf (byteAt f.body 5) = some false
        ∧ (s.group 15).kind = .intercom ∧ (s.group 15).inUse = true)
      ∧ (∀ k ∈ [GroupKind.intercom, .hoot], ∃ s f, State.Offers s 16 .groupConfig f ∧ numOf 16 (byteAt f.body 0) = some 15
        ∧ groupKindOf (byteAt f.body 1) = some .hoot ∧ onOffOf (byteAt f.body 5) = some (s.group 15).openMode
        ∧ (s.group 15).kind = k ∧ (s.group 15).inUse = false
        ∧ posSetOf (byteAt f.body 2) (byteAt f.body 3) = (s.group 15).allow)
      ∧ (∃ s f, State.Offers s 16 .groupConfig f ∧ numOf 16 (byteAt f.body 0) = some 15
        ∧ groupKindOf (byteAt f.body 1) = some .intercom ∧ (s.group 15).kind = .intercom ∧ (s.group 15).allow.look 15 = true
        ∧ posSetOf (byteAt f.body 2) (byteAt f.body 3) = (s.group 15).allow.put 15 false
        ∧ (s.group 15).handsetOf 15 = some .B)
      ∧ ∃ s t, State.nextForHandset s .gfu 15 .B = some (.join 15 .B .link 15, t) ∧ (s.group 15).kind = .intercom
        ∧ (s.group 15).allow.look 15 = true ∧ (s.group 15).handsetOf 15 = none :=
  ⟨fun b h => ⟨asked State.reset 16 .groupConfig b, _, asked_offers rfl (by revert b; decide), rfl, by revert b; decide⟩,
   ⟨asked (grp15 { grp .intercom with joined := [(15, .B)] }) 16 .groupConfig (groupBody 2 0xFF), _, asked_offers rfl rfl,
     by decide +kernel⟩,
   fun k h => ⟨asked (grp15 (grp k)) 16 .groupConfig (groupBody 2 0xFF), _, asked_offers rfl rfl, by
     revert k; decide +kernel⟩,
   ⟨asked (grp15 { grp .intercom with joined := [(0, .A), (15, .B)] }) 16 .groupConfig (groupBody 1 0x7F), _,
     asked_offers rfl rfl, by decide +kernel⟩,
   ⟨_, _, (told_handset (s := grp15 (grp .intercom)) (o := .gfu) (m := .join 15 .B .link 15) (p := 15) (h := .B)
     rfl).choose_spec, by decide +kernel⟩⟩


/-- A mode change of a HOOT group with its floor, a removal from one of a position that is engaged in no way, holds the floor and talks,
and a kind change of a group whose mask shrinks; and a handset that stands in another group or in a call. -/
theorem witness_GroupsAreConfiguredAndJoined_floors :
    (∀ f ∈ lost15, ∃ s f', State.Offers s 16 .groupConfig f' ∧ numOf 16 (byteAt f'.body 0) = some 15
        ∧ groupKindOf (byteAt f'.body 1) = some .hoot ∧ onOffOf (byteAt f'.body 5) = some true ∧ (s.group 15).openMode = false
        ∧ (s.group 15).kind = .hoot ∧ (s.group 15).floor = f
        ∧ posSetOf (byteAt f'.body 2) (byteAt f'.body 3) = (s.group 15).allow)
      ∧ (∀ f ∈ lost15, ∃ s f', State.Offers s 16 .groupConfig f' ∧ numOf 16 (byteAt f'.body 0) = some 15
        ∧ groupKindOf (byteAt f'.body 1) = some .hoot ∧ onOffOf (byteAt f'.body 5) = some (s.group 15).openMode
        ∧ (s.group 15).kind = .hoot ∧ (s.group 15).floor = f ∧ (s.group 15).allow.look 15 = true
        ∧ posSetOf (byteAt f'.body 2) (byteAt f'.body 3) = (s.group 15).allow.put 15 false)
      ∧ (∃ s f', State.Offers s 16 .groupConfig f' ∧ numOf 16 (byteAt f'.body 0) = some 15
        ∧ groupKindOf (byteAt f'.body 1) = some .intercom ∧ onOffOf (byteAt f'.body 5) = some false
        ∧ (s.group 15).kind = .hoot ∧ (s.group 15).inUse = false ∧ (s.group 15).allow.look 15 = true
        ∧ (posSetOf (byteAt f'.body 2) (byteAt f'.body 3)).look 15 = false)
      ∧ (∀ k ∈ [GroupKind.hoot, .intercom], ∀ inMask ∈ [true, false], ∀ j ∈ [[], [((15 : Pos), Handset.A)]], ∃ s t,
        State.nextForHandset s .gfu 15 .B = some (.join 15 .B .link 15, t) ∧ (s.group 15).kind = k
        ∧ (s.group 15).allow.look 15 = inMask ∧ (s.group 15).joined = j)
      ∧ (∃ s t, State.nextForHandset s .gfu 15 .B = some (.join 15 .B .link 15, t) ∧ (s.group 15).kind = .intercom
        ∧ (s.group 15).allow.look 15 = true ∧ (s.group 15).handsetOf 15 = none ∧ (15, .B) ∈ (s.group 14).joined)
      ∧ ∃ s t, State.nextForHandset s .gfu 15 .B = some (.join 15 .B .link 15, t) ∧ (s.group 15).kind = .intercom
        ∧ (s.group 15).allow.look 15 = true ∧ (s.group 15).handsetOf 15 = none ∧ (s.call 7).holds 15 .B = true := by
  have go (s : State) := told_handset (s := s) (o := .gfu) (m := .join 15 .B .link 15) (p := 15) (h := .B) rfl
  exact ⟨fun f h => ⟨asked (grp15 (hoot15 f)) 16 .groupConfig [15, 2, 0xFF, 0xFF, 128, 1, 0], _, asked_offers rfl rfl,
      by revert f; decide +kernel⟩,
    fun f h => ⟨asked (grp15 (hoot15 f)) 16 .groupConfig (groupBody 2 0x7F), _, asked_offers rfl rfl, by revert f; decide +kernel⟩,
    ⟨asked (grp15 (grp .hoot)) 16 .groupConfig (groupBody 1 0x7F), _, asked_offers rfl rfl, by decide +kernel⟩,
    fun k _ m _ j _ => ⟨_, _, (go (grp15 { GroupRec.reset with kind := k, allow := Table.fill m, joined := j })).choose_spec, by
      revert k m j; decide +kernel⟩,
    ⟨_, _, (go ((grp15 (grp .intercom)).setGroup 14 { grp .intercom with joined := [(15, .B)] })).choose_spec, by decide +kernel⟩,
    ⟨_, _, (go ((grp15 (grp .intercom)).setCall 7 (.alerting 15 .B 0 true none))).choose_spec, by decide +kernel⟩⟩

/-- A removal from a HOOT group of a waiter, of a deferred entry and of a holder with others waiting; from another group, of a position
that stands in it in no way; and of several positions at once, with and without a change of mode, from groups of each kind. -/
theorem witness_GroupsAreConfiguredAndJoined_several :
    (∀ f ∈ [passing 15 false .explicit 1, waiting15 .vox 2, { held14 0 false false with
          wait := [⟨13, 1, false, .vox⟩], deferred := [⟨15, 1, true, .explicit⟩] }], ∃ s f',
        State.Offers s 16 .groupConfig f' ∧ numOf 16 (byteAt f'.body 0) = some 15
        ∧ groupKindOf (byteAt f'.body 1) = some .hoot ∧ onOffOf (byteAt f'.body 5) = some (s.group 15).openMode
        ∧ (s.group 15).kind = .hoot ∧ (s.group 15).floor = f ∧ f.engaged 15 = true ∧ (s.group 15).allow.look 15 = true
        ∧ posSetOf (byteAt f'.body 2) (byteAt f'.body 3) = (s.group 15).allow.put 15 false)
      ∧ (∀ k ∈ [GroupKind.unused, .intercom], ∃ s f, State.Offers s 16 .groupConfig f ∧ numOf 16 (byteAt f.body 0) = some 15
        ∧ groupKindOf (byteAt f.body 1) = some k ∧ (s.group 15).kind = k ∧ (s.group 15).allow.look 15 = true
        ∧ posSetOf (byteAt f.body 2) (byteAt f.body 3) = (s.group 15).allow.put 15 false ∧ (s.group 15).handsetOf 15 = none)
      ∧ ∀ k ∈ [GroupKind.unused, .intercom, .hoot], ∀ om ∈ [(0 : Byte), 1], ∃ (s : State) (ports : Lki) (f first : Frame) (u v : State),
        s.Offers 16 .groupConfig f ∧ State.Offers { s with lki := ports } 16 .groupConfig first
        ∧ (s.group 15).kind = k ∧ groupKindOf (byteAt f.body 1) = some k ∧ groupKindOf (byteAt first.body 1) = some k
        ∧ numOf 16 (byteAt f.body 0) = some 15 ∧ numOf 16 (byteAt first.body 0) = some 15
        ∧ (s.group 15).openMode = false ∧ onOffOf (byteAt f.body 5) = onOffOf om ∧ onOffOf (byteAt first.body 5) = some false
        ∧ (∀ q, (posSetOf (byteAt f.body 2) (byteAt f.body 3)).look q = decide (q < 14)) ∧ (∀ q, (s.group 15).allow.look q = true)
        ∧ posSetOf (byteAt first.body 2) (byteAt first.body 3) = (s.group 15).allow.put 14 false
        ∧ (byteAt first.body 4).toFin = (byteAt f.body 4).toFin ∧ (byteAt first.body 6).toFin = (byteAt f.body 6).toFin
        ∧ exec (.groupConfig 16) { s with lki := ports } = .next u ∧ exec (.groupConfig 16) { u with lki := s.lki } = .next v := by
  refine ⟨fun f h => ⟨asked (grp15 (hoot15 f)) 16 .groupConfig (groupBody 2 0x7F), _, asked_offers rfl rfl, ?_⟩,
    fun k h => ⟨asked (grp15 (grp k)) 16 .groupConfig (groupBody k.byte 0x7F), _, asked_offers rfl rfl, ?_⟩,
    fun k h om h1 => ⟨asked (grp15 { hoot15 (passing 14 false .explicit 2) with kind := k }) 16 .groupConfig
        [15, k.byte, 0x3F, 0xFF, 9, om, 7],
      (asked State.reset 16 .groupConfig [15, k.byte, 0xBF, 0xFF, 9, 0, 7]).lki, _,
      ask .groupConfig [15, k.byte, 0xBF, 0xFF, 9, 0, 7], _, _,
      asked_offers rfl rfl, asked_offers (s := State.reset) rfl rfl, ?_, ?_, ?_, rfl, rfl, rfl, rfl, rfl, ?_, ?_, ?_, rfl, rfl, rfl, rfl⟩⟩
  · revert f; decide +kernel
  · revert k; decide +kernel
  all_goals (revert k om; decide +kernel)
/-- The state with one message of GFU to LCU about a line. -/
def toLcu (s : State) (m : AttachToLcu) : State := s.setChan { s.chan with attachToLcu := [m] }

/-- The state with one message of LCU to GFU about a line. -/
def toGfu (s : State) (m : AttachToGfu) : State := s.setChan { s.chan with attachToGfu := [m] }

/-- Eight lines other than 63. -/
def eightLines : List Line := [0, 1, 2, 3, 4, 5, 6, 7]

/-- The request, the question, each answer that GFU decides by, and both outcomes. -/
theorem witness_HootAttachIsDecidedByBoth :
    (∃ s f, State.Offers s 16 .hootAttach f ∧ numOf 64 (byteAt f.body 0) = some 63 ∧ numOf 16 (byteAt f.body 1) = some 15)
      ∧ (∃ s : State, takeFirst (AttachToLcu.about 63) s.chan.attachToLcu = some (.question 63 15, [])
        ∧ (s.line 63).attachHold = false)
      ∧ (∀ st ∈ [LineState.outOfService, .idle, .attached], ∀ k ∈ [LineKind.ringdown, .hoot],
          ∀ g ∈ [none, some 15, some (0 : Grp)], ∀ gk ∈ [GroupKind.intercom, .hoot], ∀ ls ∈ [eightLines, eightLines.tail],
        ∃ s : State, takeFirst (AttachToGfu.about 63) s.chan.attachToGfu = some (.answer 63 15 st k g, [])
        ∧ (s.group 15).kind = gk ∧ (s.group 15).attached = ls)
      ∧ eightLines.length = 8
      ∧ (∃ s : State, takeFirst (AttachToLcu.about 63) s.chan.attachToLcu = some (.outcome 63 (some 15), [])
        ∧ (s.line 63).state = .idle ∧ (s.line 63).cfg.kind = .hoot)
      ∧ ∃ s : State, takeFirst (AttachToLcu.about 63) s.chan.attachToLcu = some (.outcome 63 none, []) :=
  ⟨⟨asked State.reset 16 .hootAttach [63, 15], _, asked_offers rfl rfl, by decide⟩,
   ⟨toLcu (at63 (ln .hoot .idle)) (.question 63 15), rfl, by decide +kernel⟩,
   fun st _ k _ g _ gk _ ls _ => ⟨toGfu (grp15 { grp gk with attached := ls }) (.answer 63 15 st k g), rfl, by
     simp [toGfu, grp15, grp, State.setChan, State.group, State.setGroup],
     by simp [toGfu, grp15, grp, State.setChan, State.group, State.setGroup]⟩,
   rfl, ⟨toLcu (at63 (ln .hoot .idle)) (.outcome 63 (some 15)), rfl, by decide +kernel⟩,
   ⟨toLcu (at63 (ln .hoot .idle)) (.outcome 63 none), rfl⟩⟩


/-- A line and a group one past the last, in either of the two requests. -/
theorem witness_HootAttachIsDecidedByBoth_operands :
    ∀ b ∈ [[64, 15], [63, (16 : Byte)]], (∃ s f, State.Offers s 16 .hootAttach f ∧ f.body = b)
      ∧ (∃ s f, State.Offers s 16 .hootDetach f ∧ f.body = b ∧ s.lineHeld (byteAt f.body 0) = false)
      ∧ (numOf 64 (byteAt b 0) = none ∨ numOf 16 (byteAt b 1) = none) :=
  fun b h => ⟨⟨asked State.reset 16 .hootAttach b, _, asked_offers rfl (by revert b; decide), rfl⟩,
    ⟨asked State.reset 16 .hootDetach b, _, asked_offers rfl (by revert b; decide), rfl, by revert b; decide +kernel⟩, by revert b; decide⟩
/-- Line 63 attached to group 15 with line 0 before it. -/
def attached15 : State := (at63 { ln .hoot .attached with hoot := some 15 }).setGroup 15 { grp .hoot with attached := [0, 63] }

/-- A listening notice of position 15 on group 15, with this floor. -/
def listens (f : Floor) (on ofReset : Bool) : State :=
  let s := grp15 { hoot15 f with openMode := !f.talkers.isEmpty }
  s.setChan { s.chan with listening := [⟨15, 15, on, ofReset⟩] }

/-- A listen-on notice of position 15 for group 15, which has this kind by then. -/
def lateListener (k : GroupKind) : State :=
  let s := grp15 { hoot15 Floor.empty with kind := k, listening := Table.fill false }
  s.setChan { s.chan with listening := [⟨15, 15, true, false⟩] }

theorem witness_HootLinesAndListeners :
    (∃ s f, State.Offers s 16 .hootDetach f ∧ numOf 64 (byteAt f.body 0) = some 63 ∧ numOf 16 (byteAt f.body 1) = some 15
        ∧ (s.line 63).attachHold = false ∧ 63 ∉ (s.group 15).attached)
      ∧ (∃ s f, State.Offers s 16 .hootDetach f ∧ numOf 64 (byteAt f.body 0) = some 63 ∧ numOf 16 (byteAt f.body 1) = some 15
        ∧ (s.line 63).attachHold = false ∧ 63 ∈ (s.group 15).attached ∧ (s.line 63).state = .attached
        ∧ (s.line 63).hoot = some 15)
      ∧ (∃ s f, State.Offers s 16 .lineService f ∧ numOf 64 (byteAt f.body 0) = some 63 ∧ byteAt f.body 1 = 0
        ∧ (s.line 63).attachHold = false ∧ (s.line 63).state = .attached ∧ (s.line 63).hoot = some 15
        ∧ (s.line 63).connected = [])
      ∧ (∃ s : State, takeFirst (AttachToGfu.about 63) s.chan.attachToGfu = some (.removal 63 15, [])
        ∧ 63 ∈ (s.group 15).attached)
      ∧ (∀ on ∈ [true, false], ∀ ofReset ∈ [true, false], ∃ s : State, s.chan.listening = [⟨15, 15, on, ofReset⟩]
        ∧ (s.group 15).floor.engaged 15 = false)
      ∧ (∀ k ∈ [GroupKind.hoot, .unused, .intercom], ∃ s : State, s.chan.listening = [⟨15, 15, true, false⟩]
        ∧ (s.group 15).kind = k)
      ∧ (∃ s : State, s.chan.listening = [⟨15, 15, false, false⟩] ∧ (s.group 15).floor.holderPos = some 15
        ∧ (s.group 15).floor.wait = [])
      ∧ (∃ s : State, s.chan.listening = [⟨15, 15, false, false⟩] ∧ (s.group 15).floor.holderPos ≠ some 15
        ∧ (∀ k ∈ (s.group 15).floor.talkers, k.pos ≠ 15)
        ∧ (s.group 15).floor.wait = [⟨13, 1, false, .vox⟩] ++ ⟨15, 1, true, .explicit⟩ :: []
        ∧ (∀ k ∈ [(⟨13, 1, false, .vox⟩ : Waiter)] ++ [], k.pos ≠ 15) ∧ (∀ k ∈ (s.group 15).floor.deferred, k.pos ≠ 15)
        ∧ ∃ k ∈ [(⟨13, 1, false, .vox⟩ : Waiter)] ++ [], k.level = (⟨15, 1, true, .explicit⟩ : Waiter).level)
      ∧ (∃ s : State, s.chan.listening = [⟨15, 15, false, false⟩] ∧ (s.group 15).floor.holderPos ≠ some 15
        ∧ (∀ k ∈ (s.group 15).floor.talkers, k.pos ≠ 15) ∧ (∀ k ∈ (s.group 15).floor.wait, k.pos ≠ 15)
        ∧ (s.group 15).floor.deferred = [] ++ ⟨15, 1, true, .explicit⟩ :: [⟨0, 1, false, .vox⟩]
        ∧ ∀ k ∈ ([] : List Waiter) ++ [⟨0, 1, false, .vox⟩], k.pos ≠ 15)
      ∧ ∃ s : State, s.chan.listening = [⟨15, 15, false, false⟩] ∧ (s.group 15).floor.holder = none
        ∧ (s.group 15).floor.wait = [] ∧ (s.group 15).floor.deferred = []
        ∧ (s.group 15).floor.talkers = [⟨0, .vox⟩] ++ ⟨15, .explicit⟩ :: [] ∧ ∀ k ∈ [(⟨0, .vox⟩ : Talker)] ++ [], k.pos ≠ 15 :=
  ⟨⟨asked (at63 (ln .hoot .idle)) 16 .hootDetach [63, 15], _, asked_offers rfl rfl, by decide +kernel⟩,
   ⟨asked attached15 16 .hootDetach [63, 15], _, asked_offers rfl rfl, by decide +kernel⟩,
   ⟨asked attached15 16 .lineService [63, 0], _, asked_offers rfl rfl, by decide +kernel⟩,
   ⟨toGfu attached15 (.removal 63 15), rfl, by decide +kernel⟩,
   fun on _ ofReset _ => ⟨listens Floor.empty on ofReset, rfl, by revert on ofReset; decide +kernel⟩,
   fun k h => ⟨lateListener k, rfl, by revert k; decide +kernel⟩,
   ⟨listens { Floor.empty with holder := some ⟨15, 0, false, false, .explicit⟩ } false false, rfl, by decide +kernel⟩,
   ⟨listens { Floor.empty with
     holder := some ⟨14, 0, false, false, .explicit⟩, wait := [⟨13, 1, false, .vox⟩, ⟨15, 1, true, .explicit⟩] } false false, rfl,
     by decide +kernel⟩,
   ⟨listens { Floor.empty with
     holder := some ⟨14, 0, false, false, .explicit⟩, wait := [⟨13, 1, false, .vox⟩]
     deferred := [⟨15, 1, true, .explicit⟩, ⟨0, 1, false, .vox⟩] } false false, rfl, by decide +kernel⟩,
   ⟨listens { Floor.empty with talkers := [⟨0, .vox⟩, ⟨15, .explicit⟩] } false false, rfl, by decide +kernel⟩⟩


/-- A detach of an attached line that is out of service already, the removal of a line that is attached no more; and a holder with others
waiting and a waiter that is the last of its level and not, who leave. -/
theorem witness_HootLinesAndListeners_leaving :
    (∃ s f, State.Offers s 16 .hootDetach f ∧ numOf 64 (byteAt f.body 0) = some 63 ∧ numOf 16 (byteAt f.body 1) = some 15
        ∧ (s.line 63).attachHold = false ∧ 63 ∈ (s.group 15).attached ∧ (s.line 63).state = .outOfService)
      ∧ (∃ s : State, takeFirst (AttachToGfu.about 63) s.chan.attachToGfu = some (.removal 63 15, [])
        ∧ 63 ∉ (s.group 15).attached)
      ∧ ∀ lv ∈ [(1 : Fin 4), 2], ∀ f ∈ [passing 15 true .explicit lv, waiting15 .explicit lv], ∃ s : State,
        s.chan.listening = [⟨15, 15, false, false⟩] ∧ (s.group 15).floor = f ∧ (∀ k ∈ f.deferred, k.pos ≠ 15) ∧ f.talkers = [] :=
  ⟨⟨asked (attached15.setLine 63 (ln .hoot .outOfService)) 16 .hootDetach [63, 15], _, asked_offers rfl rfl, by decide +kernel⟩,
   ⟨toGfu (at63 (ln .hoot .outOfService)) (.removal 63 15), rfl, by decide +kernel⟩,
   fun lv h f h1 => ⟨listens f false false, rfl, by revert lv f; decide +kernel⟩⟩
/-- Intercom record 7 as this says, with these others. -/
def call7 (c others : CallRec) : State :=
  let s := { State.reset with gfu := { State.reset.gfu with
    calls := (Table.fill others).put 7 c, up := Table.fill true } }
  s.setPos 15 (holding (.call 7))

/-- A call that alerts this position. -/
def alerting (q : Pos) : CallRec := .alerting 14 .A q true (some 20)

/-- A caller's request on each state of the records and of the callee; each way an ALERTING call goes on; and the end of a call. -/
theorem witness_CallsAreSetUpAndEnded :
    (∀ b ∈ [(0 : Byte), 255], ∃ s f, State.Offers s 16 .callConfig f ∧ byteAt f.body 0 = b)
      ∧ (∀ b ∈ [(16 : Byte), 15], ∃ s t, State.nextForHandset s .gfu 15 .B = some (.call 15 .B .link b true, t)
        ∧ (numOf 16 b = none ∨ numOf 16 b = some 15))
      ∧ (∃ s t, State.nextForHandset s .gfu 15 .B = some (.call 15 .B .link 0 true, t) ∧ s.gfu.up.look 0 = false
        ∧ numOf 16 0 = some 0)
      ∧ (∃ s t, State.nextForHandset s .gfu 15 .B = some (.call 15 .B .link 0 true, t) ∧ s.gfu.up.look 0 = true
        ∧ ∃ c, (s.call c).alerts 0 = true)
      ∧ (∃ s t, State.nextForHandset s .gfu 15 .B = some (.call 15 .B .link 0 true, t) ∧ s.gfu.up.look 0 = true
        ∧ (∀ c, (s.call c).alerts 0 = false) ∧ ∀ c, s.call c ≠ .free)
      ∧ (∃ s t, State.nextForHandset s .gfu 15 .B = some (.call 15 .B .link 0 true, t) ∧ s.gfu.up.look 0 = true
        ∧ s.gfu.up.look 15 = true ∧ (∀ c, (s.call c).alerts 0 = false) ∧ s.call 7 = .free ∧ (∀ d, d < 7 → s.call d ≠ .free)
        ∧ (∀ k, (15, .B) ∉ (s.group k).joined) ∧ ∀ c, (s.call c).holds 15 .B = false)
      ∧ (∀ a ∈ [(15 : Pos), 0], ∃ s t, State.nextForHandset s .gfu a .B = some (.answer a .B .link 7, t)
        ∧ s.call 7 = .alerting 14 .A 15 true (some 20)
        ∧ (∀ k, (a, .B) ∉ (s.group k).joined) ∧ ∀ d, (s.call d).holds a .B = false)
      ∧ ((asked (call7 (alerting 15) .free) 15 .declineCall [7]).call 7 = .alerting 14 .A 15 true (some 20)
        ∧ (∃ t, (asked (call7 (alerting 15) .free) 15 .declineCall [7]).Submits (.port 15) .declineCall 15 [7] t)
        ∧ numOf 8 (byteAt [7] 0) = some 7)
      ∧ ∃ s t, State.nextForHandset s .gfu 15 .B = some (.release 15 .B .link (.call 7), t)
        ∧ s.call 7 = .active 15 .B 0 .A true ∧ (s.pos 15).claim.of .B = .call 7 := by
  have go (c o : CallRec) (q : Pos) (m : ToOwner) (h : m.aboutHandset q .B = true) :=
    told_handset (s := call7 c o) (o := .gfu) h
  exact ⟨fun b h => ⟨asked State.reset 16 .callConfig [b], _, asked_offers rfl rfl, rfl⟩,
    fun b h => ⟨_, _, (go .free .free 15 _ rfl).choose_spec, by revert b; decide⟩,
    ⟨_, _, (told_handset (s := State.reset) (o := .gfu) (m := .call 15 .B .link 0 true) (p := 15) (h := .B) rfl).choose_spec,
      by decide +kernel⟩,
    ⟨_, _, (go (alerting 0) .free 15 _ rfl).choose_spec, by decide +kernel⟩,
    ⟨_, _, (go (alerting 1) (alerting 2) 15 _ rfl).choose_spec, by decide +kernel⟩,
    ⟨_, _, (go .free (alerting 2) 15 _ rfl).choose_spec, by decide +kernel⟩,
    fun a h => ⟨_, _, (go (alerting 15) .free a (.answer a .B .link 7) (by simp [ToOwner.aboutHandset])).choose_spec, by
      revert a; decide +kernel⟩,
    ⟨by decide +kernel, asked_sends rfl rfl rfl, rfl⟩,
    ⟨_, _, (go (.active 15 .B 0 .A true) .free 15 _ rfl).choose_spec, by decide +kernel⟩⟩


/-- Position 0 alone is UP at GFU. -/
def up0 : State := { State.reset with gfu := { State.reset.gfu with up := State.reset.gfu.up.put 0 true } }

/-- A call and an answer with a handset that another call holds; a call whose caller is DOWN at GFU; an answer and a decline of a record that is free; and an alert timer
that has run out and one that has not. -/
theorem witness_CallsAreSetUpAndEnded_held :
    (∃ s t, State.nextForHandset s .gfu 15 .B = some (.call 15 .B .link 0 true, t) ∧ s.gfu.up.look 0 = true
        ∧ (∀ c, (s.call c).alerts 0 = false) ∧ (∃ c, s.call c = .free) ∧ (s.call 7).holds 15 .B = true)
      ∧ (∃ s t, State.nextForHandset s .gfu 15 .B = some (.call 15 .B .link 0 true, t) ∧ s.gfu.up.look 0 = true
        ∧ s.gfu.up.look 15 = false ∧ (∀ c, (s.call c).alerts 0 = false) ∧ s.call 0 = .free)
      ∧ (∃ s t, State.nextForHandset s .gfu 15 .B = some (.answer 15 .B .link 6, t)
        ∧ s.call 6 = .alerting 14 .A 15 true (some 20) ∧ (s.call 7).holds 15 .B = true)
      ∧ (∃ s t, State.nextForHandset s .gfu 15 .B = some (.answer 15 .B .link 7, t) ∧ (s.call 7).alerts 15 = false)
      ∧ (∃ t, (asked State.reset 15 .declineCall [7]).Submits (.port 15) .declineCall 15 [7] t)
      ∧ ((asked State.reset 15 .declineCall [7]).call 7).alerts 15 = false
      ∧ (∃ t, (asked State.reset 15 .declineCall [8]).Submits (.port 15) .declineCall 15 [8] t)
      ∧ numOf 8 (byteAt [8] 0) = none
      ∧ ∀ x ∈ [(none : Timer), some 0, some 1], (State.reset.setCall 7 (.alerting 14 .A 15 true x)).call 7 = .alerting 14 .A 15 true x := by
  have go (s : State) (m : ToOwner) (h : m.aboutHandset 15 .B = true) := (told_handset (s := s) (o := .gfu) h).choose_spec
  exact ⟨⟨_, _, go (call7 (.active 15 .B 14 .A true) .free) (.call 15 .B .link 0 true) rfl, by decide +kernel⟩,
    ⟨_, _, go up0 (.call 15 .B .link 0 true) rfl, by decide +kernel⟩,
    ⟨_, _, go ((call7 (.active 15 .B 13 .A true) .free).setCall 6 (alerting 15)) (.answer 15 .B .link 6) rfl, by decide +kernel⟩,
    ⟨_, _, go State.reset (.answer 15 .B .link 7) rfl, by decide +kernel⟩, asked_sends rfl rfl rfl, by decide +kernel,
    asked_sends rfl rfl rfl, by decide, by decide +kernel⟩
theorem witness_QueryGroupParts :
    (∀ n ∈ [(15 : Port), 16], ∀ part ∈ [(0 : Byte), 1, 2, 3], ∀ k ∈ [true, false], ∃ s f, State.Offers s n .queryGroup f
        ∧ numOf 16 (byteAt f.body 0) = some 15 ∧ byteAt f.body 1 = part ∧ (s.group 15).allow.look 15 = k)
      ∧ (∃ s f, State.Offers s 16 .queryGroup f ∧ numOf 16 (byteAt f.body 0) = none ∧ byteAt f.body 1 = 0)
      ∧ posOf 15 = some 15 :=
  ⟨fun n hn part _ k _ => ⟨asked (grp15 { GroupRec.reset with allow := Table.fill k }) n .queryGroup [15, part], _,
     asked_offers (by revert n; decide) rfl, rfl, rfl, by simp [asked, grp15, State.group, State.setGroup, State.setPort]⟩,
   ⟨asked State.reset 16 .queryGroup [16, 0], _, asked_offers rfl rfl, by decide⟩, rfl⟩

/-! ## Witnesses: floors -/

/-- Group 15 a HOOT group on which every position listens and is UP, with this floor; position 15 with this level and everyone fair. -/
def floor15 (f : Floor) (openMode : Bool) (lv : Fin 4) : State :=
  let s := grp15 { hoot15 f with openMode := openMode }
  { s with
    gfu := { s.gfu with up := Table.fill true }
    ptb := { positions := Table.fill { PosRec.reset with
      up := true, settings := { Settings.reset with floorLevel := lv, fair := true, vox := true }
      assign := (Table.fill .none).put 5 (.group 15) } } }

/-- Position 15 engaged on group 14 besides. -/
def engaged14 (s : State) : State :=
  s.setGroup 14 { hoot15 { Floor.empty with holder := some ⟨15, 0, false, false, .explicit⟩ } with kind := .hoot }

/-- The checks of R78: no member, engaged elsewhere, engaged here. The four cases of R79 with R83 and R86: a free floor, a preemption
at the level limit, a hand-over, a wait and a deferral behind each kind of holder, and OPEN mode. -/
theorem witness_FloorRequestsAreDecided :
    (∀ s : State, (∃ t, (asked s 15 .floorRequest [15, 1]).Submits (.port 15) .floorRequest 15 [15, 1] t)
        ∧ ∃ t, (ran s 15 .floorRequest ⟨15, 1, 0⟩).Submits (.run 15) .floorRequest 15 [15, 1, 0] t)
      ∧ numOf 16 (byteAt [15, 1] 0) = some 15 ∧ onOffOf (byteAt [15, 1] 1) = some true
      ∧ ((State.reset.group 15).kind ≠ .hoot ∧ ((floor15 Floor.empty false 0).group 15).kind = .hoot
        ∧ ((floor15 Floor.empty false 0).group 15).listening.look 15 = true
        ∧ (floor15 Floor.empty false 0).gfu.up.look 15 = true)
      ∧ (∃ k, k ≠ 15 ∧ ((engaged14 (floor15 Floor.empty false 0)).group k).floor.engaged 15 = true)
      ∧ (∃ s : State, (∀ k, k ≠ 15 → (s.group k).floor.engaged 15 = false) ∧ (s.group 15).floor.engaged 15 = true
        ∧ (s.group 15).kind = .hoot ∧ (s.group 15).listening.look 15 = true ∧ s.gfu.up.look 15 = true)
      ∧ (∀ o ∈ [true, false], (floor15 Floor.empty o 3).floorCheck 15 15 = none
        ∧ ((floor15 Floor.empty o 3).group 15).openMode = o ∧ ((floor15 Floor.empty o 3).group 15).floor.holder = none)
      ∧ (∀ lv ∈ [(0 : Fin 4), 2, 3], ∀ mine ∈ [(2 : Fin 4), 3], ∀ latched ∈ [true, false], ∀ pinned ∈ [true, false],
        ∀ w ∈ [[], [(⟨13, 2, false, .vox⟩ : Waiter)]],
        ∃ s : State, s.floorCheck 15 15 = none ∧ (s.pos 15).settings.floorLevel = mine ∧ (s.group 15).openMode = false
        ∧ (s.group 15).floor.holder = some ⟨14, lv, latched, pinned, .explicit⟩ ∧ (s.group 15).floor.wait = w
        ∧ (s.group 15).floor.deferred = [] ∧ (s.group 15).floor.served.look 15 = true
        ∧ (s.pos 15).settings.fair = true) := by
  refine ⟨fun s => ⟨asked_sends rfl rfl rfl, ran_sends⟩, rfl, rfl, by decide +kernel, ⟨14, by decide +kernel⟩,
    ⟨floor15 { held14 0 false false with wait := [⟨15, 2, false, .explicit⟩] } false 2, by decide +kernel⟩, by decide +kernel,
    fun lv h1 mine h2 la h3 pi h4 w h5 => ⟨floor15 { held14 lv la pi with
      wait := w, served := Table.fill true } false mine, ?_⟩⟩
  revert lv mine la pi w
  decide +kernel


/-- A LATCHED floor with two waiting, at which position 15 asks with the served mark set: of a level that waits and is not the highest,
of the highest, of one that does not wait, and of one above all. -/
def latched14 (mine : Fin 4) : State := floor15 { held14 3 true false with
  wait := [⟨13, 1, false, .vox⟩, ⟨0, 2, true, .explicit⟩], served := Table.fill true } false mine

/-- What position 15's arrival makes of that floor. -/
def arrived14 (o : Origin) (latch : Bool) (mine : Fin 4) : Floor :=
  let f := { held14 3 true false with wait := [⟨13, 1, false, .vox⟩, ⟨0, 2, true, .explicit⟩], served := Table.fill true }
  if mine = 1 ∨ mine = 2 then { f with deferred := [⟨15, mine, latch, o⟩] }
  else { f with wait := f.wait ++ [⟨15, mine, latch, o⟩], served := f.served.put 15 false }

/-- The hand-over in each of those cases, and the operands one past their ranges. -/
theorem witness_FloorRequestsAreDecided_handOver :
    (∀ mine ∈ [(0 : Fin 4), 1, 2, 3], (latched14 mine).floorCheck 15 15 = none ∧ ((latched14 mine).group 15).openMode = false
        ∧ ((latched14 mine).pos 15).settings.floorLevel = mine
        ∧ ((latched14 mine).group 15).floor.holder = some ⟨14, 3, true, false, .explicit⟩
        ∧ ∃ (late : Bool) (w : Waiter) (a b up stay : List Waiter),
          (late = true ↔ ((latched14 mine).group 15).floor.served.look 15 = true ∧ ((latched14 mine).pos 15).settings.fair = true
            ∧ ∃ v ∈ ((latched14 mine).group 15).floor.wait, v.level = mine)
          ∧ (arrived14 .explicit true mine).Picks w a b up stay ∧ w.pos ≠ 14)
      ∧ ∀ b ∈ [[16, 1], [15, (2 : Byte)]], (∃ s t, State.Submits s (.port 15) .floorRequest 15 b t)
        ∧ (numOf 16 (byteAt b 0) = none ∨ onOffOf (byteAt b 1) = none) := by
  refine ⟨fun mine h => ?_, fun b h => ⟨⟨_, asked_sends (s := State.reset) rfl rfl (by revert b; decide)⟩, by revert b; decide⟩⟩
  simp only [List.mem_cons, List.not_mem_nil, or_false] at h
  rcases h with rfl | rfl | rfl | rfl <;> refine ⟨by decide +kernel, by decide +kernel, by decide +kernel, by decide +kernel, ?_⟩
  · exact ⟨false, ⟨0, 2, true, .explicit⟩, [⟨13, 1, false, .vox⟩], [⟨15, 0, true, .explicit⟩], [], [], by decide +kernel⟩
  · exact ⟨true, ⟨0, 2, true, .explicit⟩, [⟨13, 1, false, .vox⟩], [], [], [⟨15, 1, true, .explicit⟩], by decide +kernel⟩
  · exact ⟨true, ⟨0, 2, true, .explicit⟩, [⟨13, 1, false, .vox⟩], [], [⟨15, 2, true, .explicit⟩], [], by decide +kernel⟩
  · exact ⟨false, ⟨15, 3, true, .explicit⟩, [⟨13, 1, false, .vox⟩, ⟨0, 2, true, .explicit⟩], [], [], [], by decide +kernel⟩
/-- A holder that is not pinned, with nobody and with one waiting and one deferred; a pinned one; nobody; a waiter among others; and
the hold expiry. -/
theorem witness_FloorEndsPassItOn :
    (∀ s : State, ∃ t, (asked s 15 .floorRelease [15]).Submits (.port 15) .floorRelease 15 [15] t)
      ∧ numOf 16 (byteAt [15] 0) = some 15
      ∧ (∃ s : State, (s.group 15).kind = .hoot ∧ (s.group 15).floor.engaged 15 = false)
      ∧ (∀ pinned ∈ [true, false], ∃ (s : State) (h : Holder), (s.group 15).kind = .hoot ∧ (s.group 15).floor.holder = some h
        ∧ h.pos = 15 ∧ h.pinned = pinned ∧ (s.group 15).floor.wait = [] ∧ (s.group 15).floor.holdTimer = some 0)
      ∧ (∀ ws ∈ [[], [(⟨13, 2, true, .vox⟩ : Waiter)]], ∃ (s : State) (h : Holder) (v : Waiter), (s.group 15).kind = .hoot
        ∧ (s.group 15).floor.holder = some h ∧ h.pos = 15 ∧ h.pinned = false ∧ (s.group 15).floor.wait = [v] ∧ v.pos ≠ 15
        ∧ (∀ w ∈ (s.group 15).floor.deferred, w.level = v.level) ∧ (s.group 15).floor.deferred = ws
        ∧ (s.group 15).floor.holdTimer = some 0)
      ∧ ∃ (s : State) (h : Holder) (a b : List Waiter) (w : Waiter), (s.group 15).kind = .hoot
        ∧ (s.group 15).floor.holder = some h ∧ h.pos ≠ 15 ∧ (s.group 15).floor.wait = a ++ w :: b ∧ w.pos = 15
        ∧ (∀ x ∈ a ++ b, x.pos ≠ 15) ∧ (∃ x ∈ a ++ b, x.level = w.level) ∧ (∀ x ∈ (s.group 15).floor.deferred, x.pos ≠ 15)
        ∧ (s.group 15).floor.talkers = [] :=
  ⟨fun s => asked_sends rfl rfl rfl, rfl, ⟨floor15 (held14 0 false false) false 0, by decide +kernel⟩,
   fun pi h => ⟨floor15 { held14 0 true pi with holder := some ⟨15, 0, true, pi, .explicit⟩, holdTimer := some 0 } false 0,
     ⟨15, 0, true, pi, .explicit⟩, by revert pi; decide +kernel⟩,
   fun ws h => ⟨floor15 { Floor.empty with
     holder := some ⟨15, 0, false, false, .vox⟩, wait := [⟨14, 2, false, .explicit⟩], deferred := ws, holdTimer := some 0 } false 0,
     ⟨15, 0, false, false, .vox⟩, ⟨14, 2, false, .explicit⟩, by revert ws; decide +kernel⟩,
   ⟨floor15 { held14 0 false false with wait := [⟨13, 1, false, .vox⟩, ⟨15, 1, true, .explicit⟩, ⟨0, 3, false, .vox⟩] } false 0,
     ⟨14, 0, false, false, .explicit⟩, [⟨13, 1, false, .vox⟩], [⟨0, 3, false, .vox⟩], ⟨15, 1, true, .explicit⟩,
     by decide +kernel⟩⟩


/-- The grant rule's choice among several, and a waiter that leaves others, with two deferred, and the choice or the waiter the last of its
level or not; a deferred request; and an open talker. -/
theorem witness_FloorEndsPassItOn_several :
    (∀ lv ∈ [(1 : Fin 4), 2], ∀ p ∈ [(15 : Pos), 14], ∃ (s : State) (w : Waiter) (a b up stay : List Waiter),
        (s.group 15).kind = .hoot ∧ (s.group 15).floor.holderPos = some p ∧ (s.group 15).floor.holdTimer = some 0
        ∧ (s.group 15).floor.wait = a ++ w :: b ∧ (∀ x ∈ a ++ b, x.pos ≠ w.pos) ∧ w.pos = (if p = 15 then 0 else 15)
        ∧ (∀ x ∈ a, x.level < w.level) ∧ (∀ x ∈ b, x.level ≤ w.level) ∧ (∃ x ∈ b, x.level = lv)
        ∧ (up, stay) = (if ∃ x ∈ a ++ b, x.level = w.level then ([], (s.group 15).floor.deferred)
          else ((s.group 15).floor.deferred.filter fun x => x.level == w.level,
            (s.group 15).floor.deferred.filter fun x => x.level != w.level))
        ∧ (s.group 15).floor.deferred.length = 2 ∧ (∀ x ∈ (s.group 15).floor.deferred, x.pos ≠ 15)
        ∧ (s.group 15).floor.talkers = [])
      ∧ ∃ s u : State, (s.group 15).kind = .hoot ∧ (s.group 15).floor.engaged 15 = true ∧ (s.group 15).floor.holderPos = some 14
        ∧ (s.group 15).floor.deferred = [⟨15, 1, false, .vox⟩] ∧ (u.group 15).kind = .hoot
        ∧ (u.group 15).floor.talkers = [⟨15, .vox⟩] ∧ (u.group 15).floor.wait = [] :=
  ⟨fun lv h p hp => ⟨floor15 { Floor.empty with
      holder := some ⟨p, 0, false, false, .explicit⟩, holdTimer := some 0
      wait := [⟨13, 1, false, .vox⟩] ++ ⟨if p = 15 then 0 else 15, 2, true, .explicit⟩ :: [⟨12, lv, false, .vox⟩]
      deferred := [⟨11, 2, false, .explicit⟩, ⟨10, 1, false, .explicit⟩] } false 0,
     ⟨if p = 15 then 0 else 15, 2, true, .explicit⟩, [⟨13, 1, false, .vox⟩], [⟨12, lv, false, .vox⟩],
     if lv = 2 then [] else [⟨11, 2, false, .explicit⟩],
     if lv = 2 then [⟨11, 2, false, .explicit⟩, ⟨10, 1, false, .explicit⟩] else [⟨10, 1, false, .explicit⟩],
     by revert lv p; decide +kernel⟩,
   ⟨floor15 { held14 0 false false with wait := [⟨13, 1, false, .vox⟩], deferred := [⟨15, 1, false, .vox⟩] } false 0,
    floor15 { Floor.empty with talkers := [⟨15, .vox⟩] } true 0, by decide +kernel⟩⟩

/-- A release on a group one past the last, and on one that is not of kind HOOT. -/
theorem witness_FloorEndsPassItOn_operands :
    (∃ s t, State.Submits s (.port 15) .floorRelease 15 [16] t) ∧ numOf 16 (byteAt [16] 0) = none
      ∧ (∃ s t, State.Submits s (.port 15) .floorRelease 15 [15] t ∧ (s.group 15).kind ≠ .hoot) :=
  ⟨⟨_, asked_sends (s := State.reset) rfl rfl rfl⟩, rfl,
   ⟨_, _, (asked_sends (s := State.reset) rfl rfl rfl).choose_spec, by decide +kernel⟩⟩
/-- PIN_FLOOR on a group of another kind, in OPEN mode, for a position that does not listen, over a pinned holder, elsewhere engaged,
of the holder itself and over another; UNPIN of each. -/
theorem witness_PinAndUnpin :
    (∀ s : State, (asked s 16 .pinFloor [15, 15]).Offers 16 .pinFloor (ask .pinFloor [15, 15])
        ∧ (asked s 16 .unpin [15]).Offers 16 .unpin (ask .unpin [15]))
      ∧ numOf 16 (byteAt [15, 15] 0) = some 15 ∧ numOf 16 (byteAt [15, 15] 1) = some 15
      ∧ (State.reset.group 15).kind ≠ .hoot ∧ ((floor15 Floor.empty true 0).group 15).openMode = true
      ∧ (∃ s : State, (s.group 15).kind = .hoot ∧ (s.group 15).openMode = false ∧ (s.group 15).listening.look 15 = false)
      ∧ (∀ p ∈ [(15 : Pos), 14], ∀ pinned ∈ [true, false], ∃ (s : State) (h : Holder), (s.group 15).kind = .hoot
        ∧ (s.group 15).openMode = false ∧ (s.group 15).listening.look 15 = true ∧ s.gfu.up.look 15 = true
        ∧ (s.group 15).floor.holder = some h ∧ h.pos = p ∧ h.pinned = pinned ∧ (s.group 15).floor.wait = []
        ∧ (∀ k, k ≠ 15 → (s.group k).floor.engaged 15 = false) ∧ (p = 14 → ∀ k, (s.group k).floor.engaged 15 = false))
      ∧ ∃ s : State, (s.group 15).kind = .hoot ∧ (s.group 15).openMode = false ∧ (s.group 15).listening.look 15 = true
        ∧ s.gfu.up.look 15 = true ∧ (s.group 15).floor.holder = none ∧ ∃ k, k ≠ 15 ∧ (s.group k).floor.engaged 15 = true :=
  ⟨fun s => ⟨asked_offers rfl rfl, asked_offers rfl rfl⟩, rfl, rfl, by decide +kernel, by decide +kernel,
   ⟨grp15 (grp .hoot), by decide +kernel⟩,
   fun p hp pi hpi => ⟨floor15 { held14 0 false pi with holder := some ⟨p, 0, false, pi, .explicit⟩ } false 0,
     ⟨p, 0, false, pi, .explicit⟩, by revert p pi; decide +kernel⟩,
   ⟨engaged14 (floor15 Floor.empty false 0), by decide +kernel⟩⟩


/-- A pin on a free floor, of a waiter that is the last of its level and not, and of a deferred entry; an unpinning with others waiting;
and the operands one past their ranges. -/
theorem witness_PinAndUnpin_waiting :
    (∃ s : State, (s.group 15).kind = .hoot ∧ (s.group 15).openMode = false ∧ (s.group 15).listening.look 15 = true
        ∧ s.gfu.up.look 15 = true ∧ (s.group 15).floor.holder = none ∧ ∀ k, (s.group k).floor.engaged 15 = false)
      ∧ (∀ f ∈ [waiting15 .vox 1, waiting15 .explicit 2, { held14 0 false false with
          wait := [⟨13, 1, false, .vox⟩], deferred := [⟨15, 1, true, .explicit⟩] }], ∃ s : State, (s.group 15).kind = .hoot
        ∧ (s.group 15).openMode = false ∧ (s.group 15).listening.look 15 = true ∧ s.gfu.up.look 15 = true ∧ (s.group 15).floor = f
        ∧ f.holder = some ⟨14, 0, false, false, .explicit⟩ ∧ f.engaged 15 = true ∧ f.talkers = []
        ∧ ∀ k, k ≠ 15 → (s.group k).floor.engaged 15 = false)
      ∧ (∀ lv ∈ [(1 : Fin 4), 2], ∃ s : State, (s.group 15).floor = passing 15 true .explicit lv)
      ∧ (∀ b ∈ [[16, 15], [15, (16 : Byte)]], (∃ s f, State.Offers s 16 .pinFloor f ∧ f.body = b)
        ∧ (numOf 16 (byteAt b 0) = none ∨ numOf 16 (byteAt b 1) = none))
      ∧ (∃ s f, State.Offers s 16 .unpin f ∧ numOf 16 (byteAt f.body 0) = none) :=
  ⟨⟨floor15 Floor.empty false 0, by decide +kernel⟩,
   fun f h => ⟨floor15 f false 0, by revert f; decide +kernel⟩,
   fun lv h => ⟨floor15 (passing 15 true .explicit lv) false 0, by revert lv; decide +kernel⟩,
   fun b h => ⟨⟨asked State.reset 16 .pinFloor b, _, asked_offers rfl (by revert b; decide), rfl⟩, by revert b; decide⟩,
   ⟨asked State.reset 16 .unpin [16], _, asked_offers rfl rfl, rfl⟩⟩
/-- A report of position 15's microphone waits at GFU. -/
def reported (s : State) (on : Bool) : State := s.setChan { s.chan with vox := [(15, on)] }

/-- VOX without effect (DOWN at GFU), a request on the lowest speaker that carries a HOOT group, a report of silence without and with an
engagement of origin VOX, and a talk report of the last line. -/
theorem witness_ActivityReportsAreTaken :
    (∀ on ∈ [true, false], ∃ s : State, takeFirst (fun r => r.1 == 15) s.chan.vox = some ((15, on), [])
        ∧ s.gfu.up.look 15 = false ∧ ∀ g, (s.group g).floor.originOf 15 ≠ some .vox)
      ∧ (∃ s : State, takeFirst (fun r => r.1 == 15) s.chan.vox = some ((15, true), []) ∧ s.gfu.up.look 15 = true
        ∧ (s.pos 15).settings.vox = true ∧ (∀ j, (s.group j).floor.engaged 15 = false)
        ∧ (s.pos 15).assign.look 5 = .group 15 ∧ (s.group 15).kind = .hoot
        ∧ (∀ i, i < 5 → (s.pos 15).assign.look i = .none) ∧ (s.group 15).listening.look 15 = true
        ∧ (s.group 15).openMode = false ∧ (s.group 15).floor.holder = none)
      ∧ (∃ (s : State) (h : Holder), takeFirst (fun r => r.1 == 15) s.chan.vox = some ((15, false), [])
        ∧ (s.group 15).floor.holder = some h ∧ h.pos = 15 ∧ h.origin = .vox
        ∧ (∀ k, k ≠ 15 → (s.group k).floor.originOf 15 ≠ some .vox) ∧ (s.group 15).floor.wait = [])
      ∧ ∀ on ∈ [true, false], ∃ s : State, takeFirst (fun r => r.1 == 63) s.chan.talk = some ((63, on), []) :=
  ⟨fun on h => ⟨reported State.reset on, by revert on; decide +kernel⟩,
   ⟨reported (floor15 Floor.empty false 0) true, by decide +kernel⟩,
   ⟨reported (floor15 { Floor.empty with holder := some ⟨15, 0, false, false, .vox⟩ } false 0) false,
     ⟨15, 0, false, false, .vox⟩, by decide +kernel⟩,
   fun on h => ⟨State.reset.setChan { State.reset.chan with talk := [(63, on)] }, by revert on; decide +kernel⟩⟩


/-- An active report with no speaker on a HOOT group and of a position that does not listen; on an OPEN floor, at a lower holder, and behind
one that keeps the floor; at a LATCHED one with others waiting; and a report of silence from a holder with others waiting, a waiter, a
deferred entry and an open talker. -/
theorem witness_ActivityReportsAreTaken_floors :
    (∀ k g, (State.reset.pos 15).assign.look k = .group g → (State.reset.group g).kind ≠ .hoot)
      ∧ (∃ s : State, (s.pos 15).settings.vox = true ∧ s.gfu.up.look 15 = true ∧ (s.pos 15).assign.look 5 = .group 15
        ∧ (s.group 15).kind = .hoot ∧ (s.group 15).listening.look 15 = false ∧ ∀ j, (s.group j).floor.engaged 15 = false)
      ∧ (∀ o ∈ [true, false], ∀ mine ∈ [(0 : Fin 4), 3], ∀ pinned ∈ [true, false], ∃ s : State,
        takeFirst (fun r => r.1 == 15) s.chan.vox = some ((15, true), []) ∧ (s.pos 15).settings.vox = true ∧ s.gfu.up.look 15 = true
        ∧ (∀ j, (s.group j).floor.engaged 15 = false) ∧ (s.pos 15).assign.look 5 = .group 15
        ∧ (∀ i, i < 5 → (s.pos 15).assign.look i = .none) ∧ (s.group 15).kind = .hoot ∧ (s.group 15).listening.look 15 = true
        ∧ (s.group 15).openMode = o ∧ (s.group 15).floor.holder = (if o then none else some ⟨14, 2, false, pinned, .explicit⟩)
        ∧ (s.pos 15).settings.floorLevel = mine)
      ∧ (∀ mine ∈ [(0 : Fin 4), 1, 2, 3], ∃ (w : Waiter) (a b up stay : List Waiter),
        (reported (latched14 mine) true).chan.vox = [(15, true)] ∧ (arrived14 .vox false mine).Picks w a b up stay ∧ w.pos ≠ 14)
      ∧ ∀ f ∈ [passing 15 false .vox 1, passing 15 false .vox 2, waiting15 .vox 1, waiting15 .vox 2, { held14 0 false false with
          wait := [⟨13, 1, false, .vox⟩], deferred := [⟨15, 1, true, .vox⟩] }, { Floor.empty with talkers := [⟨0, .vox⟩, ⟨15, .vox⟩] }],
        ∃ s : State, takeFirst (fun r => r.1 == 15) s.chan.vox = some ((15, false), []) ∧ (s.group 15).floor = f
        ∧ f.originOf 15 = some .vox ∧ ∀ k, k ≠ 15 → (s.group k).floor.originOf 15 ≠ some .vox := by
  refine ⟨by decide +kernel, ⟨(floor15 Floor.empty false 0).setGroup 15 (grp .hoot), by decide +kernel⟩,
    fun o h mine h1 pinned h2 => ⟨reported (floor15 (if o then Floor.empty else held14 2 false pinned) o mine) true, ?_⟩,
    fun mine h => ?_, fun f h => ⟨reported (floor15 f (!f.talkers.isEmpty) 0) false, ?_⟩⟩
  · revert o mine pinned; decide +kernel
  · simp only [List.mem_cons, List.not_mem_nil, or_false] at h
    rcases h with rfl | rfl | rfl | rfl
    · exact ⟨⟨0, 2, true, .explicit⟩, [⟨13, 1, false, .vox⟩], [⟨15, 0, false, .vox⟩], [], [], by decide +kernel⟩
    · exact ⟨⟨0, 2, true, .explicit⟩, [⟨13, 1, false, .vox⟩], [], [], [⟨15, 1, false, .vox⟩], by decide +kernel⟩
    · exact ⟨⟨0, 2, true, .explicit⟩, [⟨13, 1, false, .vox⟩], [], [⟨15, 2, false, .vox⟩], [], by decide +kernel⟩
    · exact ⟨⟨15, 3, false, .vox⟩, [⟨13, 1, false, .vox⟩, ⟨0, 2, true, .explicit⟩], [], [], [], by decide +kernel⟩
  · revert f; decide +kernel
/-! ## Witnesses: mixes -/

theorem witness_NoticesAndDerivations :
    (∀ q ∈ [Subject.leg 207, .line 63, .position 15, .group 15, .tap 15, .bars [63] [15]], ∃ s : State,
        takeFirst (· == q) s.chan.notices = some (q, []))
      ∧ ∃ s : State, s.cmx.inProgress = none ∧ s.cmx.awaited.look 207 = true ∧ ∀ j, j < 207 → s.cmx.awaited.look j = false :=
  ⟨fun q _ => ⟨State.reset.setChan { State.reset.chan with notices := [q] }, by simp [State.setChan, takeFirst]⟩,
   ⟨{ State.reset with cmx := { State.reset.cmx with awaited := (Table.fill false).put 207 true } }, by decide +kernel⟩⟩


/-- Where handset B of position 15 may stand: on line 63, in group 15, in call 7 as caller or callee, alerting, or nowhere. -/
def stands15 : List State :=
  [at63 { ln .ringdown .connected with direction := some .incoming, connected := [⟨15, .B, false⟩, ⟨0, .A, false⟩] },
   grp15 { grp .intercom with joined := [(0, .A), (15, .B)] },
   State.reset.setCall 7 (.active 15 .B 0 .A true), State.reset.setCall 7 (.active 0 .A 15 .B true),
   State.reset.setCall 7 (.alerting 15 .B 0 true none), State.reset]

/-- Each kind and state of a line with a send, an ATTACHED line; and each target of a tap, active and not, with handset B of position 15
on a line, in a group, in a call as caller and as callee, alerting, and nowhere. -/
theorem witness_NoticesAndDerivations_contents :
    (∀ k ∈ [LineKind.unused, .ringdown, .automatic, .hoot], ∀ st ∈ [LineState.idle, .outgoing, .connected, .held], ∃ (s : State) (r : LineRec),
        (191 : Leg).val = 128 + (63 : Line).val ∧ s.line 63 = r ∧ r.cfg.kind = k ∧ r.state = st)
      ∧ (∃ (s : State) (r : LineRec), s.line 63 = r ∧ r.cfg.kind = .hoot ∧ r.state = .attached ∧ r.hoot = some 15)
      ∧ (∀ e ∈ [true, false], ∀ y ∈ [TapTarget.none, .line 63, .group 15, .handset 15 .B], ∃ (s : State) (r : TapRec),
        (207 : Leg).val = 192 + (15 : TapNo).val ∧ s.tap 15 = r ∧ r.enabled = e ∧ r.target = y)
      ∧ (∃ s ∈ stands15, ((s.line 63).entry 15 .B).isSome = true ∧ (s.line 63).direction = some .incoming
        ∧ (s.line 63).state = .connected ∧ ∀ m, m < 63 → (s.line m).entry 15 .B = none)
      ∧ (∃ s ∈ stands15, (∀ l, (s.line l).entry 15 .B = none) ∧ (15, .B) ∈ (s.group 15).joined
        ∧ ∀ i, i < 15 → (15, .B) ∉ (s.group i).joined)
      ∧ (∀ c ∈ [CallRec.active 15 .B 0 .A true, .active 0 .A 15 .B true, .alerting 15 .B 0 true none], ∃ s ∈ stands15,
        (∀ l, (s.line l).entry 15 .B = none) ∧ (∀ g, (15, .B) ∉ (s.group g).joined) ∧ s.call 7 = c
        ∧ ∀ d, d < 7 → (s.call d).holds 15 .B = false)
      ∧ ∃ s ∈ stands15, (∀ l, (s.line l).entry 15 .B = none) ∧ (∀ g, (15, .B) ∉ (s.group g).joined)
        ∧ ∀ c, (s.call c).holds 15 .B = false :=
  ⟨fun k h st h1 => ⟨at63 (ln k st), ln k st, rfl, at63_line _, rfl, rfl⟩,
   ⟨at63 { ln .hoot .attached with hoot := some 15 }, _, rfl, by decide +kernel⟩,
   fun e h y h1 => ⟨State.reset.setTap 15 { State.reset.tap 15 with target := y, enabled := e }, _, rfl, rfl, by
     revert e y; decide +kernel⟩,
   ⟨at63 { ln .ringdown .connected with direction := some .incoming, connected := [⟨15, .B, false⟩, ⟨0, .A, false⟩] }, by
     simp [stands15], by decide +kernel⟩,
   ⟨grp15 { grp .intercom with joined := [(0, .A), (15, .B)] }, by simp [stands15], by decide +kernel⟩,
   fun c h => ⟨State.reset.setCall 7 c, by
     simp only [List.mem_cons, List.not_mem_nil, or_false] at h; rcases h with rfl | rfl | rfl <;> simp [stands15], by
     revert c; decide +kernel⟩,
   ⟨State.reset, by simp [stands15], by decide +kernel⟩⟩
/-- A mix entry that any list may hold. -/
def anEntry : MixEntry := ⟨113, 255, false⟩

/-- Leg 207 of a tap with line 63 as its target is in derivation with handset 15B's microphone in its list, while these messages of
LCU wait. -/
def joining (m : List ToPtb) : State :=
  let s := (State.reset.setTap 15 { State.reset.tap 15 with target := .line 63, enabled := true }).setFromOwner .lcu m
  { s with cmx := { s.cmx with inProgress := some ⟨207, [⟨micSource 15 .B, 128, false⟩], 0⟩ } }

/-- A derivation of leg 207 to install, longer and no longer than what the leg can take; the leg's own list is never empty here, so the
free count rises in the second; and the leg of a LINE tap with a dealer whose reply is due, and with none. -/
theorem witness_InstallationsAccountForThePool :
    (∀ p ∈ [(0, 17), (15, 1), (1535, 16)], ∃ (s : State) (d : Derivation), s.cmx.inProgress = some d ∧ s.cmx.free = p.1
      ∧ d.list.length = p.2 ∧ (s.leg d.leg).list.length = 1 ∧ s.chan.fromLcu = [])
      ∧ (∃ (s : State) (d : Derivation), s.cmx.inProgress = some d ∧ d.leg.val = 192 + (15 : TapNo).val
        ∧ (s.tap 15).target = .line 63 ∧ .outcome 15 .B .link (.inl (.line 63)) ∈ s.chan.fromLcu
        ∧ ∃ e ∈ d.list, e.src = micSource 15 .B)
      ∧ ∃ (s : State) (d : Derivation), s.cmx.inProgress = some d ∧ d.leg.val = 192 + (15 : TapNo).val
        ∧ (s.tap 15).target = .line 63 ∧ s.chan.fromLcu = [.outcome 0 .A .link (.inl (.line 63))]
        ∧ ∀ e ∈ d.list, e.src ≠ micSource 0 .A :=
  ⟨fun p h => ⟨({ State.reset with cmx := { State.reset.cmx with
      free := p.1, inProgress := some ⟨207, List.replicate p.2 anEntry, 0⟩ } }).setLeg 207
        { State.reset.leg 207 with list := [anEntry] }, ⟨207, List.replicate p.2 anEntry, 0⟩, by revert p; decide +kernel⟩,
   ⟨joining [.outcome 15 .B .link (.inl (.line 63))], _, rfl, by decide +kernel⟩,
   ⟨joining [.outcome 0 .A .link (.inl (.line 63))], _, rfl, by decide +kernel⟩⟩

/-- A muted handset, the last line send, a DOWN position, and a list with a gated entry. -/
theorem witness_DerivedListsKeepTheirExclusions :
    ((at15 { holding (.line 63) with mute := ⟨false, true⟩ }).pos 15).mute.of .B = true
      ∧ (∃ k : Leg, k.val = 128 + (63 : Line).val) ∧ (∃ k : Leg, k.val / 8 = (15 : Pos).val ∧ (State.reset.pos 15).up = false)
      ∧ ∃ e ∈ State.derivedList (floor15 { Floor.empty with talkers := [⟨14, .vox⟩] } true 0) 127,
        e.gated = true ∧ e.src = deskSource 14 :=
  ⟨by decide +kernel, ⟨191, rfl⟩, ⟨127, rfl, by decide +kernel⟩, ⟨⟨44, 96, true⟩, by decide +kernel⟩⟩


/-- The speakers of the witnesses: position 15 UP, alert speaker S6, S6 on this target. -/
def speaking (s : State) (x : Target) : State :=
  s.setPos 15 { speaker6 true x none with settings := { Settings.reset with alertSpeaker := 5 } }

/-- An ear in each place where its handset may stand; a speaker on nothing, on a line, on a MANAGED group with nobody, itself or another
as holder and on an OPEN one; and an alert speaker with a caller, with an INCOMING line, and with neither. -/
theorem witness_DerivedListsKeepTheirExclusions_contents :
    (∀ s ∈ stands15, ∃ u : State, (121 : Leg).val = 8 * (15 : Pos).val + 1 ∧ (u.pos 15).up = true ∧ u.lcu = s.lcu ∧ u.gfu = s.gfu)
      ∧ (∀ x ∈ [Target.none, .line 63, .group 15], ∃ s : State, (127 : Leg).val = 8 * (15 : Pos).val + 2 + (5 : Spk).val
        ∧ (s.pos 15).up = true ∧ (s.pos 15).assign.look 5 = x)
      ∧ (∀ h ∈ [none, some (14 : Pos), some 15], ∃ s : State, (s.pos 15).assign.look 5 = .group 15 ∧ (s.group 15).kind = .hoot
        ∧ (s.group 15).openMode = false ∧ (s.group 15).floor.holderPos = h)
      ∧ (∃ s : State, (s.pos 15).assign.look 5 = .group 15 ∧ (s.group 15).kind = .hoot ∧ (s.group 15).openMode = true)
      ∧ (∀ x ∈ [(4 : Spk), 5], ∃ s : State, (s.pos 15).up = true ∧ (s.pos 15).settings.alertSpeaker = x)
      ∧ (∀ v ∈ [true, false], ∃ s : State, (s.pos 15).settings.alertSpeaker = 5 ∧ s.call 7 = .alerting 0 .A 15 v none
        ∧ ∀ d, d < 7 → (s.call d).alerts 15 = false)
      ∧ (∃ s : State, (∀ c, (s.call c).alerts 15 = false) ∧ (s.line 63).state = .incoming ∧ (s.line 63).cfg.kind = .ringdown
        ∧ (s.row 63).look 15 = ⟨.full, false⟩)
      ∧ ∃ s : State, (∀ c, (s.call c).alerts 15 = false) ∧ ∀ l, (s.line l).state ≠ .incoming :=
  ⟨fun s _ => ⟨speaking s .none, rfl, by simp [speaking, State.pos, State.setPos, speaker6], rfl, rfl⟩,
   fun x h => ⟨speaking State.reset x, rfl, by revert x; decide +kernel⟩,
   fun h hh => ⟨speaking (grp15 (hoot15 { Floor.empty with holder := h.map fun p => ⟨p, 0, false, false, .explicit⟩ })) (.group 15),
     by revert h; decide +kernel⟩,
   ⟨speaking (grp15 { hoot15 Floor.empty with openMode := true }) (.group 15), by decide +kernel⟩,
   fun x h => ⟨State.reset.setPos 15 { PosRec.reset with up := true, settings := { Settings.reset with alertSpeaker := x } }, by
     revert x; decide +kernel⟩,
   fun v h => ⟨speaking (State.reset.setCall 7 (.alerting 0 .A 15 v none)) .none, by revert v; decide +kernel⟩,
   ⟨seen63 (ln .ringdown .incoming) ⟨.full, false⟩, by decide +kernel⟩, ⟨State.reset, by decide +kernel⟩⟩
/-- A product above the limit and one at it. -/
theorem witness_LevelsCompose :
    (∃ a b q : Nat, q * 128 ≤ a * b + 64 ∧ a * b + 64 < (q + 1) * 128 ∧ 255 < q)
      ∧ ∃ a b q : Nat, q * 128 ≤ a * b + 64 ∧ a * b + 64 < (q + 1) * 128 ∧ q = 255 :=
  ⟨⟨255, 255, 508, by decide⟩, ⟨255, 128, 255, by decide⟩⟩

theorem witness_AlertToneRunsFree :
    (∀ n ∈ [0, 3199, 3200, 4799], ∃ s : State, s.cmx.alertCount = n) ∧ (0 = 32 * 0 + 0 ∧ 3199 = 32 * 99 + 16 + 15)
      ∧ ∃ c : Instr, (∀ far present, c ≠ .powerOnReset far present) ∧ ∀ mics receives, c ≠ .audioFrame mics receives :=
  ⟨fun n _ => ⟨{ State.reset with cmx := { State.reset.cmx with alertCount := n } }, rfl⟩, by decide,
   ⟨.softResetAtCmx, by simp, by simp⟩⟩

/-- And an ear leg in recording fault, which carries the tone. -/
theorem witness_AttentionToneRunsFree :
    (∀ n ∈ [0, 1599, 1600, 119999], ∃ s : State, s.cmx.attentionCount = n) ∧ (0 = 16 * 0 + 0 ∧ 1599 = 16 * 99 + 8 + 7)
      ∧ (∃ c : Instr, (∀ far present, c ≠ .powerOnReset far present) ∧ ∀ mics receives, c ≠ .audioFrame mics receives)
      ∧ ∃ (s : State) (e : MixEntry), e ∈ s.derivedList 121 ∧ 112 ≤ e.src.val :=
  ⟨fun n _ => ⟨{ State.reset with cmx := { State.reset.cmx with attentionCount := n } }, rfl⟩, by decide,
   ⟨.softResetAtCmx, by simp, by simp⟩,
   ⟨{ State.reset with
      lcu := ((at63 { ln .ringdown .connected with connected := [⟨15, .B, true⟩] })).lcu
      ptb := (at15 (holding (.line 63))).ptb
      rtu := { taps := State.reset.rtu.taps.put 15
                 { target := .handset 15 .B, receive := true, send := true, incoming := true, outgoing := true, enabled := true,
                   lock := .opened, coverage := [⟨15, .B, 63⟩], present := false }
               faults := State.reset.rtu.faults.put 15 ⟨false, true⟩ } },
    ⟨113, 32, false⟩, by decide +kernel⟩⟩

/-- A leg with a gated entry of the last desk microphone, and levels at which the output stands in range, above and below it. -/
theorem witness_LegsOfOneFrame :
    (State.reset.leg 207).list = [] ∧ ((State.reset.setLeg 207 { State.reset.leg 207 with
        list := [⟨47, 255, true⟩] }).leg 207).list ≠ []
      ∧ (∀ p ∈ [((0 : Int), (255 : Int)), (100000, 128), (-100000, 128)],
        (p.1 = 0 → -32768 ≤ (p.1 * p.2 + 64) / 128 ∧ (p.1 * p.2 + 64) / 128 ≤ 32767)
        ∧ (p.1 = 100000 → 32767 < (p.1 * p.2 + 64) / 128) ∧ (p.1 = -100000 → (p.1 * p.2 + 64) / 128 < -32768))
      ∧ (List.replicate 16 anEntry).length ≤ 16 ∧ -32768 ≤ (-32768 : Int) ∧ (32767 : Int) ≤ 32767 := by decide +kernel

/-- Detectors that rise, fall and rest, from each state, at the thresholds of the manual's defaults. -/
theorem witness_DetectorsFollowTheirSources :
    (∃ e a up : Nat, e < a ∧ 8 * up < a - e + 8 ∧ a - e ≤ 8 * up) ∧ (∃ e a fall : Nat, a < e ∧ 256 * fall ≤ e - a
        ∧ e - a < 256 * (fall + 1))
      ∧ (∀ st ∈ [Activity.quiet, .active, .hanging], ∀ e ∈ [499, 500, 999, 1000], ∀ hang ∈ [0, 1, 2, 1600], ∃ s : State,
        s.cmx.detectors.look 111 = ⟨e, st, hang⟩ ∧ s.cmx.lineSet.on = 1000 ∧ s.cmx.lineSet.off = 500) :=
  ⟨⟨0, 1, 1, by decide⟩, ⟨1, 0, 0, by decide⟩,
   fun st _ e _ hang _ => ⟨{ State.reset with cmx := { State.reset.cmx with
     detectors := State.reset.cmx.detectors.put 111 ⟨e, st, hang⟩ } }, by simp, rfl, rfl⟩⟩

theorem witness_MixerRequests :
    (∀ b ∈ [[(207 : Byte), 255], [208, 255]], ∃ s f, State.Offers s 16 .legLevel f ∧ f.body = b)
      ∧ (∀ b ∈ [[(0 : Byte), 207], [0, 208], [1, 255], [2, 0]], ∃ s f, State.Offers s 16 .queryLeg f ∧ f.body = b)
      ∧ (∀ b ∈ [[(0 : Byte), 0x7F, 0xFF, 0x7F, 0xFF, 255], [1, 0, 0, 0x7F, 0xFF, 0], [1, 0x80, 0, 0, 0, 0], [0, 0, 0, 0x80, 0, 0],
          [2, 0, 0, 0, 0, 0]], ∃ s f, State.Offers s 16 .detectorConfig f ∧ f.body = b)
      ∧ (∀ b ∈ [[(111 : Byte)], [112]], ∃ s f, State.Offers s 16 .querySource f ∧ f.body = b)
      ∧ numOf 208 207 = some 207 ∧ numOf 208 208 = none ∧ numOf 112 111 = some 111 ∧ numOf 112 112 = none
      ∧ ((0x7F#8 ++ 0xFF#8).toNat ≤ 32767) ∧ 32767 < (0x80#8 ++ 0x00#8).toNat :=
  ⟨fun b h => ⟨asked State.reset 16 .legLevel b, _, asked_offers rfl (by revert b; decide), rfl⟩,
   fun b h => ⟨asked State.reset 16 .queryLeg b, _, asked_offers rfl (by revert b; decide), rfl⟩,
   fun b h => ⟨asked State.reset 16 .detectorConfig b, _, asked_offers rfl (by revert b; decide), rfl⟩,
   fun b h => ⟨asked State.reset 16 .querySource b, _, asked_offers rfl (by revert b; decide), rfl⟩, by decide⟩

/-! ## Witnesses: taps, sequences, links, events, resets -/

/-- Tap 15 with this record. -/
def tap15 (r : TapRec) : State := State.reset.setTap 15 r

/-- A tap that covers handset B of position 15 on any line, ENABLED, with this coverage and recorder. -/
def covering (cs : List Cover) (present : Bool) : TapRec :=
  { target := .handset 15 .B, receive := true, send := true, incoming := true, outgoing := true, enabled := true,
    lock := .opened, coverage := cs, present := present }

/-- Four entries of a coverage list. -/
def fourCovers : List Cover := [⟨0, .A, 0⟩, ⟨0, .B, 0⟩, ⟨1, .A, 0⟩, ⟨1, .B, 0⟩]

/-- The state with one message of LCU to RTU, and handset B of position 15 in recording fault or not. -/
def asksRtu (s : State) (m : ToRtu) (fault : Bool) : State :=
  { s with chan := { s.chan with toRtu := [m] }, rtu := { s.rtu with faults := s.rtu.faults.put 15 ⟨false, fault⟩ } }

/-- A reservation with no tap, with a full one and with room, the recorder present and absent; a release of an entry and of none, in
fault and not; and each change of a recorder. -/
theorem witness_CoverageAndRecorderPresence :
    (∀ cs ∈ [fourCovers, fourCovers.tail], ∀ on ∈ [true, false], ∀ fault ∈ [true, false], ∃ s : State,
        s.chan.toRtu = [.reserve 15 .B 63 .incoming] ∧ (s.tap 15).enabled = true ∧ (s.tap 15).receive = true
        ∧ (s.tap 15).send = true ∧ (s.tap 15).incoming = true ∧ (s.tap 15).target = .handset 15 .B
        ∧ (s.tap 15).coverage = cs ∧ (∀ q, q < 15 → (s.tap q).enabled = false)
        ∧ (∀ q, ∀ c ∈ (s.tap q).coverage, ¬(c.pos = 15 ∧ c.hs = .B)) ∧ (s.tap 15).present = on
        ∧ s.fault 15 .B = fault)
      ∧ (∀ l ∈ [(62 : Line), 63], ∃ s : State, s.chan.toRtu = [.reserve 15 .B 63 .incoming] ∧ ⟨15, .B, l⟩ ∈ (s.tap 15).coverage)
      ∧ (∀ cs ∈ [fourCovers, fourCovers.tail ++ [⟨15, .B, 63⟩]], ∀ fault ∈ [true, false], ∀ r ∈ [true, false],
        ∃ s : State, s.chan.toRtu = [.release 15 .B 63 r] ∧ (s.tap 15).coverage = cs
        ∧ (∀ q, q < 15 → (s.tap q).coverage = []) ∧ s.fault 15 .B = fault)
      ∧ ∀ on ∈ [true, false], ∀ present ∈ [true, false], ∀ enabled ∈ [true, false], ∃ s : State,
        (s.tap 15).present = present ∧ (s.tap 15).enabled = enabled ∧ (s.tap 15).coverage = [⟨15, .B, 63⟩]
        ∧ s.fault 15 .B = on := by
  refine ⟨fun cs h on h1 fault h2 => ⟨asksRtu (tap15 (covering cs on)) (.reserve 15 .B 63 .incoming) fault, ?_⟩,
    fun l h => ⟨asksRtu (tap15 (covering [⟨15, .B, l⟩] true)) (.reserve 15 .B 63 .incoming) false, by revert l; decide +kernel⟩,
    fun cs h fault h1 r h2 => ⟨asksRtu (tap15 (covering cs true)) (.release 15 .B 63 r) fault, ?_⟩,
    fun on h p h1 e h2 => ⟨asksRtu (tap15 { covering [⟨15, .B, 63⟩] p with enabled := e }) (.release 15 .B 63 false) on, ?_⟩⟩
  · revert cs on fault; decide +kernel
  · revert cs fault r; decide +kernel
  · revert on p e; decide +kernel

/-- Each lock and state of tap 15, with every request about it and each kind of target. -/
theorem witness_TapsAreProgrammedAndLocked :
    (∀ lock ∈ [Lock.opened, .locked, .fixed], ∀ enabled ∈ [true, false], ∀ cs ∈ [[], fourCovers], ∃ s : State,
        (s.tap 15).lock = lock ∧ (s.tap 15).enabled = enabled ∧ (s.tap 15).coverage = cs)
      ∧ (∀ b ∈ [[(15 : Byte), 1, 15, 1, 3, 3], [15, 2, 63, 0, 3, 3], [15, 3, 15, 0, 3, 3], [15, 4, 0, 0, 0, 0], [15, 2, 64, 0, 0, 0]],
        ∃ s f, State.Offers s 16 .tapSet f ∧ f.body = b ∧ numOf 16 (byteAt f.body 0) = some 15)
      ∧ (∀ k ∈ [ReqKind.tapDisable, .tapEnable, .tapLock, .tapUnlock, .tapFix, .queryTap], ∃ s f, State.Offers s 16 k f
        ∧ numOf 16 (byteAt f.body 0) = some 15)
      ∧ (∀ k ∈ [ReqKind.tapDisable, .tapEnable, .tapLock, .tapUnlock, .tapFix, .queryTap], ∃ s f, State.Offers s 16 k f
        ∧ 15 < (byteAt f.body 0).toNat)
      ∧ (∃ s f, State.Offers s 16 .tapSet f ∧ 15 < (byteAt f.body 0).toNat)
      ∧ tapTargetOf 1 15 1 = some (.handset 15 .B) ∧ tapTargetOf 2 63 0 = some (.line 63)
      ∧ tapTargetOf 3 15 0 = some (.group 15) ∧ tapTargetOf 4 0 0 = none ∧ tapTargetOf 2 64 0 = none
      ∧ (State.reset.group 15).kind ≠ .hoot ∧ ((grp15 (grp .hoot)).group 15).kind = .hoot :=
  ⟨fun lock h e h1 cs h2 => ⟨tap15 { covering cs true with lock := lock, enabled := e }, by
     revert lock e cs; decide +kernel⟩,
   fun b h => ⟨asked State.reset 16 .tapSet b, _, asked_offers rfl (by revert b; decide), rfl, by revert b; decide⟩,
   fun k h => ⟨asked State.reset 16 k [15], _, asked_offers (by revert k; decide) (by revert k; decide), rfl⟩,
   fun k h => ⟨asked State.reset 16 k [16], _, asked_offers (by revert k; decide) (by revert k; decide), by
     show 15 < (byteAt [16] 0).toNat; decide⟩,
   ⟨asked State.reset 16 .tapSet [16, 0, 0, 0, 0, 0], _, asked_offers rfl rfl, by decide⟩,
   by decide, by decide, by decide, by decide, by decide, by decide +kernel, by decide +kernel⟩

/-- A STEP_WRITE body of step 255 with this action. -/
def stepBody (action : Byte) : List Byte := [255, action, 1, 2, 3, 1, 254, 0xFF, 0xFF]

theorem witness_StepsAreWrittenAndReadBack :
    (∀ a ∈ [(0x11 : Byte), 0x1D, 0x02], ∀ st ∈ [RunState.idle, .waiting 255 0 false, .draining], ∃ (s : State) (f : Frame),
        s.Offers 16 .stepWrite f ∧ (byteAt f.body 0).toFin = 255
        ∧ ((stepOf f.body).isNone = decide (a = 0x1D ∨ a = 0x02)) ∧ (s.runOf 15).state = st)
      ∧ (∃ (s : State) (f : Frame), s.Offers 16 .stepRead f ∧ (byteAt f.body 0).toFin = (255 : Fin 256))
      ∧ ∃ body r, stepOf body = some r :=
  ⟨fun a h st h1 => ⟨asked (State.reset.setRun 15 ⟨st, 1⟩) 16 .stepWrite (stepBody a), _, asked_offers rfl rfl, by
     revert a st; decide +kernel⟩,
   ⟨asked State.reset 16 .stepRead [255], _, asked_offers rfl rfl, rfl⟩, ⟨stepBody 0x11, _, rfl⟩⟩

/-- Step 255 as these say. -/
def step255 (a : Action) (next : Option StepNo) : StepRec := { StepRec.reset with
  action := a, operands := ⟨1, 0, 0⟩, next := next, mask := Table.fill true, notify := true }

/-- Position 15's run in this state, after these steps, with step 255 going on to step 254 of this action. -/
def running (st : RunState) (done : Nat) (a b : Action) (next : Option StepNo) : State :=
  let s := { State.reset with squ := { State.reset.squ with
    steps := (State.reset.squ.steps.put 255 (step255 a next)).put 254 (step255 b none) } }
  (s.setRun 15 ⟨st, done⟩).setChan { s.chan with outcomes := s.chan.outcomes.put 15 (some .accepted) }

/-- A run that is begun in each state and at each step; an outcome that ends it, goes on, is aborted, is too long, and meets an empty
step; and a pause that ends and goes on. -/
theorem witness_RunsGoStepByStep :
    (∀ s : State, (∃ t, (asked s 15 .runSequence [255]).Submits (.port 15) .runSequence 15 [255] t)
        ∧ ∃ t, (asked s 15 .abortSequence []).Submits (.port 15) .abortSequence 15 [] t)
      ∧ (byteAt [255] 0).toFin = (255 : Fin 256)
      ∧ (∀ st ∈ [RunState.idle, .draining, .waiting 255 0 false, .pausing 255 0 (some 1)],
        ∀ a ∈ [Action.none, .pause, .request .takeLine], ∃ s : State,
        (s.runOf 15).state = st ∧ (s.stepRec 255).mask.look 15 = true ∧ (s.stepRec 255).action = a
        ∧ (s.stepRec 255).operands.op1 ≠ 0)
      ∧ (State.reset.stepRec 255).mask.look 15 = false
      ∧ (∀ next ∈ [none, some (254 : StepNo)], ∀ abort ∈ [true, false], ∀ b ∈ [Action.none, .request .hold], ∀ done ∈ [1, 31, 32],
        ∃ s : State, s.chan.outcomes.look 15 = some .accepted ∧ s.runOf 15 = ⟨.waiting 255 0 abort, done⟩
        ∧ (s.stepRec 255).next = next ∧ (s.stepRec 254).action = b)
      ∧ (∃ s : State, s.chan.outcomes.look 15 = some .badKind ∧ s.runOf 15 = ⟨.waiting 255 0 false, 1⟩)
      ∧ (∃ s : State, ∀ k first done, s.runOf 15 ≠ ⟨.pausing k first (some 0), done⟩)
      ∧ ∀ next ∈ [none, some (254 : StepNo)], ∃ s : State, s.runOf 15 = ⟨.pausing 255 0 (some 0), 31⟩
        ∧ (s.stepRec 255).next = next ∧ (s.stepRec 254).action = .request .hold := by
  refine ⟨fun s => ⟨asked_sends rfl rfl rfl, asked_sends rfl rfl rfl⟩, rfl,
    fun st h a h1 => ⟨running st 1 a .none none, ?_⟩, by decide +kernel,
    fun n h ab h1 b h2 d h3 => ⟨running (.waiting 255 0 ab) d .pause b n, ?_⟩,
    ⟨(State.reset.setRun 15 ⟨.waiting 255 0 false, 1⟩).setChan { State.reset.chan with
      outcomes := State.reset.chan.outcomes.put 15 (some .badKind) }, by decide +kernel⟩,
    ⟨State.reset.setRun 15 ⟨.pausing 255 0 (some 1), 1⟩, by simp [State.runOf, State.setRun]⟩,
    fun n h => ⟨running (.pausing 255 0 (some 0)) 31 .pause (.request .hold) n, ?_⟩⟩
  · revert st a; decide +kernel
  · revert n ab b d; decide +kernel
  · revert n; decide +kernel


/-- A run begun at a pause whose count is 0; an outcome that comes to a run in each state, and none; and an outcome and a pause that end with
a pause of each count, an empty step and the 33rd step behind them. -/
theorem witness_RunsGoStepByStep_pauses :
    (∃ s : State, (s.stepRec 255).action = .pause ∧ (s.stepRec 255).operands.op1 = 0 ∧ (s.stepRec 255).mask.look 15 = true
        ∧ (s.runOf 15).state = .idle)
      ∧ State.reset.chan.outcomes.look 15 = none
      ∧ (∀ st ∈ [RunState.idle, .draining, .pausing 255 0 (some 1)], (running st 1 .pause .none none).chan.outcomes.look 15 = some .accepted
        ∧ ((running st 1 .pause .none none).runOf 15).state = st)
      ∧ ∀ st ∈ [RunState.waiting 255 0 false, .pausing 255 0 (some 0)], ∀ a ∈ [Action.none, .pause], ∀ n ∈ [(0 : Byte), 255],
        ∀ done ∈ [31, 32], ∃ s : State, s.chan.outcomes.look 15 = some .accepted ∧ s.runOf 15 = ⟨st, done⟩
        ∧ (s.stepRec 255).next = some 254 ∧ (s.stepRec 254).action = a ∧ (s.stepRec 254).operands.op1 = n := by
  refine ⟨⟨{ State.reset with squ := { State.reset.squ with
      steps := State.reset.squ.steps.put 255 { step255 .pause none with operands := ⟨0, 0, 0⟩ } } }, by decide +kernel⟩, by decide +kernel,
    by decide +kernel, fun st h a h1 n h2 done h3 => ⟨{ running st done .pause a (some 254) with
      squ := { (running st done .pause a (some 254)).squ with
        steps := (running st done .pause a (some 254)).squ.steps.put 254 { step255 a none with operands := ⟨n, 0, 0⟩ } } }, ?_⟩⟩
  revert st a n done
  decide +kernel
/-- Port 15 with this record. -/
def port15 (r : PortRec) : State := State.reset.setPort 15 r

/-- A frame's data with its check. -/
def goodData : List Byte := Frame.bytes ⟨0x96, 0x21, [63]⟩

/-- The data of a frame of the greatest length, 64 bytes. -/
def longData : List Byte := Frame.bytes ⟨1, 0x59, List.replicate 60 0⟩

theorem bytes_check (f : Frame) : 4 ≤ f.bytes.length
    ∧ twoBytes (frameCheck (f.bytes.take (f.bytes.length - 2))) = f.bytes.drop (f.bytes.length - 2) := by
  have h : f.bytes = (f.tag :: f.kind :: f.body) ++ twoBytes (frameCheck (f.tag :: f.kind :: f.body)) := rfl
  have l : f.bytes.length - 2 = (f.tag :: f.kind :: f.body).length := by simp [h, twoBytes]
  refine ⟨by simp [h, twoBytes], ?_⟩
  rw [l, h, List.take_left, List.drop_left]

/-- A receiver in each state, an UP and a DOWN port in each mode with each of these loops, with a frame being sent and with none, and data
that is too short, that has a wrong check, that is good with room and with a full queue, and of the greatest length; each with a test sent,
with one not yet sent and without one; bytes that lose synchronism, and each frame error. -/
theorem witness_ReceiversFollowTheirTables :
    (∀ rx ∈ [Rx.hunting, Rx.insync, ⟨.synced, some 0x96#8, []⟩, { state := .inFrame, held := none, buffer := [] }], ∀ up ∈ [true, false],
        ∀ m ∈ [PortMode.normal, .localLoop, .remoteEcho], ∀ q ∈ [3, 4],
        ∀ test ∈ [none, some (⟨[0], false⟩ : LoopTest), some ⟨[0], true⟩],
        ∀ tx ∈ [none, some (⟨.test, ask .hold [0]⟩ : TxFrame)],
        ∀ loop ∈ [[], [0x69#8], [0x96#8, 0x69#8], [0x96#8, 0x96#8, 0x69#8, 0xD3#8, 0x01#8], [0x69#8, 0x96#8, 0x69#8, 0xD3#8, 0x01#8],
          [0x69#8, 0x12#8], [0x69#8, 0xD3#8, 0x02#8], [0xD3#8, 0x01#8], [0x12#8], [0xD3#8, 0x12#8],
          goodData.flatMap stuffByte ++ 0xD3#8 :: 0x02#8 :: [0x96#8, 0x69#8],
          [1, 2, 3].flatMap stuffByte ++ 0xD3#8 :: 0x03#8 :: [], longData.flatMap stuffByte ++ [0x00#8] ++ []], ∃ r : PortRec,
        (port15 r).port 15 = r ∧ r.rx = rx ∧ r.up = up ∧ r.mode = m ∧ r.queue.length = q ∧ r.test = test ∧ r.tx = tx ∧ r.loop = loop)
      ∧ ([0x96#8, 0x96#8, 0x69#8, 0xD3#8, 0x01#8] = [0x96#8] ++ [0x96#8, 0x69#8] ++ [0xD3#8, 0x01#8]
        ∧ ¬[0x96#8, 0x69#8] <:+: [0x96#8] ++ [0x96#8] ∧ ¬[0x96#8, 0x69#8] <:+: [0x69#8, 0xD3#8, 0x02#8])
      ∧ (0x12#8 ≠ 0x96#8 ∧ 0x12#8 ≠ 0xD3#8 ∧ 0x12#8 ≠ 0x69#8 ∧ 0x12#8 ≠ 0x01#8)
      ∧ (∀ data ∈ [goodData, longData], data.length ≤ 64 ∧ 4 ≤ data.length
        ∧ twoBytes (frameCheck (data.take (data.length - 2))) = data.drop (data.length - 2))
      ∧ longData.length = 64 ∧ ([1, 2, 3] : List Byte).length < 4
      ∧ (4 ≤ ([0, 0, 0, 0] : List Byte).length ∧ twoBytes (frameCheck [0, 0]) ≠ [(0 : Byte), 0])
      ∧ (0x00#8 ≠ 0x02#8 ∧ 0x00#8 ≠ 0x03#8 ∧ 0x00#8 ≠ 0xB6#8 ∧ 0x00#8 ≠ 0x49#8 ∧ 0x00#8 ≠ 0xF3#8) ∧ isMark 0x00#8 = false :=
  ⟨fun rx _ up _ m _ q _ test _ tx _ loop _ => ⟨{ PortRec.reset with
     rx := rx, up := up, mode := m, queue := List.replicate q (ask .hold [1]), test := test, tx := tx, loop := loop }, by simp [port15], rfl,
       rfl, rfl, by simp, rfl, rfl, rfl⟩,
   by decide, by decide, by
     intro data h
     rcases List.mem_pair.mp h with rfl | rfl
     · exact ⟨by simp [goodData, Frame.bytes, twoBytes], bytes_check _⟩
     · exact ⟨by simp [longData, Frame.bytes, twoBytes], bytes_check _⟩,
   by simp [longData, Frame.bytes, twoBytes], by decide, by decide +kernel, by decide, by decide⟩

theorem witness_PortsGoDownAndUp :
    (∃ s : State, (s.port 15).lossTimer = some 0 ∧ 15 = portOf 15 ∧ (s.port 15).inFlight = some ⟨7, 0x10, false⟩)
      ∧ (∃ s : State, (s.port 16).lossTimer = some 0 ∧ 16 = mgmt)
      ∧ (∃ s : State, (s.port 15).upTimer = some 0 ∧ 15 ∉ s.chan.downEvu ∧ (15 : Pos) ∉ s.chan.downPtb)
      ∧ (∃ s : State, (s.port 16).upTimer = some 0 ∧ 16 ∉ s.chan.downEvu)
      ∧ (State.reset.port 16).lossTimer ≠ some 0 ∧ (State.reset.port 16).upTimer ≠ some 0 :=
  ⟨⟨port15 { PortRec.reset with up := true, lossTimer := some 0, inFlight := some ⟨7, 0x10, false⟩ }, by decide +kernel⟩,
   ⟨State.reset.setPort 16 { PortRec.reset with up := true, lossTimer := some 0 }, by decide +kernel⟩,
   ⟨port15 { PortRec.reset with upTimer := some 0 }, by decide +kernel⟩,
   ⟨State.reset.setPort 16 { PortRec.reset with upTimer := some 0 }, by decide +kernel⟩, by decide +kernel⟩

/-- A waiting reply on an UP and a DOWN port, an event queue of 32 in each mode, a test in each receiver state, and a begun frame. -/
theorem witness_TransmittersSendInOrder :
    (∀ up ∈ [true, false], ∃ s : State, (s.port 15).tx = none ∧ (s.port 15).reply = some (ask .hold [0]) ∧ (s.port 15).up = up)
      ∧ (∀ poll ∈ [true, false], ∃ s : State, (s.port 15).tx = none ∧ (s.port 15).reply = none ∧ (s.port 15).up = true
        ∧ (s.events 15).poll = poll ∧ (s.events 15).queue ≠ [] ∧ (s.events 15).queue.length = 32)
      ∧ (∀ rx ∈ [Rx.hunting, Rx.insync, ⟨.synced, some 0x96#8, []⟩], ∀ loop ∈ [[], [0x96#8, 0x69#8], [0x69#8], [0x12#8]], ∃ s : State,
        (s.port 15).tx = none ∧ (s.port 15).test = some ⟨[0], false⟩
        ∧ (s.port 15).mode = .localLoop ∧ (s.port 15).rx = rx ∧ (s.port 15).loop = loop)
      ∧ RxEvent.lost ∈ (Rx.insync.takeAll [0x12#8]).2
      ∧ (State.reset.port 15).tx = none
      ∧ ∀ m ∈ [PortMode.normal, .localLoop, .remoteEcho], ∃ s : State, (s.port 15).tx.isSome = true ∧ (s.port 15).mode = m :=
  ⟨fun up h => ⟨port15 { PortRec.reset with up := up, reply := some (ask .hold [0]) }, by revert up; decide +kernel⟩,
   fun poll h => ⟨(port15 { PortRec.reset with up := true }).setEvents 15
     { State.reset.events 15 with poll := poll, up := true, queue := List.replicate 32 .systemReset }, by
     revert poll; decide +kernel⟩,
   fun rx _ loop _ => ⟨port15 { PortRec.reset with mode := .localLoop, rx := rx, loop := loop, test := some ⟨[0], false⟩ }, by
     simp [port15]; decide⟩, by decide,
   by decide +kernel,
   fun m h => ⟨port15 { PortRec.reset with tx := some ⟨.reply, ask .hold [0]⟩, mode := m }, by revert m; decide +kernel⟩⟩

/-- STATUS_READ of another port, of no port and of the own one; PORT_MODE of the manager's port, of the mode it has and of another on an
UP and a DOWN port; TEST_FRAME of the greatest length on a port in and out of the mode. -/
theorem witness_StatusModesAndTests :
    (∀ b ∈ [(14 : Byte), 15], ∃ s f, State.Offers s 15 .statusRead f ∧ byteAt f.body 0 = b)
      ∧ (∀ b ∈ [(0 : Byte), 16, 17], ∃ s f, State.Offers s 16 .statusRead f ∧ byteAt f.body 0 = b)
      ∧ (∀ b ∈ [[(16 : Byte), 0], [17, 0], [15, 3]], ∃ s f, State.Offers s 16 .portMode f ∧ f.body = b)
      ∧ (∀ up ∈ [true, false], ∀ m ∈ [PortMode.normal, .localLoop, .remoteEcho], ∃ s f, State.Offers s 16 .portMode f
        ∧ numOf 17 (byteAt f.body 0) = some 15 ∧ portModeOf (byteAt f.body 1) = some .localLoop ∧ (s.port 15).mode = m
        ∧ (s.port 15).up = up)
      ∧ (∀ m ∈ [PortMode.normal, .localLoop], ∀ test ∈ [none, some (⟨[0], true⟩ : LoopTest)], ∃ s f, State.Offers s 16 .testFrame f
        ∧ numOf 17 (byteAt f.body 0) = some 15 ∧ (s.port 15).mode = m ∧ (s.port 15).test = test ∧ f.body.length = 60)
      ∧ (∃ s f, State.Offers s 16 .testFrame f ∧ numOf 17 (byteAt f.body 0) = none)
      ∧ posOf 15 = some 15 ∧ numOf 17 16 = some mgmt ∧ numOf 17 17 = none ∧ portModeOf 3 = none :=
  ⟨fun b h => ⟨asked State.reset 15 .statusRead [b], _, asked_offers rfl rfl, rfl⟩,
   fun b h => ⟨asked State.reset 16 .statusRead [b], _, asked_offers rfl rfl, rfl⟩,
   fun b h => ⟨asked State.reset 16 .portMode b, _, asked_offers rfl (by revert b; decide), rfl⟩,
   fun up h m h1 => ⟨asked (port15 { PortRec.reset with up := up, mode := m }) 16 .portMode [15, 1], _, asked_offers rfl rfl, by
     revert up m; decide +kernel⟩,
   fun m h test h1 => ⟨asked (port15 { PortRec.reset with mode := m, test := test }) 16 .testFrame (15 :: List.replicate 59 0), _,
     asked_offers rfl rfl, by revert m test; decide +kernel⟩,
   ⟨asked State.reset 16 .testFrame [17], _, asked_offers rfl rfl, by decide⟩, by decide⟩

/-- A record for an UP and a DOWN port, masked, full and with room; and each request of event delivery, by the port's own number, by a
strange one and from the manager. -/
theorem witness_EventsArePlacedAndRead :
    (∀ up ∈ [true, false], ∀ masked ∈ [true, false], ∀ len ∈ [27, 31, 32], ∃ (s : State) (g : Given),
        takeRecord .squ s.chan.given = some (g, []) ∧ g.port = 15 ∧ g.event.class = some .sequence ∧ (s.events 15).up = up
        ∧ (s.events 15).masked.look EventClass.sequence.index = masked ∧ (s.events 15).queue.length = len)
      ∧ (∀ k ∈ [(ReqKind.eventSetup, [(15 : Byte), 0x1F, 1]), (.eventSetup, [15, 0, 2]), (.eventSetup, [14, 0, 0]), (.fetchEvents, []), (.summary, []),
          (.portReset, [15]), (.portReset, [14])], ∃ s f, State.Offers s 15 k.1 f ∧ f.body = k.2)
      ∧ (∀ k ∈ [(ReqKind.eventSetup, [(16 : Byte), 0x1F, 1]), (.eventSetup, [17, 0, 0]), (.eventSetup, [15, 0, 2]),
          (.portReset, [16]), (.portReset, [17])], ∃ s f, State.Offers s 16 k.1 f ∧ f.body = k.2)
      ∧ (∀ up ∈ [true, false], ∀ len ∈ [27, 31, 32], ∃ s f, State.Offers s 16 .eventSetup f ∧ byteAt f.body 0 = 15
        ∧ (s.events 15).up = up ∧ (s.events 15).queue.length = len ∧ (s.events 15).masked = Table.fill true
        ∧ (s.events 15).marks = Table.fill true ∧ onOffOf (byteAt f.body 2) = some false) :=
  ⟨fun up h m h1 len h2 => ⟨(State.reset.setEvents 15 { State.reset.events 15 with
       up := up, masked := Table.fill m, queue := List.replicate len .systemReset }).setChan { State.reset.chan with
         given := [⟨.squ, 15, .seqDone 255 32⟩] }, ⟨.squ, 15, .seqDone 255 32⟩, by revert up m len; decide +kernel⟩,
   fun k h => ⟨asked State.reset 15 k.1 k.2, _, asked_offers (by revert k; decide) (by revert k; decide), rfl⟩,
   fun k h => ⟨asked State.reset 16 k.1 k.2, _, asked_offers (by revert k; decide) (by revert k; decide), rfl⟩,
   fun up h len h1 => ⟨asked (State.reset.setEvents 15 { State.reset.events 15 with
     up := up, masked := Table.fill true, marks := Table.fill true, queue := List.replicate len .systemReset }) 16 .eventSetup
       [15, 0, 0], _, asked_offers rfl rfl, by revert up len; decide +kernel⟩⟩

/-- The state with a soft reset that the owners have all taken, or none of them. -/
def resetting (done : Bool) : State :=
  { State.reset with lki := { State.reset.lki with softReset := some ⟨done, done, done, done, done, done⟩ } }

theorem witness_SoftResetGoesThroughItsPhases :
    (∀ k ∈ [ReqKind.resetArm, .resetExecute, .identify], ∀ armed ∈ [true, false], ∃ s f, State.Offers s 16 k f ∧ s.lki.armed = armed)
      ∧ (∃ r, (resetting false).lki.softReset = some r ∧ r.ptb = false ∧ r.lcu = false ∧ r.gfu = false ∧ r.cmx = false
        ∧ r.rtu = false ∧ r.squ = false)
      ∧ (∀ b ∈ [true, false], ∃ s : State, s.lki.softReset = some ⟨true, true, true, true, true, true⟩
        ∧ (s.line 63).resetIdle = true ∧ (s.line 63).state = .idle ∧ (s.line 63).qualified = b ∧ (s.line 63).cfg.kind = .automatic)
      ∧ (∀ k ∈ [LineKind.unused, .ringdown, .automatic, .hoot], ∀ st ∈ [LineState.outOfService, .held, .attached],
        ((at63 (ln k st)).line 63).cfg.kind = k ∧ ((at63 (ln k st)).line 63).state = st) :=
  ⟨fun k h a h1 => ⟨asked { State.reset with lki := { State.reset.lki with armed := a } } 16 k [], _,
     asked_offers (by revert k; decide) (by revert k; decide), rfl⟩,
   ⟨_, rfl, rfl, rfl, rfl, rfl, rfl, rfl⟩, 
   fun b h => ⟨(resetting true).setLine 63 { ln .automatic .idle with resetIdle := true, qualified := b }, by
     revert b; decide +kernel⟩, by decide +kernel⟩


/-- Each order of PTB and an owner in a soft reset, for a handset that is claimed and stands on a line, in a group and in a call. -/
theorem witness_SoftResetGoesThroughItsPhases_orders :
    (∀ first ∈ [true, false], ∃ r, (passed ⟨first, !first, !first, false, false, false⟩ State.reset).lki.softReset = some r
        ∧ r.ptb = first ∧ r.lcu = !first ∧ r.gfu = !first)
      ∧ (∀ c ∈ [Claim.line 63, .group 15, .call 7], ((at15 (holding c)).pos 15).claim.of .B = c)
      ∧ ((at63 { ln .automatic .outgoing with connected := [⟨15, .B, true⟩] }).line 63).connected = [⟨15, .B, true⟩]
      ∧ ((grp15 { grp .intercom with joined := [(15, .B)] }).group 15).joined = [(15, .B)]
      ∧ ((call7 (alerting 15) .free).call 7).handsets ≠ [] :=
  ⟨fun first _ => ⟨_, rfl, rfl, rfl, rfl⟩, by decide +kernel, by decide +kernel, by decide +kernel, by decide +kernel⟩

/-- A flag that is set and no reset in progress; a reset that one owner has yet to take; lines in INCOMING; and a floor with a holder and one
with open talkers. -/
theorem witness_SoftResetGoesThroughItsPhases_once :
    (∀ r, (resetting true).lki.softReset = some r → r.ptb = true ∧ r.lcu = true ∧ r.gfu = true ∧ r.cmx = true ∧ r.rtu = true ∧ r.squ = true)
      ∧ State.reset.lki.softReset = none
      ∧ (∃ s : State, s.lki.softReset = some ⟨true, true, true, true, true, false⟩
        ∧ s.lki.softReset ≠ some ⟨true, true, true, true, true, true⟩)
      ∧ (∀ k ∈ [LineKind.ringdown, .automatic], ((at63 (ln k .incoming)).line 63).cfg.kind = k
        ∧ ((at63 (ln k .incoming)).line 63).state = .incoming)
      ∧ ∀ f ∈ [passing 15 true .explicit 2, { Floor.empty with talkers := [⟨0, .vox⟩, ⟨15, .explicit⟩] }],
        ((grp15 (hoot15 f)).group 15).floor = f :=
  ⟨by decide +kernel, rfl, ⟨{ State.reset with lki := { State.reset.lki with softReset := some ⟨true, true, true, true, true, false⟩ } },
    rfl, by decide⟩, by decide +kernel, by decide +kernel⟩
/-! ## Witnesses: the headlines -/

/-- A frame of the greatest length, with bytes that must be stuffed, and a port that may take it. -/
theorem witness_FramesComeThroughTheLink :
    (∃ f : Frame, f.body.length = 60 ∧ 0xD3#8 ∈ f.body ∧ 0x96#8 ∈ f.body)
      ∧ ∃ s : State, (s.port 16).rx = Rx.insync ∧ (s.port 16).mode = .normal ∧ (s.port 16).up = true
        ∧ (s.port 16).queue.length = 3 :=
  ⟨⟨⟨0x96, 0xD3, List.replicate 30 0xD3 ++ List.replicate 30 0x96⟩, by decide⟩,
   ⟨State.reset.setPort 16 { PortRec.reset with
     rx := Rx.insync, up := true, queue := List.replicate 3 (ask .identify []) }, by decide +kernel⟩⟩

/-- The state after reset meets every invariant, and steps; a FIXED tap that is ENABLED, with a command in front that is no reset. -/
theorem witness_invariants :
    State.reset.PoolBalanced ∧ State.reset.CoverageKept ∧ State.reset.RequestsFit ∧ State.reset.EventsFit
      ∧ State.reset.DownIsEmpty ∧ State.reset.LinesSound ∧ State.reset.FloorsSound ∧ State.reset.HandsetsStandOnce
      ∧ State.reset.MicsEngagedOnce ∧ State.reset.SourcesOnce ∧ State.reset.CallsNameUp
      ∧ State.reset.UnusedGroupsIdle ∧ (call7 (alerting 15) .free).CallsNameUp ∧ (∃ t, step State.reset = .next t) := by
  refine ⟨⟨by decide +kernel, by decide +kernel⟩, by simp only [State.CoverageKept]; decide +kernel,
    by simp only [State.RequestsFit]; decide +kernel, by simp only [State.EventsFit]; decide +kernel,
    by simp only [State.DownIsEmpty]; decide +kernel, by simp only [State.LinesSound, LineRec.Sound]; decide +kernel,
    by simp only [State.FloorsSound, Floor.Sound]; decide +kernel,
    by simp only [State.HandsetsStandOnce]; decide +kernel, by simp only [State.MicsEngagedOnce]; decide +kernel,
    ⟨by decide +kernel, by simp [State.reset, State.poweredOn, Cmx.reset]⟩,
    by simp only [State.CallsNameUp]; decide +kernel, by simp only [State.UnusedGroupsIdle]; decide +kernel,
    by simp only [State.CallsNameUp]; decide +kernel, ⟨_, rfl⟩⟩

theorem witness_PoolAndTapsAreKept :
    ∃ s t, step s = .next t ∧ (s.tap 15).lock = .fixed ∧ (s.tap 15).enabled = true
      ∧ ∀ far present rest, s.pending ≠ .powerOnReset far present :: rest :=
  ⟨{ tap15 { covering [] true with lock := .fixed } with pending := [.tapUnlock 16] }, _, rfl, by decide +kernel,
   by decide +kernel, by simp⟩

/-! ## One step each: rows of the manual's worked examples -/

/-- The state that a step answers. -/
def after (o : Result) : State := match o with
  | .next t => t
  | _ => State.reset

/-- Section 1.14, event 5: the qualify expiry of a rise makes line 12 INCOMING with the answer timer at 30. -/
theorem test_qualified_rise :
    let s := State.reset.setLine 12 { rising .ringdown .idle with raw := true }
    ((after (exec (.qualifyExpiry 12) s)).line 12).state = .incoming
      ∧ ((after (exec (.qualifyExpiry 12) s)).line 12).stateTimer = some 30
      ∧ (after (exec (.qualifyExpiry 12) s)).chan.given = [⟨.lcu, 16, .farStatus 12 true⟩] := by decide +kernel

/-- Section 1.14, event 2: the raw value falls before the candidate has been qualified. -/
theorem test_glitch :
    let s := State.reset.setLine 12 { ln .ringdown .idle with raw := true, candidate := some true, qualifyTimer := some 4 }
    ((after (exec (.farSeizeChange 12 false) s)).line 12).candidate = some false
      ∧ ((after (exec (.farSeizeChange 12 false) s)).line 12).qualifyTimer = some 5 := by decide +kernel

/-- Section 2.13, event 4: the second dealer's take finds the line private. -/
theorem test_second_taker_finds_private :
    let s := told (seen63 { ln .ringdown .connected with privacy := true, connected := [⟨3, .A, false⟩] } ⟨.full, false⟩) .lcu take63
    (after (exec (.takeLineAtLcu 15 .B) s)).chan.fromLcu = [.outcome 15 .B .link (.inr .isPrivate)] := by decide +kernel

/-- Section 4.11, event 8: position 4 releases, position 8 is granted and the deferred position 1 waits; the Served Set empties. -/
theorem test_release_moves_the_deferred_up :
    let f : Floor := { Floor.empty with
      holder := some ⟨4, 2, false, false, .explicit⟩, wait := [⟨8, 1, false, .explicit⟩], deferred := [⟨1, 1, false, .explicit⟩]
      served := (Table.fill false).put 1 true }
    let s := asked (grp15 (hoot15 f)) 4 .floorRelease [15]
    let t := after (exec (.floorRelease (.port 4)) s)
    (t.group 15).floor = { Floor.empty with
        holder := some ⟨8, 1, false, false, .explicit⟩, wait := [⟨1, 1, false, .explicit⟩] }
      ∧ t.chan.given.take 2 = [⟨.gfu, 8, .floorGranted 15 1 false false⟩, ⟨.gfu, 1, .floorWait 15 1⟩]
      ∧ (t.port 4).reply = some ⟨7, 0x1C, [0]⟩ := by decide +kernel

/-- Section 9.8, events 1 and 2: the pair is found at bit position 3, and a noise hit sends the receiver back to HUNT. -/
theorem test_sync_and_noise :
    let s := after (exec (.syncFound 7 3) State.reset)
    (s.port 7).rx = Rx.insync ∧ (s.port 7).upTimer = some 8
      ∧ ((after (exec (.receiverHunt 7 [0x96, 0x12]) s)).port 7).rx = Rx.hunting
      ∧ ((after (exec (.receiverHunt 7 [0x96, 0x12]) s)).port 7).upTimer = none := by decide +kernel

/-- Section 9.8, event 5: the up timer expires. -/
theorem test_port_comes_up :
    let s := port15 { PortRec.reset with rx := Rx.insync, upTimer := some 0 }
    let t := after (exec (.linkUpTimerExpiry 15) s)
    (t.port 15).up = true ∧ (t.events 15).queue = [.linkUp 15] ∧ t.chan.given = [⟨.lki, 16, .positionUp 15⟩] := by
  decide +kernel

/-- Section 9.8, event 10: STATUS_READ shows the check error, and clears it. -/
theorem test_status_read :
    let s := asked (port15 { PortRec.reset with rx := Rx.insync, checkError := true }) 15 .statusRead [15]
    let t := after (exec (.statusRead 15) s)
    (t.port 15).reply = some ⟨7, 0x24, [0x00, 0x02, 0x01, 0x01, 0x00, 0x00]⟩ ∧ (t.port 15).checkError = false := by decide +kernel

/-- R56: GFU has taken two UPs of position 15 before the two down notices; the image is UP after each. -/
theorem test_two_kept_ups :
    let s := upAt15 (State.reset.setChan { State.reset.chan with ups := [15, 15], downGfu := [15, 15] })
    let t := after (exec (.standingUpNotice 15) (after (exec (.standingUpNotice 15) s)))
    let u := after (exec (.positionDownAtGfu 15) t)
    t.gfu.keptUp.look 15 = 2 ∧ u.gfu.up.look 15 = true
      ∧ (after (exec (.positionDownAtGfu 15) u)).gfu.up.look 15 = true := by decide +kernel

/-- R97: a voice caller that still stands on the line of the alert speaker is heard there once. -/
theorem test_caller_stands_once :
    let s := speaking ((at63 { ln .ringdown .connected with connected := [⟨0, .A, false⟩] }).setCall 7 (.alerting 0 .A 15 true none))
      (.line 63)
    s.derivedList 127 = [⟨112, 48, false⟩, ⟨111, 96, false⟩, ⟨0, 96, false⟩] := by decide +kernel

/-- R157: a raw SYNC_A ends the frame, idle fill goes on, and the next OPEN finds the receiver aligned. -/
theorem test_raw_sync_keeps_alignment :
    let s := after (exec (.frameError 15 [1, 2, 0x96]) (port15 { PortRec.reset with rx := Rx.opened, align := some 3 }))
    let t := after (exec (.frameOpen 15) s)
    (s.port 15).frameError = true ∧ (t.port 15).rx = Rx.opened ∧ (t.port 15).align = some 3 := by decide +kernel

/-- R163: the pair that a raw SYNC_A began is returned before the pairs that follow it, and the next OPEN as it comes. -/
theorem test_echo_keeps_order :
    let s := port15 { PortRec.reset with mode := .remoteEcho, rx := Rx.opened, align := some 3 }
    let t := after (exec (.frameError 15 [1, 0x96]) s)
    let u := after (step t)
    (t.port 15).linkOut = [1, 0x96] ∧ (u.port 15).linkOut = [0x69, 0x96, 0x69] ∧ (u.port 15).rx = Rx.insync
      ∧ ((after (exec (.frameOpen 15) u)).port 15).linkOut = [0xD3, 0x01] := by decide +kernel

/-- Port 15 in LOCAL_LOOP with a test frame sent whole and its OPEN taken. -/
def looped : State :=
  [Instr.testFrameSend 15, .frameSent 15, .frameOpen 15].foldl (fun s c => after (exec c s))
    (port15 { PortRec.reset with mode := .localLoop, rx := Rx.insync, test := some ⟨[1], false⟩ })

/-- The bytes of that test frame, from tag to check. -/
def sentBytes : List Byte := (testFrameOf 15 [1]).bytes

/-- R164: a test frame that comes back as it was sent is GOOD; one that comes back with a byte changed is a CHECK_ERROR, and its flag is
set; one that comes back with a raw sync byte, or with its CLOSE too early, is a FRAME_ERROR. -/
theorem test_loop_outcomes :
    let good := after (exec (.frameClose 15 (sentBytes.flatMap stuffByte)) looped)
    let changed := after (exec (.frameClose 15 ((sentBytes.set 3 0x7F).flatMap stuffByte)) looped)
    let raw := after (exec (.frameError 15 (sentBytes.take 3 ++ [0x96])) looped)
    let short := after (exec (.frameClose 15 (sentBytes.take 3)) looped)
    (good.chan.given = [⟨.lki, mgmt, .loopResult 15 .good⟩] ∧ (good.port 15).loop = fillPair ∧ (good.port 15).flagByte = 0)
      ∧ (changed.chan.given = [⟨.lki, mgmt, .loopResult 15 .checkError⟩] ∧ (changed.port 15).checkError = true)
      ∧ (raw.chan.given = [⟨.lki, mgmt, .loopResult 15 .frameError⟩] ∧ (raw.port 15).frameError = true)
      ∧ short.chan.given = [⟨.lki, mgmt, .loopResult 15 .frameError⟩] := by decide +kernel

/-- R164, R156: what is left of a broken test frame sends the receiver to HUNT; the next test waits, and goes once the pair is found. -/
theorem test_next_test_waits :
    let raw := after (exec (.frameError 15 (sentBytes.take 3 ++ [0x96])) looped)
    let s := raw.setPort 15 { raw.port 15 with test := some ⟨[2], false⟩ }
    let hunts := after (exec (.receiverHunt 15 [sentBytes.getD 4 0]) s)
    let found := after (exec (.syncFound 15 3) hunts)
    ((after (exec (.testFrameSend 15) s)).port 15).tx = none ∧ (hunts.port 15).rx = Rx.hunting
      ∧ ((after (exec (.testFrameSend 15) hunts)).port 15).tx = none
      ∧ (found.port 15).loop = [] ∧ ((after (exec (.testFrameSend 15) found)).port 15).loop = (testFrameOf 15 [2]).wire := by
  decide +kernel

/-- R95: a soft reset takes the holder off a floor and the talkers off another, and CMX is told of each group and position; R13: a line that
leaves INCOMING is reported too. -/
theorem test_soft_reset_tells_the_mixer :
    let s := { ((grp15 (hoot15 (held14 0 true true))).setGroup 3 (hoot15 { Floor.empty with talkers := [⟨0, .vox⟩, ⟨2, .explicit⟩] })) with
      lki := (resetting false).lki }
    (after (exec .softResetAtGfu s)).chan.notices = [.group 3, .position 0, .position 2, .group 15, .position 14]
      ∧ (after (exec .softResetAtGfu s)).chan.given = []
      ∧ (after (exec .softResetAtLcu { at63 (ln .ringdown .incoming) with lki := (resetting false).lki })).chan.notices = [.line 63] := by
  decide +kernel

/-- R151: two pauses of count 0 and the end behind them are taken in the step of the outcome before them. -/
theorem test_empty_pauses :
    let s := running (.waiting 255 0 false) 1 .pause .pause (some 254)
    let t := { s with squ := { s.squ with steps := s.squ.steps.put 254 { step255 .pause none with operands := ⟨0, 0, 0⟩ } } }
    (after (exec (.stepOutcome 15) t)).runOf 15 = ⟨.idle, 0⟩
      ∧ (after (exec (.stepOutcome 15) t)).chan.given = [⟨.squ, 15, .seqStep 255 .pause 1⟩, ⟨.squ, 15, .seqStep 254 .pause 2⟩,
        ⟨.squ, 15, .seqDone 0 2⟩] := by decide +kernel

/-- R166: the port of a request in flight goes DOWN and UP again; the reply is discarded. -/
theorem test_lost_reply :
    let s := port15 { PortRec.reset with up := true, lossTimer := some 0, inFlight := some ⟨7, 0x10, false⟩ }
    let t := after (exec (.linkLossTimerExpiry 15) s)
    let u := after (exec (.linkUpTimerExpiry 15) (t.setPort 15 { t.port 15 with upTimer := some 0 }))
    (u.port 15).up = true ∧ ((u.answer (.port 15) .accepted).port 15).reply = none
      ∧ ((u.answer (.port 15) .accepted).port 15).inFlight = none := by decide +kernel

/-- R56: a listen-on notice that comes after the group has become UNUSED leaves the group idle. -/
theorem test_unused_group_stays_idle :
    let t := after (exec .listenOn (lateListener .unused))
    t.chan.listening = [] ∧ (t.group 15).inUse = false
      ∧ ((after (exec .listenOn (lateListener .hoot))).group 15).listening.look 15 = true := by decide +kernel

/-- R74: a CALL_POSITION of a caller that GFU holds DOWN leaves every call record as it is. -/
theorem test_no_call_names_a_lost_caller :
    let t := after (exec (.callPositionAtGfu 15 .B) (told up0 .gfu (.call 15 .B .link 0 true)))
    t.gfu.calls = up0.gfu.calls ∧ t.chan.given = [] ∧ t.chan.fromGfu = [.outcome 15 .B .link (.inr .handsetBusy)] := by
  decide +kernel

/-- R74, R94: a lost floor holder that is listening receives no record, and the other listening position FLOOR_HOLDER. -/
theorem test_lost_holder_hears_nothing :
    let r := { hoot15 { Floor.empty with holder := some ⟨15, 0, false, false, .explicit⟩ } with
      listening := ((Table.fill false).put 0 true).put 15 true }
    (after (exec (.positionDownAtGfu 15) (notices15 (grp15 r)))).chan.given = [⟨.gfu, 0, .floorHolder 15 none⟩] := by
  decide +kernel

/-- R175: a take that LCU completes after PTB's soft reset and before its own is removed with no record, and its claim is cleared. -/
theorem test_reset_clears_a_take_between :
    let s := passed ⟨true, false, false, false, false, false⟩
      ((at63 { ln .ringdown .connected with connected := [⟨15, .B, false⟩] }).setPos 15 (holding (.line 63)))
    let t := after (exec .softResetAtLcu s)
    (t.line 63).connected = [] ∧ t.chan.given = [] ∧ t.chan.fromLcu = [.released 15 .B (.line 63)]
      ∧ ((after (exec (.releaseNotice .lcu 15 .B) t)).pos 15).claim = ⟨.none, .none⟩ := by decide +kernel

/-- R175: so is a call, and where GFU has taken its soft reset first PTB's clears a join at GFU too. -/
theorem test_reset_clears_a_call_and_a_join_between :
    let s := passed ⟨true, false, false, false, false, false⟩ (call7 (.active 15 .B 13 .A true) .free)
    let j := passed ⟨false, false, true, false, false, false⟩
      ((at15 (holding (.group 15))).setGroup 15 { grp .intercom with joined := [(13, .A), (15, .B)] })
    let t := after (exec .softResetAtPtb j)
    (after (exec .softResetAtGfu s)).chan.fromGfu = [.released 15 .B (.call 7), .released 13 .A (.call 7)]
      ∧ (t.pos 15).claim = ⟨.none, .none⟩ ∧ t.chan.toGfu = [.giveBack 15 .B (.group 15)]
      ∧ ((after (exec (.returnNotice .gfu 15 .B) t)).group 15).joined = [(13, .A)] := by decide +kernel

/-- R175: a grant that GFU gives before its own soft reset and after PTB's is refused NOT_MEMBER, one of LCU's BARRED, and the speaker
stays unassigned; one that GFU gives after both is taken. -/
theorem test_early_grants_are_refused :
    let q := fun r => after (exec (.speakerQuestion .gfu 15 5) (passed r (told (grp15 (grp .hoot)) .gfu (.speaker 15 5 (.group 15)))))
    let a := fun x early => after (exec (.assignmentAnswer .lcu 15)
      (heard (at15 (speaker6 true .none (some ⟨.run, false, false⟩))) .lcu (.answer 15 5 x none early)))
    (q ⟨true, false, false, false, false, false⟩).chan.fromGfu = [.answer 15 5 (.group 15) none true]
      ∧ (q ⟨true, false, true, false, false, false⟩).chan.fromGfu = [.answer 15 5 (.group 15) none false]
      ∧ ((a (.group 15) true).chan.outcomes.look 15, (a (.group 15) true).pos 15) = (some .notMember, speaker6 true .none none)
      ∧ ((a (.line 63) true).chan.outcomes.look 15, (a (.line 63) true).pos 15) = (some .barred, speaker6 true .none none)
      ∧ ((a (.line 63) false).chan.outcomes.look 15, (a (.line 63) false).pos 15) = (some .accepted, speaker6 true (.line 63) none) := by
  decide +kernel

/-- R51: a take that LCU completed before a down notice that PTB has taken already is undone at both; and a handset that LCU connected
after the notice that PTB takes only now leaves the line too. -/
theorem test_loss_leaves_nothing_connected :
    let s := (at63 { ln .ringdown .connected with connected := [⟨15, .B, false⟩] }).setPos 15 (holding (.line 63))
    let t := after (exec (.positionDownAtLcu 15) (s.setChan { s.chan with downLcu := [15] }))
    let u := after (exec (.positionDownAtPtb 15) (s.setChan { s.chan with downPtb := [15] }))
    t.chan.fromLcu = [.released 15 .B (.line 63)] ∧ u.chan.toLcu = [.giveBack 15 .B (.line 63)]
      ∧ ((after (exec (.returnNotice .lcu 15 .B) u)).line 63).connected = []
      ∧ (after (exec (.returnNotice .lcu 15 .B) u)).chan.fromLcu = [.released 15 .B (.line 63)] := by decide +kernel

/-- R141: a LINE tap's leg takes the list that holds a dealer who has joined once PTB has given the dealer's reply. -/
theorem test_reply_before_the_recorder :
    let s := joining [.outcome 15 .B .link (.inl (.line 63))]
    let t := after (exec .listInstall s)
    let u := after (exec .listInstall (after (exec (.finalClaim .lcu 15 .B) t)))
    (t.leg 207).list = [] ∧ t.cmx.inProgress.isSome = true ∧ (u.leg 207).list = [⟨micSource 15 .B, 128, false⟩] := by
  decide +kernel

end Sys2Proof.Tests
end

section
/-! The step of an idle part (R2): what a tick leaves of every record, and what stands in the queue after it. -/

namespace Sys2Proof.Machine

/-! ### One record after a tick -/

@[simp] theorem Timer.due_iff {t : Timer} : Timer.due t = true ↔ t = some 1 := by simp [Timer.due]

theorem Timer.nextIf_second (k : Nat) (t : Timer) :
    Timer.nextIf (k == 0) t = if k = 0 then t.map (· - 1) else t := by
  simp [Timer.nextIf, Timer.next]

@[simp] theorem LineRec.moves_iff {r : LineRec} {second : Bool} :
    r.moves second = true ↔ r.state = .connected ∨ r.state = .releasing ∨ second = true := by
  cases h : r.state <;> simp [LineRec.moves, LineState.inSeconds, h]

theorem LineRec.tick_eq (r : LineRec) (k : Nat) :
    r.tick (k == 0) = { r with
      qualifyTimer := r.qualifyTimer.map (· - 1)
      stateTimer :=
        if r.state = .connected ∨ r.state = .releasing ∨ k = 0 then r.stateTimer.map (· - 1) else r.stateTimer } := by
  simp [LineRec.tick, Timer.next, Timer.nextIf]

theorem GroupRec.tick_eq (r : GroupRec) (k : Nat) :
    r.tick (k == 0) = { r with floor := { r.floor with
      holdTimer := if k = 0 then r.floor.holdTimer.map (· - 1) else r.floor.holdTimer } } := by
  rw [GroupRec.tick, Timer.nextIf_second]

theorem CallRec.tick_alerting (p : Pos) (h : Handset) (q : Pos) (v : Bool) (x : Timer) (k : Nat) :
    (CallRec.alerting p h q v x).tick (k == 0) = .alerting p h q v (if k = 0 then x.map (· - 1) else x) := by
  rw [CallRec.tick, Timer.nextIf_second]

@[simp] theorem CallRec.due_iff {c : CallRec} : c.due = true ↔ ∃ p h q v, c = .alerting p h q v (some 1) := by
  cases c <;> simp [CallRec.due]

@[simp] theorem RunRec.due_iff {r : RunRec} : r.due = true ↔ ∃ k first done, r = ⟨.pausing k first (some 1), done⟩ := by
  obtain ⟨state, done⟩ := r
  cases state <;> simp [RunRec.due]

theorem Rx.inPair_iff {x : Rx} : x.inPair = true ↔ x.state = .synced ∧ x.held = some 0x96#8 := by
  simp [Rx.inPair, Config.syncA]

/-- In REMOTE_ECHO the link takes what comes in; in the other modes the transmitter's own fill (R155, R163). -/
theorem PortRec.fill_eq (r : PortRec) :
    r.fill =
      if r.mode ≠ .remoteEcho then if r.tx = none then [0x96#8, 0x69#8] else r.linkOut
      else if r.rx.inPair then [0x69#8, 0x96#8, 0x69#8]
      else if r.rx.state = .synced ∧ r.rx.held = none then [0x96#8, 0x69#8] else r.linkOut := by
  cases h : r.mode <;> simp [PortRec.fill, h, fillPair, Config.syncA, Config.syncB]

theorem PortRec.tick_eq (r : PortRec) :
    r.tick = { r with
      rx := if r.rx.inPair ∧ r.mode ≠ .localLoop then Rx.insync else r.rx
      lossTimer := r.lossTimer.map (· - 1), upTimer := r.upTimer.map (· - 1)
      linkOut :=
        if r.mode ≠ .remoteEcho then if r.tx = none then [0x96#8, 0x69#8] else r.linkOut
        else if r.rx.inPair then [0x69#8, 0x96#8, 0x69#8]
        else if r.rx.state = .synced ∧ r.rx.held = none then [0x96#8, 0x69#8] else r.linkOut } := by
  rw [PortRec.tick, PortRec.fill_eq]
  simp only [Timer.next, and_comm]

/-! ### The state after a tick -/

theorem step_of_idle {s : State} (h : s.pending = []) : step s = .next s.tick := by simp [step, h]

theorem State.tick_ticks (s : State) : s.tick.ticks = (s.ticks + 1) % 125 := rfl

theorem State.tick_port (s : State) (n : Port) : s.tick.port n = (s.port n).tick := Table.look_build _ n
theorem State.tick_line (s : State) (l : Line) : s.tick.line l = (s.line l).tick (s.tick.ticks == 0) := Table.look_build _ l
theorem State.tick_group (s : State) (g : Grp) : s.tick.group g = (s.group g).tick (s.tick.ticks == 0) := Table.look_build _ g
theorem State.tick_call (s : State) (c : CallNo) : s.tick.call c = (s.call c).tick (s.tick.ticks == 0) := Table.look_build _ c
theorem State.tick_runOf (s : State) (p : Pos) : s.tick.runOf p = (s.runOf p).tick := Table.look_build _ p

theorem State.tick_pending {s : State} (h : s.pending = []) : s.tick.pending = s.expiries (s.tick.ticks == 0) := by
  simp [State.tick, h]

/-! ### The expiries of a tick -/

/-- The expiry of a state timer that has run out, by the state of the line (R9). -/
theorem stateExpiry_eq_iff {st : LineState} {l : Line} {i : Instr} :
    stateExpiry st l = i ↔
      (st = .connected ∧ i = .ringOutExpiry l) ∨ (st = .held ∧ i = .holdRecallExpiry l)
        ∨ (st = .releasing ∧ i = .guardExpiry l)
        ∨ (st ≠ .connected ∧ st ≠ .held ∧ st ≠ .releasing ∧ i = .answerExpiry l) := by
  cases st <;> simp [stateExpiry, eq_comm (b := i)]

theorem stateExpiry_injective {st st' : LineState} {l l' : Line} (h : stateExpiry st l = stateExpiry st' l') : l = l' := by
  obtain ⟨-, e⟩ | ⟨-, e⟩ | ⟨-, e⟩ | ⟨-, -, -, e⟩ := stateExpiry_eq_iff.mp h <;>
    simp_all [stateExpiry_eq_iff]

theorem stateExpiry_ne_other (st : LineState) (l : Line) :
    (∀ n, .linkLossTimerExpiry n ≠ stateExpiry st l) ∧ (∀ n, .linkUpTimerExpiry n ≠ stateExpiry st l)
      ∧ (∀ k, stateExpiry st l ≠ .qualifyExpiry k) ∧ (∀ g, stateExpiry st l ≠ .holdTimerExpiry g)
      ∧ (∀ c, stateExpiry st l ≠ .callAlertExpiry c) ∧ ∀ p, stateExpiry st l ≠ .pauseExpiry p := by
  cases st <;> simp [stateExpiry]

theorem mem_map_filter_finRange {n : Nat} {α : Type} {q : Fin n → Bool} {f : Fin n → α} {a : α} :
    a ∈ ((List.finRange n).filter q).map f ↔ ∃ k, a = f k ∧ q k = true := by
  simp [and_comm, eq_comm (a := a)]

theorem nodup_map_filter_finRange {n : Nat} {α : Type} {q : Fin n → Bool} {f : Fin n → α}
    (hf : ∀ j k, f j = f k → j = k) : (((List.finRange n).filter q).map f).Nodup :=
  ((List.nodup_finRange n).filter q).map hf

theorem disjoint_map_filter_finRange {m n : Nat} {α : Type} {q : Fin m → Bool} {r : Fin n → Bool} {f : Fin m → α}
    {g : Fin n → α} (h : ∀ j k, f j ≠ g k) :
    (((List.finRange m).filter q).map f).Disjoint (((List.finRange n).filter r).map g) := by
  simp only [List.disjoint_left, mem_map_filter_finRange]
  rintro _ ⟨j, rfl, -⟩ ⟨k, hk, -⟩
  exact h j k hk

/-- The expiry that a line's state timer puts in the queue, at the ticks that the timer counts in the line's state (R9). -/
theorem LineRec.stateExpiry_due_iff {r : LineRec} {l : Line} {i : Instr} {k : Nat} :
    (i = stateExpiry r.state l ∧ r.moves (k == 0) = true ∧ r.stateTimer = some 1) ↔
      (i = .ringOutExpiry l ∧ r.state = .connected ∧ r.stateTimer = some 1)
      ∨ (i = .guardExpiry l ∧ r.state = .releasing ∧ r.stateTimer = some 1)
      ∨ (i = .holdRecallExpiry l ∧ r.state = .held ∧ r.stateTimer = some 1 ∧ k = 0)
      ∨ (i = .answerExpiry l ∧ r.state ≠ .connected ∧ r.state ≠ .held ∧ r.state ≠ .releasing
          ∧ r.stateTimer = some 1 ∧ k = 0) := by
  cases h : r.state <;> simp [stateExpiry, h, and_comm]

/-- What the queue of an idle part holds after a tick, timer by timer. -/
theorem State.mem_tick_pending {s : State} (h : s.pending = []) {i : Instr} :
    i ∈ s.tick.pending ↔
      (∃ n, i = .linkLossTimerExpiry n ∧ (s.port n).lossTimer = some 1)
      ∨ (∃ n, i = .linkUpTimerExpiry n ∧ (s.port n).upTimer = some 1)
      ∨ (∃ l, (i = .ringOutExpiry l ∧ (s.line l).state = .connected ∧ (s.line l).stateTimer = some 1)
          ∨ (i = .guardExpiry l ∧ (s.line l).state = .releasing ∧ (s.line l).stateTimer = some 1)
          ∨ (i = .holdRecallExpiry l ∧ (s.line l).state = .held ∧ (s.line l).stateTimer = some 1 ∧ s.tick.ticks = 0)
          ∨ (i = .answerExpiry l ∧ (s.line l).state ≠ .connected ∧ (s.line l).state ≠ .held
              ∧ (s.line l).state ≠ .releasing ∧ (s.line l).stateTimer = some 1 ∧ s.tick.ticks = 0))
      ∨ (∃ l, i = .qualifyExpiry l ∧ (s.line l).qualifyTimer = some 1)
      ∨ (∃ g, i = .holdTimerExpiry g ∧ s.tick.ticks = 0 ∧ (s.group g).floor.holdTimer = some 1)
      ∨ (∃ c, i = .callAlertExpiry c ∧ s.tick.ticks = 0 ∧ ∃ p h q v, s.call c = .alerting p h q v (some 1))
      ∨ (∃ p, i = .pauseExpiry p ∧ ∃ k first done, s.runOf p = ⟨.pausing k first (some 1), done⟩) := by
  simp only [← LineRec.stateExpiry_due_iff]
  simp only [State.tick_pending h, State.expiries, List.mem_append, mem_map_filter_finRange, or_assoc, Bool.and_eq_true,
    Timer.due_iff, CallRec.due_iff, RunRec.due_iff, beq_iff_eq]

/-- No two timers have the same expiry: those of one kind differ by their number, those of two kinds by their command. -/
theorem State.expiries_nodup (s : State) (second : Bool) : (s.expiries second).Nodup := by
  have hl (q : Line → Bool) : (((List.finRange 64).filter q).map fun l => stateExpiry (s.line l).state l).Nodup :=
    nodup_map_filter_finRange fun _ _ => stateExpiry_injective
  simp [State.expiries, List.nodup_append', nodup_map_filter_finRange, disjoint_map_filter_finRange,
    stateExpiry_ne_other, hl]

/-! ### The idle step -/

/-- Settles O3: the idle step is `State.tick`, read record by record and expiry by expiry. -/
theorem idleStepIsATick : Obligations.IdleStepIsATick := by
  intro s hs
  refine ⟨s.tick, step_of_idle hs, s.tick_ticks, rfl, rfl, rfl, rfl, rfl, rfl, rfl, rfl, rfl,
    ?ports, fun l => (s.tick_line l).trans (LineRec.tick_eq _ _), fun g => (s.tick_group g).trans (GroupRec.tick_eq _ _),
    ?calls, ?runs, ?_, ?_, ?_, ?_, ?_, ?_, ?_, ?_, ?_, ?_, ?nodup, ?only⟩
  case ports =>
    rintro n r begun rfl hb
    obtain rfl : begun = (s.port n).rx.inPair := Bool.eq_iff_iff.mpr (hb.trans Rx.inPair_iff.symm)
    rw [State.tick_port]
    exact PortRec.tick_eq _
  case calls =>
    intro c
    rw [State.tick_call]
    cases s.call c with
    | alerting => exact CallRec.tick_alerting ..
    | free | active => rfl
  case runs =>
    intro p
    rw [State.tick_runOf]
    obtain ⟨state, done⟩ := s.runOf p
    cases state <;> rfl
  case nodup =>
    rw [State.tick_pending hs]
    exact s.expiries_nodup _
  case only =>
    intro i hi
    obtain ⟨n, rfl, -⟩ | ⟨n, rfl, -⟩ | ⟨l, ⟨rfl, -⟩ | ⟨rfl, -⟩ | ⟨rfl, -⟩ | ⟨rfl, -⟩⟩ | ⟨l, rfl, -⟩ | ⟨g, rfl, -⟩
      | ⟨c, rfl, -⟩ | ⟨p, rfl, -⟩ := (State.mem_tick_pending hs).mp hi <;> simp
  all_goals intro k; simp [State.mem_tick_pending hs, and_comm]

end Sys2Proof.Machine
end

section
/-! What LCU's functions on one line record do (chapter 1), said once: the state changes field by field, an event with its
LINE_STATE and LINE notice, the end of the guard, and the handsets that leave. -/

namespace Sys2Proof.Machine

/-! ### The states a line goes to -/

theorem toIdle_eq (r : LineRec) : toIdle r = { r with
    state := .idle, nearSeize := false, ringOut := false, stateTimer := none, direction := none, privacy := false,
    connected := [], owner := none } := rfl

theorem toIncoming_eq (r : LineRec) : toIncoming r = { r with
    state := .incoming, nearSeize := false, ringOut := false
    stateTimer := if r.cfg.kind = .ringdown then some r.cfg.answerCount.val else none } := rfl

theorem toReleasing_eq (r : LineRec) : toReleasing r = { r with
    state := .releasing, nearSeize := true, ringOut := false, stateTimer := some r.cfg.guardCount.val, connected := [],
    owner := none } := rfl

theorem toOutOfService_eq (r : LineRec) : toOutOfService r = { r with
    state := .outOfService, hoot := none, nearSeize := false, ringOut := false, stateTimer := none, direction := none,
    privacy := false, connected := [], owner := none } := rfl

/-- The guard ends into INCOMING where the far end still seizes, else into IDLE (R16, R20). -/
theorem guardEnd_eq (r : LineRec) : guardEnd r = { r with
    state := if r.qualified then .incoming else .idle, nearSeize := false, ringOut := false, direction := none,
    privacy := false, connected := [], owner := none
    stateTimer := if r.qualified = true ∧ r.cfg.kind = .ringdown then some r.cfg.answerCount.val else none } := by
  cases h : r.qualified <;> simp [guardEnd, toIncoming_eq, toIdle_eq, h]

theorem guardEnd_state_ne_releasing (r : LineRec) : (guardEnd r).state ≠ .releasing := by
  cases h : r.qualified <;> simp [guardEnd_eq, h]

/-- Where the last handsets of an OUTGOING or CONNECTED line leave, it goes to RELEASING (R14, R18, R19). -/
theorem dropConns_of_last {r : LineRec} {gone : Conn → Bool} (hne : r.connected ≠ []) (hall : ∀ c ∈ r.connected, gone c = true)
    (hst : r.state = .outgoing ∨ r.state = .connected) : dropConns r gone = toReleasing r := by
  have hk : r.connected.filter (fun c => !gone c) = [] := by simpa using hall
  simp [dropConns, hk, hne, hst]

/-- Where handsets stay, or the line was in another state, the list alone moves (R11). -/
theorem dropConns_of_not_last {r : LineRec} {gone : Conn → Bool}
    (h : ¬(r.connected.filter (fun c => !gone c) = [] ∧ r.connected ≠ [] ∧ (r.state = .outgoing ∨ r.state = .connected))) :
    dropConns r gone = { r with connected := r.connected.filter fun c => !gone c } := by
  simp only [dropConns, if_neg h]

/-! ### One event of a line (R25) -/

@[simp] theorem lineEvent_line (l : Line) (row : Table 16 Appearance) (old : LineRec) (fx : LineFx) (why : StateReason) :
    (lineEvent l row old fx why).line = fx.line := rfl

/-- An event that changes the state of a line, or how many handsets it has, gives LINE_STATE and a LINE notice. -/
theorem lineEvent_of_moved {l : Line} {row : Table 16 Appearance} {old new : LineRec} {o : Sends} {why : StateReason}
    (h : old.state ≠ new.state ∨ old.connected.length ≠ new.connected.length) :
    lineEvent l row old ⟨new, o⟩ why =
      ⟨new, o.and { given := lineStates l row new why, notices := [.line l] }⟩ := by
  have hs : stateShown old new = true := by
    rcases h with h | h <;> simp [stateShown, h]
  have hm : mixTouched old new = true := by
    rcases h with h | h
    · simp [mixTouched, h]
    · simp [mixTouched, show old.connected ≠ new.connected from fun e => h (congrArg _ e)]
  simp [lineEvent, hs, hm, Sends.and, records, notice, lineStates]

/-- An event that changes nothing that is shown or mixed gives no LINE_STATE and no notice. -/
theorem lineEvent_of_unmoved {l : Line} {row : Table 16 Appearance} {old new : LineRec} {o : Sends} {why : StateReason}
    (hs : old.state = new.state) (hc : old.connected = new.connected) (hp : old.privacy = new.privacy)
    (hd : old.direction = new.direction) : lineEvent l row old ⟨new, o⟩ why = ⟨new, o⟩ := by
  simp [lineEvent, stateShown, mixTouched, hs, hc, hp, hd]

/-! ### The guard of a line that has entered RELEASING (R9) -/

/-- The guard runs unless its count is 0. -/
theorem settleGuard_of_running {l : Line} {row : Table 16 Appearance} {old : LineRec} {fx : LineFx}
    (h : fx.line.state = .releasing → fx.line.stateTimer = some 0 → old.state = .releasing) :
    settleGuard l row old fx = fx := by
  rw [settleGuard, if_neg]
  rintro ⟨h1, h2, h3⟩
  exact h1 (h h2 h3)

/-- A guard count of 0 ends the guard at once, which is one more event of the line (R9). -/
theorem settleGuard_of_zero {l : Line} {row : Table 16 Appearance} {old new : LineRec} {o : Sends}
    (ho : old.state ≠ .releasing) (hn : new.state = .releasing) (ht : new.stateTimer = some 0) :
    settleGuard l row old ⟨new, o⟩ =
      ⟨guardEnd new, o.and { given := lineStates l row (guardEnd new) .none, notices := [.line l] }⟩ := by
  rw [settleGuard, if_pos ⟨ho, hn, ht⟩, lineEvent_of_moved]
  exact .inl (hn ▸ (guardEnd_state_ne_releasing new).symm)

/-- The line a settled guard leaves. -/
theorem settleGuard_line (l : Line) (row : Table 16 Appearance) (old : LineRec) (fx : LineFx) :
    (settleGuard l row old fx).line = fx.line
      ∨ fx.line.state = .releasing ∧ (settleGuard l row old fx).line = guardEnd fx.line := by
  unfold settleGuard
  split
  · next h => exact .inr ⟨h.2.1, rfl⟩
  · exact .inl rfl

end Sys2Proof.Machine
end

section
/-! Lines that lose handsets at most. Every change that LCU makes to a line, but the completion of a take, keeps the line
sound (R3, R4, R6) and brings no handset onto it. -/

namespace Sys2Proof.Machine

/-- A line record after a change that brings no handset onto the line, and that keeps it sound. -/
structure LineRec.Frees (r x : LineRec) : Prop where
  sound : r.Sound → x.Sound
  fewer : x.connected.Sublist r.connected

namespace LineRec.Frees

theorem refl (r : LineRec) : r.Frees r := ⟨id, .refl _⟩

theorem trans {r x y : LineRec} (h : r.Frees x) (k : x.Frees y) : r.Frees y :=
  ⟨k.sound ∘ h.sound, k.fewer.trans h.fewer⟩

/-- A change of other fields than those that soundness reads. -/
theorem of_same {r x : LineRec} (hs : x.state = r.state) (hc : x.connected = r.connected) (hn : x.nearSeize = r.nearSeize)
    (hr : x.ringOut = r.ringOut) (hg : x.cfg = r.cfg) : r.Frees x :=
  ⟨by simp [LineRec.Sound, hs, hc, hn, hr, hg], hc ▸ .refl _⟩

/-- A line left with no handsets and the same configuration is sound if its near seize and ring out are (R6). -/
theorem of_empty {r x : LineRec} (hc : x.connected = []) (hg : x.cfg = r.cfg)
    (hn : x.nearSeize = true ↔ x.state = .outgoing ∨ x.state = .connected ∨ x.state = .held ∨ x.state = .releasing)
    (hr : x.ringOut = true → x.state = .connected) : r.Frees x := by
  refine ⟨fun h => ?_, hc ▸ List.nil_sublist _⟩
  obtain ⟨-, -, h1, h4, -⟩ := h
  exact ⟨fun h => absurd hc h, by simp [hc], hg ▸ h1, hg ▸ h4, hn, hr⟩

end LineRec.Frees

open LineRec (Frees)

theorem LineRec.Sound.connected_nil {r : LineRec} (h : r.Sound) (h1 : r.state ≠ .outgoing) (h2 : r.state ≠ .connected) :
    r.connected = [] := by
  by_contra hc
  rcases h.1 hc with h | h
  · exact h1 h
  · exact h2 h

/-! ### Transitions -/

theorem toIdle_frees (r : LineRec) : r.Frees (toIdle r) := .of_empty rfl rfl (by simp [toIdle]) (by simp [toIdle])

theorem toOutOfService_frees (r : LineRec) : r.Frees (toOutOfService r) :=
  .of_empty rfl rfl (by simp [toOutOfService, toIdle]) (by simp [toOutOfService, toIdle])

theorem toReleasing_frees (r : LineRec) : r.Frees (toReleasing r) :=
  .of_empty rfl rfl (by simp [toReleasing]) (by simp [toReleasing])

theorem guardEnd_frees (r : LineRec) : r.Frees (guardEnd r) := by
  rw [guardEnd_eq]
  cases h : r.qualified <;> exact .of_empty rfl rfl (by simp) (by simp)

/-- A line in a state without handsets goes to INCOMING. -/
theorem toIncoming_frees {r : LineRec} (h1 : r.state ≠ .outgoing) (h2 : r.state ≠ .connected) : r.Frees (toIncoming r) := by
  refine ⟨fun h => ?_, .refl _⟩
  exact (Frees.of_empty (r := r) (x := toIncoming r) (h.connected_nil h1 h2) rfl (by simp [toIncoming]) (by simp [toIncoming])).sound h

theorem dropConns_frees (r : LineRec) (gone : Conn → Bool) : r.Frees (dropConns r gone) := by
  by_cases hlast : r.connected.filter (fun c => !gone c) = [] ∧ r.connected ≠ [] ∧ (r.state = .outgoing ∨ r.state = .connected)
  · obtain ⟨hk, hne, hst⟩ := hlast
    rw [dropConns_of_last hne (by simpa using hk) hst]
    exact toReleasing_frees r
  · rw [dropConns_of_not_last hlast]
    refine ⟨fun ⟨hs, hl, h1, h4, hn, hr⟩ => ⟨fun hk => hs fun e => hk (by simp [e]), ?_, h1, h4, hn, hr⟩, List.filter_sublist⟩
    exact (List.length_filter_le _ _).trans hl

theorem settleGuard_frees {r : LineRec} (l : Line) (row : Table 16 Appearance) (old : LineRec) {fx : LineFx}
    (h : r.Frees fx.line) : r.Frees (settleGuard l row old fx).line := by
  rcases settleGuard_line l row old fx with e | ⟨-, e⟩ <;> rw [e]
  · exact h
  · exact h.trans (guardEnd_frees _)

theorem leaveEvent_frees (l : Line) (row : Table 16 Appearance) (r : LineRec) (gone : Conn → Bool) (send : Conn → Sends) :
    r.Frees (leaveEvent l row r gone send).line := settleGuard_frees _ _ _ (dropConns_frees r gone)

theorem clearCall_frees (l : Line) (row : Table 16 Appearance) (r : LineRec) (why : ReleaseReason) :
    r.Frees (clearCall l row r why).line := settleGuard_frees _ _ _ (toReleasing_frees r)

/-! ### The far end and the timers -/

theorem qualifiedRise_frees (l : Line) (row : Table 16 Appearance) (r : LineRec) : r.Frees (qualifiedRise l row r).line := by
  unfold qualifiedRise
  split
  · split
    · next h => exact toIncoming_frees (by simp [h]) (by simp [h])
    all_goals exact .of_same rfl rfl rfl rfl rfl
  · split
    · next h => exact toIncoming_frees (by simp [h]) (by simp [h])
    · next h =>
      refine ⟨fun ⟨_, hl, h1, h4, hn, hr⟩ => ⟨fun _ => .inr rfl, hl, h1, h4, ?_, fun _ => rfl⟩, .refl _⟩
      simpa [h] using hn
    · exact .refl r
  · exact .refl r

theorem qualifiedFall_frees (l : Line) (row : Table 16 Appearance) (r : LineRec) : r.Frees (qualifiedFall l row r).line := by
  unfold qualifiedFall
  split
  · split
    · exact toIdle_frees r
    · exact clearCall_frees l row r _
    · exact settleGuard_frees _ _ _ (toReleasing_frees r)
    · exact .refl r
  · exact .refl r

theorem qualifyEnd_frees (l : Line) (row : Table 16 Appearance) (r : LineRec) : r.Frees (qualifyEnd l row r).line := by
  unfold qualifyEnd
  split
  · exact .of_same rfl rfl rfl rfl rfl
  · next v _ =>
    split
    · exact .of_same rfl rfl rfl rfl rfl
    · have h : r.Frees { r with candidate := none, qualifyTimer := none, qualified := v } := .of_same rfl rfl rfl rfl rfl
      cases v
      · exact h.trans (qualifiedFall_frees ..)
      · exact h.trans (qualifiedRise_frees ..)

theorem answerEnd_frees (l : Line) (row : Table 16 Appearance) (r : LineRec) : r.Frees (answerEnd l row r).line := by
  unfold answerEnd
  split
  · exact toIdle_frees r
  · exact clearCall_frees l row r _
  · exact .refl r

theorem recallEnd_frees (l : Line) (row : Table 16 Appearance) (r : LineRec) : r.Frees (recallEnd l row r).line :=
  .of_same rfl rfl rfl rfl rfl

theorem ringEnd_frees (l : Line) (r : LineRec) : r.Frees (ringEnd l r).line :=
  ⟨fun ⟨hs, hl, h1, h4, hn, _⟩ => ⟨hs, hl, h1, h4, hn, by simp [ringEnd]⟩, .refl _⟩

theorem ringLine_frees (l : Line) {r : LineRec} (h : r.state = .connected) : r.Frees (ringLine l r).line := by
  unfold ringLine
  split <;> exact ⟨fun ⟨hs, hl, h1, h4, hn, _⟩ => ⟨hs, hl, h1, h4, hn, fun _ => h⟩, .refl _⟩

/-! ### Hold, configuration, service and reset -/

/-- HOLD empties the connected list of a line that is not OUTGOING (R44); that it was CONNECTED is its soundness. -/
theorem holdLine_frees (l : Line) (row : Table 16 Appearance) {r : LineRec} (c d : Conn) (hc : d ∈ r.connected)
    (ho : r.state ≠ .outgoing) : r.Frees (holdLine l row r c).line := by
  refine ⟨fun h => ?_, List.nil_sublist _⟩
  have hs : r.state = .connected := (h.1 (List.ne_nil_of_mem hc)).resolve_left ho
  obtain ⟨-, -, h1, h4, hn, -⟩ := h
  exact ⟨fun h => absurd rfl h, by simp [holdLine], h1, h4, by simpa [holdLine, hs] using hn, by simp [holdLine]⟩

theorem configLine_line (l : Line) (row : Table 16 Appearance) (r : LineRec) (cfg : LineConfig) :
    (configLine l row r cfg).line =
      if r.state = .idle ∧ cfg.kind = .unused then toOutOfService { r with cfg := cfg }
      else if r.state = .idle ∧ r.cfg.kind ≠ cfg.kind ∧ cfg.kind ≠ .hoot ∧ r.qualified = true then
        toIncoming { r with cfg := cfg }
      else { r with cfg := cfg } := by
  simp only [configLine, apply_ite LineFx.line, lineEvent_line, ite_self, decide_eq_true_eq]

/-- A carried configuration is clamped (R4, R5). -/
theorem lineConfigOf_clamped {body : List Byte} {cfg : LineConfig} (h : lineConfigOf body = some cfg) :
    1 ≤ cfg.bridgeLimit ∧ cfg.bridgeLimit ≤ 4 ∧ cfg.qualifyCount ≠ 0 ∧ cfg.answerCount ≠ 0 := by
  have hb (b : Byte) : 1 ≤ clampBridge b ∧ clampBridge b ≤ 4 := by
    unfold clampBridge
    split
    · omega
    · next h =>
      have : b.toNat ≠ 0 := fun e => h (BitVec.eq_of_toNat_eq e)
      split <;> omega
  have ha (x : Level) : atLeastOne x ≠ 0 := by
    unfold atLeastOne
    split
    · decide
    · assumption
  unfold lineConfigOf at h
  split at h
  · obtain rfl := Option.some.inj h
    exact ⟨(hb _).1, (hb _).2, ha _, ha _⟩
  · simp at h

theorem configLine_frees (l : Line) (row : Table 16 Appearance) {r : LineRec} {cfg : LineConfig}
    (hst : r.state = .idle ∨ r.state = .outOfService) (h1 : 1 ≤ cfg.bridgeLimit) (h4 : cfg.bridgeLimit ≤ 4) :
    r.Frees (configLine l row r cfg).line := by
  have ho : r.state ≠ .outgoing ∧ r.state ≠ .connected := by rcases hst with h | h <;> simp [h]
  have hcfg : r.Frees { r with cfg := cfg } :=
    ⟨fun h => ⟨h.1, by simp [h.connected_nil ho.1 ho.2], h1, h4, h.2.2.2.2⟩, .refl _⟩
  rw [configLine_line]
  split
  · exact hcfg.trans (toOutOfService_frees _)
  · split
    · exact hcfg.trans (toIncoming_frees ho.1 ho.2)
    · exact hcfg

theorem readFarSeize_frees (l : Line) (row : Table 16 Appearance) (r : LineRec) : r.Frees (readFarSeize l row r).line := by
  unfold readFarSeize
  split
  · exact qualifiedRise_frees l row r
  · exact .refl r

theorem serviceIn_frees (l : Line) (row : Table 16 Appearance) (r : LineRec) : r.Frees (serviceIn l row r).line :=
  (toIdle_frees r).trans (readFarSeize_frees l row _)

theorem softLine_frees (l : Line) (r : LineRec) (tellPtb : Bool) : r.Frees (softLine l r tellPtb).line := by
  unfold softLine
  split
  · exact (toIdle_frees r).trans (.of_same rfl rfl rfl rfl rfl)
  · exact .refl r

theorem lcuCompletes_frees (l : Line) (row : Table 16 Appearance) (r : LineRec) : r.Frees (lcuCompletes l row r).line := by
  unfold lcuCompletes
  split
  · have h : r.Frees { r with resetIdle := false } := .of_same rfl rfl rfl rfl rfl
    exact h.trans (readFarSeize_frees l row _)
  · exact .refl r

/-- The hold ownership of a position cleared. -/
theorem LineRec.Frees.of_owner (r : LineRec) (p : Pos) : r.Frees (if r.owner = some p then { r with owner := none } else r) := by
  split
  · exact .of_same rfl rfl rfl rfl rfl
  · exact .refl r

theorem lineLosesPosition_frees (l : Line) (row : Table 16 Appearance) (r : LineRec) (p : Pos) (tellPtb : Bool) :
    r.Frees (lineLosesPosition l row r p tellPtb).line := (Frees.of_owner r p).trans (leaveEvent_frees ..)

theorem lineLosesFull_frees (l : Line) (row : Table 16 Appearance) (r : LineRec) (p : Pos) :
    r.Frees (lineLosesFull l row r p).line := (Frees.of_owner r p).trans (leaveEvent_frees ..)

theorem LineRec.tick_frees (r : LineRec) (second : Bool) : r.Frees (r.tick second) := .of_same rfl rfl rfl rfl rfl

theorem LineRec.reset_frees (r : LineRec) (far : Bool) : r.Frees (LineRec.reset far) :=
  ⟨fun _ => ⟨by simp [LineRec.reset], by simp [LineRec.reset], by simp [LineRec.reset, LineConfig.reset],
    by simp [LineRec.reset, LineConfig.reset], by simp [LineRec.reset], by simp [LineRec.reset]⟩, List.nil_sublist _⟩

/-! ### A take that completes -/

/-- A take that has passed its checks finds a line with room, in a state that a take can complete in (R38, R39). -/
theorem takeCheck_none {r : LineRec} {a : Appearance} {p : Pos} (h : takeCheck r a p = none) :
    r.state = .idle ∨ r.state = .incoming ∨ r.state = .held ∨ r.state = .releasing
      ∨ r.state = .connected ∧ r.connected.length < r.cfg.bridgeLimit := by
  have hs : stateCheck r p = none := by
    unfold takeCheck at h
    repeat' split at h
    all_goals simp_all
  unfold stateCheck at hs
  split at hs
  case h_4 e =>
    repeat' split at hs
    all_goals simp_all
  all_goals simp_all

/-- The line takes the handset at the end of its list (R10). -/
theorem takenLine_connected (r : LineRec) (c : Conn) : (takenLine r c).1.connected = r.connected ++ [c] := by
  simp only [takenLine]
  split
  case h_4 => split <;> rfl
  all_goals rfl

/-- A take keeps a line sound that has passed its checks. -/
theorem takenLine_sound {r : LineRec} {a : Appearance} {p : Pos} (c : Conn) (h : takeCheck r a p = none) (hs : r.Sound) :
    (takenLine r c).1.Sound := by
  have hroom : (r.connected ++ [c]).length ≤ r.cfg.bridgeLimit := by
    have h1 : 1 ≤ r.cfg.bridgeLimit := hs.2.2.1
    rcases takeCheck_none h with e | e | e | e | ⟨-, e⟩
    case inr.inr.inr.inr => simpa using e
    all_goals simpa [hs.connected_nil (by simp [e]) (by simp [e])] using h1
  obtain ⟨-, -, h1, h4, -, hr⟩ := hs
  have hro : r.state ≠ .connected → r.ringOut = false := fun e => by simpa [e] using hr
  have build (x : LineRec) (hc : x.connected = r.connected ++ [c]) (hg : x.cfg = r.cfg) (hn : x.nearSeize = true)
      (hst : x.state = .outgoing ∨ x.state = .connected) (hx : x.state = .outgoing → x.ringOut = false) : x.Sound := by
    refine ⟨fun _ => hst, by rw [hc, hg]; exact hroom, hg ▸ h1, hg ▸ h4, ?_, fun e => ?_⟩
    · simp only [hn, true_iff]
      rcases hst with e | e <;> simp [e]
    · rcases hst with e' | e'
      · simp [hx e'] at e
      · exact e'
  rcases takeCheck_none h with e | e | e | e | ⟨e, -⟩ <;> simp only [takenLine, e]
  · by_cases hk : r.cfg.kind = .automatic <;> exact build _ rfl rfl rfl (by simp [hk]) (by simp [hk, hro, e])
  · exact build _ rfl rfl rfl (.inr rfl) (by simp)
  · exact build _ rfl rfl rfl (.inr rfl) (by simp)
  · split
    · exact build _ rfl rfl rfl (.inr rfl) (by simp)
    · by_cases hk : r.cfg.kind = .automatic <;> exact build _ rfl rfl rfl (by simp [hk]) (by simp [hk, hro, e])
  · exact build _ rfl rfl rfl (.inr rfl) (by simp)

end Sys2Proof.Machine
end

section
/-! What the blocks other than LCU and GFU do leaves the records of those two as they were. -/

namespace Sys2Proof.Machine

/-- The records of the two owners of handsets. -/
def State.owners (s : State) : Lcu × Gfu := (s.lcu, s.gfu)

theorem State.owners_eq {s t : State} (hl : t.lcu = s.lcu) (hg : t.gfu = s.gfu) : t.owners = s.owners := by
  simp [State.owners, hl, hg]

/-! ### The shared operations -/

@[simp] theorem State.emit_owners (s : State) (o : Sends) : (s.emit o).owners = s.owners := rfl
@[simp] theorem State.setChan_owners (s : State) (c : Chan) : (s.setChan c).owners = s.owners := rfl
@[simp] theorem State.setPort_owners (s : State) (n : Port) (r : PortRec) : (s.setPort n r).owners = s.owners := rfl
@[simp] theorem State.setPos_owners (s : State) (p : Pos) (r : PosRec) : (s.setPos p r).owners = s.owners := rfl
@[simp] theorem State.setTap_owners (s : State) (r : TapNo) (t : TapRec) : (s.setTap r t).owners = s.owners := rfl
@[simp] theorem State.setRun_owners (s : State) (p : Pos) (r : RunRec) : (s.setRun p r).owners = s.owners := rfl
@[simp] theorem State.setEvents_owners (s : State) (n : Port) (e : EventPort) : (s.setEvents n e).owners = s.owners := rfl
@[simp] theorem State.setLeg_owners (s : State) (k : Leg) (r : LegRec) : (s.setLeg k r).owners = s.owners := rfl
@[simp] theorem State.takeFrame_owners (s : State) (n : Port) (f : Frame) : (s.takeFrame n f).owners = s.owners := rfl
@[simp] theorem State.setReset_owners (s : State) (r : Option ResetProgress) : (s.setReset r).owners = s.owners := rfl
@[simp] theorem State.freeClaim_owners (s : State) (p : Pos) (h : Handset) : (s.freeClaim p h).owners = s.owners := rfl

@[simp] theorem State.answer_owners (s : State) (r : Requester) (c : Code) (b : List Byte) :
    (s.answer r c b).owners = s.owners := State.owners_eq (by simp) (by simp)
@[simp] theorem State.reply_owners (s : State) (p : Pos) (v : Via) (c : Code) : (s.reply p v c).owners = s.owners :=
  State.answer_owners ..
@[simp] theorem State.setToOwner_owners (s : State) (o : Owner) (l : List ToOwner) : (s.setToOwner o l).owners = s.owners :=
  State.owners_eq (by simp) (by simp)
@[simp] theorem State.setFromOwner_owners (s : State) (o : Owner) (l : List ToPtb) : (s.setFromOwner o l).owners = s.owners :=
  State.owners_eq (by simp) (by simp)
@[simp] theorem State.forward_owners (s : State) (o : Owner) (m : ToOwner) : (s.forward o m).owners = s.owners :=
  State.setToOwner_owners ..
@[simp] theorem State.freeClaimOf_owners (s : State) (p : Pos) (h : Handset) (c : Claim) :
    (s.freeClaimOf p h c).owners = s.owners := State.owners_eq (by simp) (by simp)
@[simp] theorem State.claimFor_owners (s : State) (p : Pos) (h : Handset) (v : Via) (o : Owner) (m : ToOwner) :
    (s.claimFor p h v o m).owners = s.owners := State.owners_eq (by simp) (by simp)

theorem State.nextForHandset_owners {s t : State} {o : Owner} {p : Pos} {h : Handset} {m : ToOwner}
    (e : s.nextForHandset o p h = some (m, t)) : t.owners = s.owners := by
  obtain ⟨-, _, _, -, rfl, -⟩ := State.nextForHandset_some e
  exact State.setToOwner_owners ..
theorem State.nextForSpeaker_owners {s t : State} {o : Owner} {p : Pos} {k : Spk} {m : ToOwner}
    (e : s.nextForSpeaker o p k = some (m, t)) : t.owners = s.owners := by
  obtain ⟨-, _, _, -, rfl, -⟩ := State.nextForSpeaker_some e
  exact State.setToOwner_owners ..
theorem State.heardOfHandset_owners {s t : State} {o : Owner} {p : Pos} {h : Handset} {m : ToPtb}
    (e : s.heardOfHandset o p h = some (m, t)) : t.owners = s.owners := by
  obtain ⟨-, _, _, -, rfl, -⟩ := State.heardOfHandset_some e
  exact State.setFromOwner_owners ..
theorem State.heardOfSpeakers_owners {s t : State} {o : Owner} {p : Pos} {m : ToPtb}
    (e : s.heardOfSpeakers o p = some (m, t)) : t.owners = s.owners := by
  obtain ⟨-, _, _, -, rfl, -⟩ := State.heardOfSpeakers_some e
  exact State.setFromOwner_owners ..

theorem State.dispatch_owners {k : ReqKind} {n : Port} {own : List Byte → State → State}
    (h : ∀ b t, (own b t).owners = t.owners) (s : State) : (s.dispatch k n own).owners = s.owners :=
  State.dispatchIf_keeps State.owners (fun _ _ _ => rfl) State.answer_owners h s

theorem State.request_owners {k : ReqKind} {r : Requester} {own : Pos → Via → List Byte → State → State}
    (h : ∀ p v b t, (own p v b t).owners = t.owners) (s : State) : (s.request k r own).owners = s.owners :=
  State.request_keeps State.owners (fun _ _ _ => rfl) State.answer_owners (fun _ _ => rfl) h s

theorem State.portRequest_owners {n : Port} {b : Byte} {own : Port → State → State}
    (h : ∀ m t, (own m t).owners = t.owners) (s : State) : (s.portRequest n b own).owners = s.owners := by
  unfold State.portRequest
  repeat' split
  all_goals simp [h]

theorem State.tapRequest_owners {k : ReqKind} {n : Port} {own : TapNo → List Byte → State → State}
    (h : ∀ r b t, (own r b t).owners = t.owners) (s : State) : (s.tapRequest k n own).owners = s.owners := by
  refine State.dispatch_owners (fun b t => ?_) s
  split
  · simp
  · exact h _ _ _

theorem foldl_owners {α : Type} {f : State → α → State} (h : ∀ u a, (f u a).owners = u.owners) (l : List α) (s : State) :
    (l.foldl f s).owners = s.owners := by
  induction l generalizing s with
  | nil => rfl
  | cons a l ih => exact (ih _).trans (h s a)

/-! ### PTB -/

theorem State.ptbTake_owners (s : State) (p : Pos) (v : Via) (b : List Byte) : (s.ptbTake p v b).owners = s.owners := by
  unfold State.ptbTake
  split <;> simp

theorem State.ptbJoin_owners (s : State) (p : Pos) (v : Via) (b : List Byte) : (s.ptbJoin p v b).owners = s.owners := by
  unfold State.ptbJoin
  split <;> simp

theorem State.ptbCall_owners (s : State) (p : Pos) (v : Via) (b : List Byte) : (s.ptbCall p v b).owners = s.owners := by
  unfold State.ptbCall
  split <;> simp

theorem State.ptbAnswer_owners (s : State) (p : Pos) (v : Via) (b : List Byte) : (s.ptbAnswer p v b).owners = s.owners := by
  unfold State.ptbAnswer
  split <;> simp

theorem State.takeOutcome_owners (s : State) (o : Owner) (p : Pos) (h : Handset) (v : Via) (x : Claim ⊕ Code) :
    (s.takeOutcome o p h v x).owners = s.owners := by
  cases x
  · simp only [State.takeOutcome]
    split <;> simp
  · simp [State.takeOutcome]

theorem State.ptbRelease_owners (s : State) (p : Pos) (v : Via) (b : List Byte) : (s.ptbRelease p v b).owners = s.owners := by
  unfold State.ptbRelease
  repeat' split
  all_goals simp

theorem State.ptbHold_owners (s : State) (p : Pos) (v : Via) (b : List Byte) : (s.ptbHold p v b).owners = s.owners := by
  unfold State.ptbHold
  repeat' split
  all_goals simp

theorem State.ptbMute_owners (s : State) (p : Pos) (v : Via) (b : List Byte) : (s.ptbMute p v b).owners = s.owners := by
  simp only [State.ptbMute]
  repeat' split
  all_goals simp

@[simp] theorem State.setAsking_owners (s : State) (p : Pos) (k : Spk) (m : Option Asking) :
    (s.setAsking p k m).owners = s.owners := rfl
@[simp] theorem State.assignTo_owners (s : State) (p : Pos) (k : Spk) (t : Target) : (s.assignTo p k t).owners = s.owners := rfl
@[simp] theorem State.setAssign_owners (s : State) (p : Pos) (a : Table 6 Target) : (s.setAssign p a).owners = s.owners := rfl
@[simp] theorem State.askSpeaker_owners (s : State) (p : Pos) (v : Via) (k : Spk) (o : Owner) (t : Target) :
    (s.askSpeaker p v k o t).owners = s.owners := State.forward_owners ..

theorem State.ptbAssign_owners (s : State) (p : Pos) (v : Via) (b : List Byte) : (s.ptbAssign p v b).owners = s.owners := by
  unfold State.ptbAssign
  repeat' split
  all_goals simp

theorem State.takeAnswer_owners (s : State) (p : Pos) (k : Spk) (t : Target) (x : Option Code) (early : Bool) :
    (s.takeAnswer p k t x early).owners = s.owners := by
  cases h : (s.pos p).asking.look k with
  | none => simp [State.takeAnswer, h]
  | some m =>
    obtain ⟨c, e, -⟩ | ⟨-, -, -, -, -, e⟩ := State.takeAnswer_cases s h t x early <;> rw [e] <;> simp

theorem State.offTarget_owners (s : State) (p : Pos) (t : Target) : (s.offTarget p t).owners = s.owners := by
  simp only [State.offTarget]
  split <;> simp

theorem State.setVolume_owners (s : State) (r : Requester) (p : Option Pos) (b : List Byte) :
    (s.setVolume r p b).owners = s.owners := by
  unfold State.setVolume
  split <;> simp

@[simp] theorem State.ptbDown_owners (s : State) (p : Pos) : (s.ptbDown p).owners = s.owners := rfl
@[simp] theorem State.ptbReset_owners (s : State) : s.ptbReset.owners = s.owners := rfl

/-! ### EVU and LKI -/

@[simp] theorem State.evuDown_owners (s : State) (n : Port) : (s.evuDown n).owners = s.owners := by
  unfold State.evuDown
  split <;> simp

@[simp] theorem State.portDown_owners (s : State) (n : Port) : (s.portDown n).owners = s.owners := by
  simp only [State.portDown]
  split <;> rfl

@[simp] theorem State.ptbCatchUp_owners (s : State) (p : Pos) : (s.ptbCatchUp p).owners = s.owners := by
  unfold State.ptbCatchUp
  split <;> simp

@[simp] theorem State.portUp_owners (s : State) (n : Port) : (s.portUp n).owners = s.owners := by
  simp only [State.portUp, State.ptbUp]
  split <;> simp

@[simp] theorem State.changeMode_owners (s : State) (n : Port) (m : PortMode) : (s.changeMode n m).owners = s.owners := by
  simp only [State.changeMode]
  split <;> simp

theorem State.endTest_owners (s : State) (n : Port) (o : LoopOutcome) : (s.endTest n o).owners = s.owners := by
  unfold State.endTest
  repeat' split
  all_goals simp

theorem State.rxEvent_owners (s : State) (n : Port) (e : RxEvent) : (s.rxEvent n e).owners = s.owners := by
  cases e <;> simp [State.rxEvent, State.endTest_owners]

theorem State.takeLoop_owners (s : State) (n : Port) (bytes : List Byte) (named : RxEvent → Bool) :
    (s.takeLoop n bytes named).owners = s.owners := by
  simp only [State.takeLoop]
  split
  · split
    · split
      · exact foldl_owners (fun u a => State.rxEvent_owners u n a) _ _
      · rfl
    · rfl
  · rfl

theorem State.takeOpen_owners (s : State) (n : Port) : (s.takeOpen n).owners = s.owners := by
  unfold State.takeOpen
  split <;> simp

theorem State.hear_owners (s : State) (n : Port) (due : RxState) (bytes : List Byte) (named : RxEvent → Bool) :
    (s.hear n due bytes named).owners = s.owners := by
  simp only [State.hear]
  repeat' split
  · exact State.takeLoop_owners ..
  · exact foldl_owners (fun u a => State.rxEvent_owners u n a) _ _
  · rfl

/-! ### SQU and RTU -/

@[simp] theorem State.endRun_owners (s : State) (p : Pos) (e : Event) : (s.endRun p e).owners = s.owners := rfl
@[simp] theorem State.submit_owners (s : State) (p : Pos) (q : Submission) : (s.submit p q).owners = s.owners := rfl

@[simp] theorem State.seqStep_owners (s : State) (p : Pos) (k : StepNo) (done : Nat) : (s.seqStep p k done).owners = s.owners := by
  unfold State.seqStep
  split <;> simp

theorem State.beginStep_owners (s : State) (p : Pos) (k first : StepNo) (done fuel : Nat) :
    (s.beginStep p k first done fuel).owners = s.owners := by
  induction fuel generalizing s k done with
  | zero => rfl
  | succ n ih =>
    simp only [State.beginStep]
    repeat' split
    all_goals simp [ih]

@[simp] theorem State.begin_owners (s : State) (p : Pos) (k first : StepNo) (done : Nat) :
    (s.begin p k first done).owners = s.owners := State.beginStep_owners ..

@[simp] theorem State.goOn_owners (s : State) (p : Pos) (k first : StepNo) (done : Nat) :
    (s.goOn p k first done).owners = s.owners := by
  unfold State.goOn
  split <;> simp

theorem State.stepOutcome_owners (s : State) (p : Pos) (k first : StepNo) (abort : Bool) (done : Nat) (c : Code) :
    (s.stepOutcome p k first abort done c).owners = s.owners := by
  simp only [State.stepOutcome]
  repeat' split
  all_goals simp

theorem State.abortRun_owners (s : State) (p : Pos) (v : Via) : (s.abortRun p v).owners = s.owners := by
  unfold State.abortRun
  split <;> simp

@[simp] theorem State.moveFaults_owners (s : State) (r : TapNo) (cs : List Cover) (on quiet : Bool) :
    (s.moveFaults r cs on quiet).owners = s.owners := by
  have h (l : List Cover) : (l.foldl (fun u c => u.setFault c.pos c.hs on) s).owners = s.owners :=
    foldl_owners (fun u c => show (u.setFault c.pos c.hs on).owners = u.owners from rfl) l s
  simp only [State.moveFaults]
  repeat' split
  all_goals simp [h]

theorem State.reserve_owners (s : State) (p : Pos) (h : Handset) (l : Line) (d : Direction) :
    (s.reserve p h l d).owners = s.owners := by
  simp only [State.reserve, State.answerLcu]
  repeat' split
  all_goals simp

theorem State.releaseCover_owners (s : State) (c : Cover) (ofReset : Bool) : (s.releaseCover c ofReset).owners = s.owners := by
  unfold State.releaseCover
  split <;> simp

theorem State.recorderChange_owners (s : State) (r : TapNo) (present : Bool) : (s.recorderChange r present).owners = s.owners := by
  simp only [State.recorderChange]
  split <;> simp

theorem State.tapSet_owners (s : State) (n : Port) (r : TapNo) (b : List Byte) : (s.tapSet n r b).owners = s.owners := by
  unfold State.tapSet
  repeat' split
  all_goals simp

/-! ### CMX -/

theorem State.install_owners (s : State) (d : Derivation) : (s.install d).owners = s.owners := by
  simp only [State.install]
  repeat' split
  all_goals rfl

end Sys2Proof.Machine
end

section
/-! States that lose handsets at most: every command but those that complete a take, a join or a call takes the state to one
in which no line has become unsound and no handset stands where it did not stand before. -/

namespace Sys2Proof.Machine

/-- A state after a change that brings no handset onto a line, into a group or into a call, and keeps every line sound. -/
structure State.Frees (s t : State) : Prop where
  lines : ∀ l, (s.line l).Frees (t.line l)
  joined : ∀ g, (t.group g).joined.Sublist (s.group g).joined
  calls : ∀ c, (t.call c).handsets.Sublist (s.call c).handsets

namespace State.Frees

theorem refl (s : State) : s.Frees s := ⟨fun _ => .refl _, fun _ => .refl _, fun _ => .refl _⟩

theorem trans {s t u : State} (h : s.Frees t) (k : t.Frees u) : s.Frees u :=
  ⟨fun l => (h.lines l).trans (k.lines l), fun g => (k.joined g).trans (h.joined g), fun c => (k.calls c).trans (h.calls c)⟩

theorem of_owners {s t : State} (h : t.owners = s.owners) : s.Frees t := by
  obtain ⟨hl, hg⟩ : t.lcu = s.lcu ∧ t.gfu = s.gfu := by simpa [State.owners] using h
  refine ⟨fun l => ?_, fun g => ?_, fun c => ?_⟩
  · rw [State.line, State.line, hl]
    exact .refl _
  · rw [State.group, State.group, hg]
  · rw [State.call, State.call, hg]

/-- A change that leaves GFU alone. -/
theorem of_lines {s t : State} (h : ∀ l, (s.line l).Frees (t.line l)) (hg : t.gfu = s.gfu) : s.Frees t := by
  refine ⟨h, fun g => ?_, fun c => ?_⟩
  · rw [State.group, State.group, hg]
  · rw [State.call, State.call, hg]

/-- What comes after and leaves both owners alone makes no difference. -/
theorem then_owners {s t u : State} (h : s.Frees t) (e : u.owners = t.owners) : s.Frees u := h.trans (of_owners e)

theorem emit {s t : State} (h : s.Frees t) (o : Sends) : s.Frees (t.emit o) := h.then_owners rfl
theorem setChan {s t : State} (h : s.Frees t) (c : Chan) : s.Frees (t.setChan c) := h.then_owners rfl
theorem answer {s t : State} (h : s.Frees t) (r : Requester) (c : Code) (b : List Byte) : s.Frees (t.answer r c b) :=
  h.then_owners (State.answer_owners ..)
theorem reply {s t : State} (h : s.Frees t) (p : Pos) (v : Via) (c : Code) : s.Frees (t.reply p v c) :=
  h.then_owners (State.reply_owners ..)
theorem freeClaimOf {s t : State} (h : s.Frees t) (p : Pos) (k : Handset) (c : Claim) : s.Frees (t.freeClaimOf p k c) :=
  h.then_owners (State.freeClaimOf_owners ..)

theorem foldl {α : Type} {f : State → α → State} (h : ∀ (u : State) a, u.Frees (f u a)) (l : List α) (s : State) :
    s.Frees (l.foldl f s) := by
  induction l generalizing s with
  | nil => exact .refl s
  | cons a l ih => exact (h s a).trans (ih _)

theorem dispatchIf {k : ReqKind} {n : Port} {ok : List Byte → Bool} {own : List Byte → State → State}
    (h : ∀ b (t : State), t.Frees (own b t)) (s : State) : s.Frees (s.dispatchIf k n ok own) :=
  State.dispatchIf_preserves (s.Frees ·) (fun _ _ _ ht => ht.then_owners rfl)
    (fun _ _ _ _ ht => ht.then_owners (State.answer_owners ..)) (fun b t ht => ht.trans (h b t)) s (.refl s)

theorem dispatch {k : ReqKind} {n : Port} {own : List Byte → State → State} (h : ∀ b (t : State), t.Frees (own b t)) (s : State) :
    s.Frees (s.dispatch k n own) := dispatchIf h s

theorem request {k : ReqKind} {r : Requester} {own : Pos → Via → List Byte → State → State}
    (h : ∀ p v b (t : State), t.Frees (own p v b t)) (s : State) : s.Frees (s.request k r own) :=
  State.request_preserves (s.Frees ·) (fun _ _ _ ht => ht.then_owners rfl)
    (fun _ _ _ _ ht => ht.then_owners (State.answer_owners ..)) (fun _ _ ht => ht.then_owners rfl)
    (fun p v b t ht => ht.trans (h p v b t)) s (.refl s)

theorem setLine {s : State} {l : Line} {r : LineRec} (h : (s.line l).Frees r) : s.Frees (s.setLine l r) := by
  refine of_lines (fun k => ?_) rfl
  rw [State.setLine_line]
  split
  · next e => exact e ▸ h
  · exact .refl _

theorem applyLine {s : State} {l : Line} {fx : LineFx} (h : (s.line l).Frees fx.line) : s.Frees (s.applyLine l fx) :=
  (setLine h).then_owners rfl

theorem setGroup {s : State} {g : Grp} {r : GroupRec} (h : r.joined.Sublist (s.group g).joined) : s.Frees (s.setGroup g r) := by
  refine ⟨fun _ => .refl _, fun k => ?_, fun _ => .refl _⟩
  rw [State.setGroup_group]
  split
  · next e => exact e ▸ h
  · exact .refl _

theorem setCall {s : State} {c : CallNo} {r : CallRec} (h : r.handsets.Sublist (s.call c).handsets) : s.Frees (s.setCall c r) := by
  refine ⟨fun _ => .refl _, fun _ => .refl _, fun k => ?_⟩
  rw [State.setCall_call]
  split
  · next e => exact e ▸ h
  · exact .refl _

end State.Frees

open State (Frees)

/-! ### What LCU does -/

theorem State.dropGrant_frees (s : State) (w : Waiting) (granted ofReset : Bool) : s.Frees (s.dropGrant w granted ofReset) := by
  unfold State.dropGrant
  split
  · exact .of_owners rfl
  · exact .refl s

theorem State.askCoverage_frees (s : State) (p : Pos) (h : Handset) (v : Via) (l : Line) : s.Frees (s.askCoverage p h v l) :=
  .of_lines (fun _ => .refl _) rfl

theorem State.lcuHold_frees (s : State) (p : Pos) (h : Handset) (v : Via) (l : Line) : s.Frees (s.lcuHold p h v l) := by
  unfold State.lcuHold
  split
  · exact (Frees.refl s).reply ..
  · next c hc =>
    split
    · exact (Frees.refl s).reply ..
    · split
      · exact (Frees.refl s).reply ..
      · next ho =>
        exact ((Frees.applyLine (holdLine_frees l _ c c (List.mem_of_find?_eq_some hc) ho)).freeClaimOf ..).reply ..

theorem State.setPrivacy_frees (s : State) (p : Pos) (v : Via) (b : List Byte) : s.Frees (s.setPrivacy p v b) := by
  unfold State.setPrivacy
  split
  · repeat' split
    case isFalse.isFalse.isFalse =>
      refine Frees.reply (.applyLine ?_) ..
      exact .of_same rfl rfl rfl rfl rfl
    all_goals exact (Frees.refl s).reply ..
  · exact (Frees.refl s).reply ..

theorem State.signalLine_frees (s : State) (p : Pos) (v : Via) (b : List Byte) : s.Frees (s.signalLine p v b) := by
  unfold State.signalLine
  split
  · exact (Frees.refl s).reply ..
  · iterate 3
      split
      · exact (Frees.refl s).reply ..
    split
    · next h => exact (Frees.applyLine (ringLine_frees _ h.1)).reply ..
    · exact (Frees.refl s).reply ..

theorem State.lineConfig_frees (s : State) (n : Port) (b : List Byte) : s.Frees (s.lineConfig n b) := by
  unfold State.lineConfig
  split
  · next l cfg _ hcfg =>
    obtain ⟨h1, h4, -, -⟩ := lineConfigOf_clamped hcfg
    split
    · next hst => exact (Frees.applyLine (configLine_frees l _ hst h1 h4)).answer ..
    · exact (Frees.refl s).answer ..
  · exact (Frees.refl s).answer ..

theorem State.lineOut_frees (s : State) (l : Line) : s.Frees (s.lineOut l) := by
  simp only [State.lineOut]
  split
  · exact .refl s
  · split
    · exact .applyLine (toOutOfService_frees _)
    · exact Frees.setChan (.applyLine (toOutOfService_frees _)) _

theorem State.lineIn_frees (s : State) (n : Port) (l : Line) : s.Frees (s.lineIn n l) := by
  unfold State.lineIn
  repeat' split
  case isFalse.isFalse => exact (Frees.applyLine (serviceIn_frees ..)).answer ..
  all_goals exact (Frees.refl s).answer ..

theorem State.changeApp_frees (s : State) (l : Line) (p : Pos) (m : AppMode) : s.Frees (s.changeApp l p m) := by
  simp only [State.changeApp]
  split
  · exact .refl s
  · have ht : s.Frees ((s.setAppMode l p m).emit ((notice (.line l)).and (notice (.position p)))) :=
      .of_lines (fun _ => .refl _) rfl
    have hu (t : State) : t.Frees (t.applyLine l (lineLosesFull l (t.row l) (t.line l) p)) := .applyLine (lineLosesFull_frees ..)
    have hu' (q : Prop) [Decidable q] (t : State) :
        t.Frees (if q then t.applyLine l (lineLosesFull l (t.row l) (t.line l) p) else t) := by
      split
      · exact hu t
      · exact .refl t
    split
    · exact (ht.trans (hu' ..)).emit _
    · exact ht.trans (hu' ..)

theorem State.setBars_frees (s : State) (q : Line → Pos → Bool) (on : Bool) : s.Frees (s.setBars q on) := by
  simp only [State.setBars]
  split <;> exact .of_lines (fun _ => .refl _) rfl

theorem State.lcuDown_frees (s : State) (p : Pos) : s.Frees (s.lcuDown p) := by
  refine .of_lines (fun l => ?_) rfl
  have e : (s.lcuDown p).line l = (lineLosesPosition l (s.row l) (s.line l) p (s.lossTakenAtPtb p)).line := by
    simp [State.lcuDown, State.endWaiting, State.emit, State.line]
  exact e ▸ lineLosesPosition_frees ..

theorem State.lcuReset_frees (s : State) : s.Frees s.lcuReset := by
  refine .of_lines (fun l => ?_) rfl
  have e : s.lcuReset.line l = (softLine l (s.line l) (s.behindPtb .lcu)).line := by
    simp [State.lcuReset, State.endWaiting, State.emit, State.line]
  exact e ▸ softLine_frees ..

theorem State.lcuComplete_frees (s : State) : s.Frees s.lcuComplete :=
  Frees.foldl (fun u l => Frees.applyLine (lcuCompletes_frees l (u.row l) (u.line l))) _ _

theorem State.lineDetach_frees (s : State) (l : Line) (g : Grp) : s.Frees (s.lineDetach l g) := by
  unfold State.lineDetach
  split
  · next h =>
    refine .applyLine ⟨fun ⟨hs, hl, h1, h4, hn, hr⟩ => ?_, .refl _⟩
    exact ⟨fun hc => by simpa [h.1] using hs hc, hl, h1, h4, by simpa [h.1] using hn, by simpa [h.1] using hr⟩
  · exact .refl s

/-! ### What GFU does -/

theorem State.leaveGroup_frees (s : State) (g : Grp) (p : Pos) : s.Frees (s.leaveGroup g p) :=
  (Frees.setGroup List.filter_sublist).then_owners rfl

theorem State.actFloorFor_frees (s : State) (g : Grp) (hearers : PosSet) (act : FloorAct → FloorAct) :
    s.Frees (s.actFloorFor g hearers act) := by
  refine Frees.emit (.setGroup ?_) _
  exact .refl _

theorem State.actFloor_frees (s : State) (g : Grp) (act : FloorAct → FloorAct) : s.Frees (s.actFloor g act) :=
  s.actFloorFor_frees ..

theorem State.takeFloor_frees (s : State) (p : Pos) (g : Grp) (latched : Bool) (o : Origin) : s.Frees (s.takeFloor p g latched o) :=
  s.actFloor_frees ..

theorem State.floorRequest_frees (s : State) (p : Pos) (v : Via) (b : List Byte) : s.Frees (s.floorRequest p v b) := by
  unfold State.floorRequest
  split
  · split
    · exact (Frees.refl s).reply ..
    · exact (s.takeFloor_frees ..).reply ..
  · exact (Frees.refl s).reply ..

theorem State.floorRelease_frees (s : State) (p : Pos) (v : Via) (b : List Byte) : s.Frees (s.floorRelease p v b) := by
  simp only [State.floorRelease]
  split
  · exact (Frees.refl s).reply ..
  · split
    · exact (Frees.refl s).reply ..
    · split
      · exact (s.actFloor_frees ..).reply ..
      · exact (Frees.refl s).reply ..

theorem State.voxActive_frees (s : State) (p : Pos) : s.Frees (s.voxActive p) := by
  unfold State.voxActive
  repeat' split
  case isTrue => exact s.takeFloor_frees ..
  all_goals exact .refl s

theorem State.voxQuiet_frees (s : State) (p : Pos) : s.Frees (s.voxQuiet p) := by
  unfold State.voxQuiet
  split
  · exact .refl s
  · exact s.actFloor_frees ..

theorem State.nextVox_owners {s t : State} {p : Pos} {on : Bool} (h : s.nextVox p on = some t) : t.owners = s.owners := by
  unfold State.nextVox at h
  repeat' split at h
  · obtain rfl := Option.some.inj h
    rfl
  all_goals simp at h

theorem State.loseStanding_frees (s : State) (kind : GroupKind) (g : Grp) (p : Pos) : s.Frees (s.loseStanding kind g p) := by
  unfold State.loseStanding
  repeat' split
  · exact .refl s
  · exact .refl s
  · exact ((Frees.refl s).emit _).trans (State.leaveGroup_frees ..)
  · exact ((Frees.refl s).emit _).trans (State.actFloor_frees ..)

theorem State.configGroup_frees (s : State) (g : Grp) (c : GroupConfig) : s.Frees (s.configGroup g c) := by
  have h0 : s.Frees (s.setGroup g ((s.group g).configured c)) := .setGroup (.refl _)
  have h1 (t : State) (ps : List Pos) : t.Frees (ps.foldl (fun u p => u.loseStanding (s.group g).kind g p) t) :=
    Frees.foldl (fun u p => u.loseStanding_frees ..) _ _
  have h2 (t : State) (q : Prop) [Decidable q] : t.Frees (if q then t.actFloor g FloorAct.changeMode else t) := by
    split
    · exact t.actFloor_frees ..
    · exact .refl t
  have h4 (t : State) (q : Prop) [Decidable q] : t.Frees (if q then t else t.setGroup g { t.group g with
      joined := [], attached := [], listening := Table.fill false, floor := Floor.empty }) := by
    split
    · exact .refl t
    · exact .setGroup (List.nil_sublist _)
  have h := ((h0.trans (h1 _ (removedFrom (s.group g).allow c.allow))).trans
    (h2 _ (decide ((s.group g).kind = .hoot ∧ (s.group g).openMode ≠ c.openMode) = true))).trans (h4 _ ((s.group g).kind = c.kind))
  simp only [State.configGroup]
  split
  · exact h.then_owners rfl
  · exact h

theorem State.setAttached_frees (s : State) (g : Grp) (ls : List Line) : s.Frees (s.setAttached g ls) := by
  refine Frees.emit (.setGroup ?_) _
  exact .refl _

theorem State.setListening_frees (s : State) (m : Listening) : s.Frees (s.setListening m) := .setGroup (.refl _)

theorem State.nextListening_owners {s t : State} {on : Bool} {m : Listening} (h : s.nextListening on = some (m, t)) :
    t.owners = s.owners := by
  unfold State.nextListening at h
  repeat' split at h
  case h_2.isTrue =>
    obtain ⟨-, rfl⟩ := Prod.ext_iff.mp (Option.some.inj h)
    rfl
  all_goals simp at h

theorem State.nextAttach_owners {s t : State} {l : Line} {m : AttachToGfu} (h : s.nextAttach l = some (m, t)) :
    t.owners = s.owners := by
  obtain ⟨_, -, e⟩ := Option.map_eq_some_iff.mp h
  obtain ⟨-, rfl⟩ := Prod.ext_iff.mp e
  rfl

theorem State.endCall_frees (s : State) (c : CallNo) (p q : Pos) (o : Sends) : s.Frees (s.endCall c p q o) :=
  (Frees.setCall (r := .free) (List.nil_sublist _)).emit _

theorem State.declineCall_frees (s : State) (p : Pos) (v : Via) (b : List Byte) : s.Frees (s.declineCall p v b) := by
  unfold State.declineCall
  repeat' split
  case isTrue => exact (s.endCall_frees ..).reply ..
  all_goals exact (Frees.refl s).reply ..

theorem State.callLosesPosition_frees (s : State) (p : Pos) (c : CallNo) : s.Frees (s.callLosesPosition p c) := by
  unfold State.callLosesPosition
  split
  · exact .refl s
  all_goals
    split
    · exact s.endCall_frees ..
    · split
      · exact s.endCall_frees ..
      · exact .refl s

/-- The first part of GFU's loss of a position: its handsets leave the groups, by rising number (R74). -/
def State.groupsLose (s : State) (p : Pos) : State :=
  (List.finRange 16).foldl (fun u g => if ((u.group g).handsetOf p).isSome then u.leaveGroup g p else u) s

/-- The second part: its calls end (R74). -/
def State.callsLose (s : State) (p : Pos) : State := (List.finRange 8).foldl (fun u c => u.callLosesPosition p c) s

/-- The third part: its standing on the floors ends (R94). -/
def State.floorsLose (s : State) (p : Pos) : State := (List.finRange 16).foldl (fun u g => u.floorLosesPosition p g) s

/-- The last part: one kept UP counts (R56). -/
def State.countUp (s : State) (p : Pos) : State :=
  { s with gfu := { s.gfu with
      up := s.gfu.up.put p (decide (s.gfu.keptUp.look p ≠ 0))
      keptUp := s.gfu.keptUp.put p (s.gfu.keptUp.look p - 1) } }

/-- What GFU does at a position-down notice, part by part (R56, R74, R94). -/
theorem State.gfuDown_eq (s : State) (p : Pos) :
    s.gfuDown p =
      ((((({ s with gfu := { s.gfu with up := s.gfu.up.put p false } } : State).groupsLose p).callsLose p).floorsLose
        p).countUp p).emit { fromGfu := if s.lossTakenAtPtb p then s.gfuReleases fun q => q == p else [] } := by
  delta State.gfuDown State.groupsLose State.callsLose State.floorsLose State.countUp
  with_reducible rfl

theorem State.groupsLose_frees (s : State) (p : Pos) : s.Frees (s.groupsLose p) := by
  refine Frees.foldl (fun (u : State) g => ?_) _ s
  split
  · exact u.leaveGroup_frees g p
  · exact .refl u

theorem State.callsLose_frees (s : State) (p : Pos) : s.Frees (s.callsLose p) :=
  Frees.foldl (fun u c => u.callLosesPosition_frees p c) _ s

theorem State.floorsLose_frees (s : State) (p : Pos) : s.Frees (s.floorsLose p) :=
  Frees.foldl (fun u _ => u.actFloorFor_frees ..) _ s

theorem State.countUp_frees (s : State) (p : Pos) : s.Frees (s.countUp p) :=
  ⟨fun _ => .refl _, fun _ => .refl _, fun _ => .refl _⟩

theorem State.gfuDown_frees (s : State) (p : Pos) : s.Frees (s.gfuDown p) := by
  have h : s.Frees { s with gfu := { s.gfu with up := s.gfu.up.put p false } } :=
    ⟨fun _ => .refl _, fun _ => .refl _, fun _ => .refl _⟩
  rw [s.gfuDown_eq p]
  exact ((((h.trans (State.groupsLose_frees ..)).trans (State.callsLose_frees ..)).trans (State.floorsLose_frees ..)).trans
    (State.countUp_frees ..)).emit _

theorem State.gfuReset_frees (s : State) : s.Frees s.gfuReset := by
  refine ⟨fun _ => .refl _, fun g => ?_, fun c => ?_⟩
  · have e : (s.gfuReset.group g).joined = [] := by simp [State.gfuReset, State.emit, State.group]
    exact e ▸ List.nil_sublist _
  · have e : (s.gfuReset.call c).handsets = [] := by simp [State.gfuReset, State.emit, State.call, CallRec.handsets]
    exact e ▸ List.nil_sublist _

/-! ### What either owner does -/

/-- A handset that leaves what a claim names leaves it for nowhere. -/
theorem State.leave_frees {s t : State} {p : Pos} {h : Handset} {c : Claim} (e : s.leave p h c = some t) : s.Frees t := by
  cases c with
  | line l =>
    obtain ⟨_, -, rfl⟩ := Option.map_eq_some_iff.mp e
    exact .applyLine (leaveEvent_frees ..)
  | group g =>
    simp only [State.leave, State.leaveJoined] at e
    split at e
    · obtain rfl := Option.some.inj e
      exact s.leaveGroup_frees g p
    · simp at e
  | call n =>
    simp only [State.leave, State.leaveCall] at e
    repeat' split at e
    case h_2.isTrue | h_3.isTrue | h_3.isFalse.isTrue =>
      obtain rfl := Option.some.inj e
      exact s.endCall_frees ..
    all_goals simp at e
  | none | pending => simp [State.leave] at e

theorem State.ownerRelease_frees (s : State) (p : Pos) (h : Handset) (v : Via) (c : Claim) : s.Frees (s.ownerRelease p h v c) := by
  unfold State.ownerRelease
  split
  · exact (Frees.refl s).reply ..
  · next e => exact ((State.leave_frees e).freeClaimOf ..).reply ..

theorem State.ownerReturn_frees (s : State) (o : Owner) (p : Pos) (h : Handset) (c : Claim) : s.Frees (s.ownerReturn o p h c) := by
  obtain ⟨-, e⟩ | ⟨t, ht, e⟩ := s.ownerReturn_cases o p h c <;> rw [e]
  · exact .refl s
  · exact (State.leave_frees ht).emit _

theorem State.answerSpeaker_owners (s : State) (p : Pos) (k : Spk) (t : Target) : (s.answerSpeaker p k t).owners = s.owners := by
  cases t <;> simp [State.answerSpeaker]

theorem State.ownerReset_frees {s : State} {taken : ResetProgress → Bool} {mark : ResetProgress → ResetProgress}
    {act : State → State} (h : s.Frees (act s)) : s.Frees (s.ownerReset taken mark act) := by
  unfold State.ownerReset
  repeat' split
  · exact .refl s
  · exact .refl s
  · exact h.then_owners rfl

theorem State.completeReset_frees (s : State) : s.Frees s.completeReset :=
  s.lcuComplete_frees.then_owners (by simp only [State.completeReset, State.answer_owners]; rfl)

/-- A tick of the timebase moves timers alone. -/
theorem State.tick_frees (s : State) : s.Frees s.tick := by
  refine ⟨fun l => ?_, fun g => ?_, fun c => ?_⟩
  · rw [State.tick_line]
    exact LineRec.tick_frees ..
  · rw [State.tick_group]
    exact .refl _
  · rw [State.tick_call]
    cases s.call c <;> exact .refl _

/-- The power-on reset leaves no handset anywhere. -/
theorem State.poweredOn_frees (s : State) (far : Vector Bool 64) (present : Vector Bool 16) (cs : List Instr) :
    s.Frees (State.poweredOn far present cs) := by
  refine ⟨fun l => ?_, fun g => ?_, fun c => ?_⟩
  · have e : (State.poweredOn far present cs).line l = LineRec.reset (Table.look far l) := by
      simp [State.poweredOn, State.line, Lcu.reset]
    exact e ▸ LineRec.reset_frees ..
  · have e : ((State.poweredOn far present cs).group g).joined = [] := by
      simp [State.poweredOn, State.group, Gfu.reset, GroupRec.reset]
    exact e ▸ List.nil_sublist _
  · have e : ((State.poweredOn far present cs).call c).handsets = [] := by
      simp [State.poweredOn, State.call, Gfu.reset, CallRec.handsets]
    exact e ▸ List.nil_sublist _

end Sys2Proof.Machine
end

section
/-! Which commands bring a handset somewhere: five of them, the completions of a take, a join and a call. All others take the
state to one that has lost handsets at most. -/

namespace Sys2Proof.Machine

open State (Frees)

/-- The next state, if there is one, has lost handsets at most. -/
structure State.FreesTo (s : State) (o : Result) : Prop where
  frees : ∀ t, o = .next t → s.Frees t

theorem State.Frees.next {s t : State} (h : s.Frees t) : s.FreesTo (.next t) := by
  constructor
  rintro _ ⟨⟩
  exact h

theorem State.freesTo_of_owners {s t : State} (h : t.owners = s.owners) : s.FreesTo (.next t) := (Frees.of_owners h).next

theorem State.freesTo_same (s : State) : s.FreesTo (.next s) := (Frees.refl s).next

/-! ### Commands of LCU -/

theorem execFarSeizeChange_frees (l : Line) (on : Bool) (s : State) : s.FreesTo (execFarSeizeChange l on s) := by
  unfold execFarSeizeChange
  split
  · exact s.freesTo_same
  · refine (Frees.setLine ?_).next
    exact .of_same rfl rfl rfl rfl rfl

theorem execQualifyExpiry_frees (l : Line) (s : State) : s.FreesTo (execQualifyExpiry l s) := by
  unfold execQualifyExpiry
  split
  · exact (Frees.applyLine (qualifyEnd_frees ..)).next
  · exact s.freesTo_same

theorem execAnswerExpiry_frees (l : Line) (s : State) : s.FreesTo (execAnswerExpiry l s) := by
  unfold execAnswerExpiry
  split
  · exact (Frees.applyLine (answerEnd_frees ..)).next
  · exact s.freesTo_same

theorem execRingOutExpiry_frees (l : Line) (s : State) : s.FreesTo (execRingOutExpiry l s) := by
  unfold execRingOutExpiry
  split
  · exact (Frees.applyLine (ringEnd_frees ..)).next
  · exact s.freesTo_same

theorem execHoldRecallExpiry_frees (l : Line) (s : State) : s.FreesTo (execHoldRecallExpiry l s) := by
  unfold execHoldRecallExpiry
  split
  · exact (Frees.applyLine (recallEnd_frees ..)).next
  · exact s.freesTo_same

theorem execGuardExpiry_frees (l : Line) (s : State) : s.FreesTo (execGuardExpiry l s) := by
  unfold execGuardExpiry
  split
  · exact (Frees.applyLine (guardEnd_frees _)).next
  · exact s.freesTo_same

theorem execHoldAtLcu_frees (p : Pos) (h : Handset) (s : State) : s.FreesTo (execHoldAtLcu p h s) := by
  unfold execHoldAtLcu
  split
  · next e => exact ((Frees.of_owners (State.nextForHandset_owners e)).trans (State.lcuHold_frees ..)).next
  · exact s.freesTo_same

theorem execTalkReport_frees (l : Line) (s : State) : s.FreesTo (execTalkReport l s) := by
  unfold execTalkReport
  split
  · exact s.freesTo_same
  · next r rest _ =>
    have h : s.Frees { s with chan := { s.chan with talk := rest } } := .of_owners rfl
    refine ((h.trans (.setLine ?_)).emit _).next
    exact .of_same rfl rfl rfl rfl rfl

theorem execLineServiceOut_frees (n : Port) (s : State) : s.FreesTo (execLineServiceOut n s) := by
  refine (Frees.dispatchIf (fun b t => ?_) s).next
  repeat' split
  case isTrue => exact (t.lineOut_frees _).answer ..
  all_goals exact (Frees.refl t).answer ..

theorem execLineServiceIn_frees (n : Port) (s : State) : s.FreesTo (execLineServiceIn n s) := by
  refine (Frees.dispatchIf (fun b t => ?_) s).next
  repeat' split
  case isTrue => exact t.lineIn_frees ..
  all_goals exact (Frees.refl t).answer ..

theorem execAppearanceSet_frees (n : Port) (s : State) : s.FreesTo (execAppearanceSet n s) := by
  refine (Frees.dispatch (fun b t => ?_) s).next
  split
  · exact (t.changeApp_frees ..).answer ..
  · exact (Frees.refl t).answer ..

theorem execAppearanceBar_frees (n : Port) (s : State) : s.FreesTo (execAppearanceBar n s) := by
  refine (Frees.dispatch (fun b t => ?_) s).next
  split
  · exact (t.setBars_frees ..).answer ..
  · exact (Frees.refl t).answer ..

theorem execPositionDownAtLcu_frees (p : Pos) (s : State) : s.FreesTo (execPositionDownAtLcu p s) := by
  unfold execPositionDownAtLcu
  split
  · exact s.freesTo_same
  · next rest _ =>
    have h : s.Frees { s with chan := { s.chan with downLcu := rest } } := .of_owners rfl
    exact (h.trans (State.lcuDown_frees ..)).next

theorem execAttachQuestion_frees (l : Line) (s : State) : s.FreesTo (execAttachQuestion l s) := by
  unfold execAttachQuestion
  split
  · split
    · exact s.freesTo_same
    · refine ((Frees.setLine ?_).setChan _).next
      exact .of_same rfl rfl rfl rfl rfl
  · exact s.freesTo_same

theorem execAttachOutcome_frees (l : Line) (s : State) : s.FreesTo (execAttachOutcome l s) := by
  unfold execAttachOutcome
  split
  · next rest _ =>
    have h : s.Frees (s.setChan { s.chan with attachToLcu := rest }) := (Frees.refl s).setChan _
    dsimp only
    have hl : (s.line l).Frees { s.line l with attachHold := false } := .of_same rfl rfl rfl rfl rfl
    split
    · exact (h.trans (.setLine hl)).next
    · split
      · next e =>
        obtain ⟨he, -⟩ : (s.line l).state = .idle ∧ _ := e
        refine (h.trans (.applyLine ⟨fun ⟨hs, hn, h1, h4, hz, hr⟩ => ?_, .refl _⟩)).next
        exact ⟨fun hc => by simpa [he] using hs hc, hn, h1, h4, by simpa [he] using hz, by simpa [he] using hr⟩
      · exact (h.trans (.setLine hl)).next
  · exact s.freesTo_same

/-! ### Commands of GFU -/

theorem execPositionDownAtGfu_frees (p : Pos) (s : State) : s.FreesTo (execPositionDownAtGfu p s) := by
  unfold execPositionDownAtGfu
  split
  · exact s.freesTo_same
  · exact (((Frees.refl s).setChan _).trans (State.gfuDown_frees ..)).next

theorem execStandingUpNotice_frees (p : Pos) (s : State) : s.FreesTo (execStandingUpNotice p s) := by
  unfold execStandingUpNotice
  split
  · exact s.freesTo_same
  · dsimp only
    split <;> refine Frees.next ?_ <;> exact ⟨fun _ => .refl _, fun _ => .refl _, fun _ => .refl _⟩

theorem execGroupConfig_frees (n : Port) (s : State) : s.FreesTo (execGroupConfig n s) := by
  refine (Frees.dispatch (fun b t => ?_) s).next
  split
  · split
    · exact (Frees.refl t).answer ..
    · exact (t.configGroup_frees ..).answer ..
  · exact (Frees.refl t).answer ..

theorem execHootAttach_frees (n : Port) (s : State) : s.FreesTo (execHootAttach n s) := by
  refine (Frees.dispatch (fun b t => ?_) s).next
  split
  · exact (Frees.refl t).setChan _
  · exact (Frees.refl t).answer ..

theorem execAttachAnswer_frees (l : Line) (s : State) : s.FreesTo (execAttachAnswer l s) := by
  unfold execAttachAnswer
  split
  · next e =>
    have h := Frees.of_owners (State.nextAttach_owners e)
    split
    · exact ((h.setChan _).answer ..).next
    · exact (((h.trans (State.setAttached_frees ..)).setChan _).answer ..).next
  · exact s.freesTo_same

theorem execHootDetach_frees (n : Port) (s : State) : s.FreesTo (execHootDetach n s) := by
  refine (Frees.dispatchIf (fun b t => ?_) s).next
  split
  · split
    · exact ((t.setAttached_frees ..).trans (State.lineDetach_frees ..)).answer ..
    · exact (Frees.refl t).answer ..
  · exact (Frees.refl t).answer ..

theorem execHootLineRemoval_frees (l : Line) (s : State) : s.FreesTo (execHootLineRemoval l s) := by
  unfold execHootLineRemoval
  split
  · next e =>
    have h := Frees.of_owners (State.nextAttach_owners e)
    split
    · exact (h.trans (State.setAttached_frees ..)).next
    · exact h.next
  · exact s.freesTo_same

theorem execListenOn_frees (s : State) : s.FreesTo (execListenOn s) := by
  unfold execListenOn
  split
  · next e =>
    have h := Frees.of_owners (State.nextListening_owners e)
    split
    · exact (h.trans (State.setListening_frees ..)).next
    · exact h.next
  · exact s.freesTo_same

theorem execListenOff_frees (s : State) : s.FreesTo (execListenOff s) := by
  simp only [execListenOff]
  split
  · next m t e =>
    have h := (Frees.of_owners (State.nextListening_owners e)).trans (t.setListening_frees m)
    split
    · exact h.next
    · exact (h.trans (State.actFloor_frees ..)).next
  · exact s.freesTo_same

theorem execCallConfig_frees (n : Port) (s : State) : s.FreesTo (execCallConfig n s) := by
  refine (Frees.dispatch (fun b t => ?_) s).next
  have h : t.Frees { t with gfu := { t.gfu with alertCount := atLeastOne (levelOf (byteAt b 0)) } } :=
    ⟨fun _ => .refl _, fun _ => .refl _, fun _ => .refl _⟩
  exact h.answer ..

theorem execCallAlertExpiry_frees (c : CallNo) (s : State) : s.FreesTo (execCallAlertExpiry c s) := by
  unfold execCallAlertExpiry
  split
  · exact (s.endCall_frees ..).next
  · exact s.freesTo_same

theorem execQueryGroup_frees (n : Port) (s : State) : s.FreesTo (execQueryGroup n s) := by
  have h (b : Byte) (body : GroupRec → List Byte) (t : State) : t.Frees (t.queryGroupRec n b body) := by
    unfold State.queryGroupRec
    repeat' split
    all_goals exact (Frees.refl t).answer ..
  refine (Frees.dispatch (fun b t => ?_) s).next
  split
  · exact h ..
  · split
    · split <;> exact (Frees.refl t).answer ..
    · split
      · exact h ..
      · exact (Frees.refl t).answer ..

theorem execHoldTimerExpiry_frees (g : Grp) (s : State) : s.FreesTo (execHoldTimerExpiry g s) := by
  unfold execHoldTimerExpiry
  split
  · exact (s.actFloor_frees ..).next
  · exact s.freesTo_same

theorem execPinFloor_frees (n : Port) (s : State) : s.FreesTo (execPinFloor n s) := by
  refine (Frees.dispatch (fun b t => ?_) s).next
  split
  · split
    · exact (Frees.refl t).answer ..
    · exact (t.actFloor_frees ..).answer ..
  · exact (Frees.refl t).answer ..

theorem execUnpin_frees (n : Port) (s : State) : s.FreesTo (execUnpin n s) := by
  refine (Frees.dispatch (fun b t => ?_) s).next
  split
  · exact (Frees.refl t).answer ..
  · split
    · exact (t.actFloor_frees ..).answer ..
    · exact (Frees.refl t).answer ..

theorem execVoxActiveReport_frees (p : Pos) (s : State) : s.FreesTo (execVoxActiveReport p s) := by
  unfold execVoxActiveReport
  split
  · next e => exact ((Frees.of_owners (State.nextVox_owners e)).trans (State.voxActive_frees ..)).next
  · exact s.freesTo_same

theorem execVoxQuietReport_frees (p : Pos) (s : State) : s.FreesTo (execVoxQuietReport p s) := by
  unfold execVoxQuietReport
  split
  · next e => exact ((Frees.of_owners (State.nextVox_owners e)).trans (State.voxQuiet_frees ..)).next
  · exact s.freesTo_same

/-! ### Commands of either owner -/

theorem execReturnNotice_frees (o : Owner) (p : Pos) (h : Handset) (s : State) : s.FreesTo (execReturnNotice o p h s) := by
  unfold execReturnNotice
  split
  · next e => exact ((Frees.of_owners (State.nextForHandset_owners e)).trans (State.ownerReturn_frees ..)).next
  · exact s.freesTo_same

theorem execReleaseAtOwner_frees (o : Owner) (p : Pos) (h : Handset) (s : State) : s.FreesTo (execReleaseAtOwner o p h s) := by
  unfold execReleaseAtOwner
  split
  · next e => exact ((Frees.of_owners (State.nextForHandset_owners e)).trans (State.ownerRelease_frees ..)).next
  · exact s.freesTo_same

theorem execSpeakerQuestion_frees (o : Owner) (p : Pos) (k : Spk) (s : State) : s.FreesTo (execSpeakerQuestion o p k s) := by
  unfold execSpeakerQuestion
  split
  · next e => exact State.freesTo_of_owners ((State.answerSpeaker_owners ..).trans (State.nextForSpeaker_owners e))
  · exact s.freesTo_same

theorem execSoftResetCompletion_frees (s : State) : s.FreesTo (execSoftResetCompletion s) := by
  unfold execSoftResetCompletion
  repeat' split
  · exact s.completeReset_frees.next
  · exact s.freesTo_same
  · exact s.freesTo_same

/-! ### Commands of PTB -/

theorem execFinalClaim_frees (o : Owner) (p : Pos) (h : Handset) (s : State) : s.FreesTo (execFinalClaim o p h s) := by
  unfold execFinalClaim
  split
  · next e => exact State.freesTo_of_owners ((State.takeOutcome_owners ..).trans (State.heardOfHandset_owners e))
  · exact s.freesTo_same

theorem execReleaseNotice_frees (o : Owner) (p : Pos) (h : Handset) (s : State) : s.FreesTo (execReleaseNotice o p h s) := by
  unfold execReleaseNotice
  split
  · next e => exact State.freesTo_of_owners ((State.freeClaimOf_owners ..).trans (State.heardOfHandset_owners e))
  · exact s.freesTo_same

theorem execAssignmentAnswer_frees (o : Owner) (p : Pos) (s : State) : s.FreesTo (execAssignmentAnswer o p s) := by
  unfold execAssignmentAnswer
  split
  · next e => exact State.freesTo_of_owners ((State.takeAnswer_owners ..).trans (State.heardOfSpeakers_owners e))
  · exact s.freesTo_same

theorem execRemovalNotice_frees (o : Owner) (p : Pos) (s : State) : s.FreesTo (execRemovalNotice o p s) := by
  unfold execRemovalNotice
  split
  · next e => exact State.freesTo_of_owners ((State.offTarget_owners ..).trans (State.heardOfSpeakers_owners e))
  · exact s.freesTo_same

theorem execSetVolume_frees (r : Requester) (s : State) : s.FreesTo (execSetVolume r s) := by
  cases r with
  | port n => exact State.freesTo_of_owners (State.dispatch_owners (fun b t => t.setVolume_owners ..) s)
  | run p =>
    refine State.freesTo_of_owners ?_
    unfold State.takeStep
    repeat' split
    · rfl
    · exact State.setVolume_owners ..
    · rfl

theorem execPositionConfig_frees (n : Port) (s : State) : s.FreesTo (execPositionConfig n s) := by
  refine State.freesTo_of_owners (State.dispatch_owners (fun b t => ?_) s)
  split <;> simp

theorem execPositionDownAtPtb_frees (p : Pos) (s : State) : s.FreesTo (execPositionDownAtPtb p s) := by
  unfold execPositionDownAtPtb
  split
  · exact s.freesTo_same
  · exact State.freesTo_of_owners rfl

theorem execQueryPosition_frees (n : Port) (s : State) : s.FreesTo (execQueryPosition n s) := by
  refine State.freesTo_of_owners (State.dispatch_owners (fun b t => ?_) s)
  repeat' split
  all_goals simp

theorem execQueryLine_frees (n : Port) (s : State) : s.FreesTo (execQueryLine n s) := by
  refine State.freesTo_of_owners (State.dispatch_owners (fun b t => ?_) s)
  dsimp only
  repeat' split
  all_goals simp

/-! ### Commands of RTU -/

theorem execCoverageReservation_frees (s : State) : s.FreesTo (execCoverageReservation s) := by
  unfold execCoverageReservation
  split
  · exact State.freesTo_of_owners (State.reserve_owners ..)
  · exact s.freesTo_same

theorem execCoverageRelease_frees (s : State) : s.FreesTo (execCoverageRelease s) := by
  unfold execCoverageRelease
  split
  · exact State.freesTo_of_owners (State.releaseCover_owners ..)
  · exact s.freesTo_same

theorem execTapSet_frees (n : Port) (s : State) : s.FreesTo (execTapSet n s) :=
  State.freesTo_of_owners (State.tapRequest_owners (fun r b t => t.tapSet_owners n r b) s)

theorem execTapDisable_frees (n : Port) (s : State) : s.FreesTo (execTapDisable n s) := by
  refine State.freesTo_of_owners (State.tapRequest_owners (fun r b t => ?_) s)
  repeat' split
  all_goals simp

theorem execTapEnable_frees (n : Port) (s : State) : s.FreesTo (execTapEnable n s) := by
  refine State.freesTo_of_owners (State.tapRequest_owners (fun r b t => ?_) s)
  dsimp only
  repeat' split
  all_goals simp

@[simp] theorem State.lockTo_owners (s : State) (n : Port) (r : TapNo) (l : Lock) : (s.lockTo n r l).owners = s.owners :=
  State.answer_owners ..

theorem execTapLock_frees (n : Port) (s : State) : s.FreesTo (execTapLock n s) := by
  refine State.freesTo_of_owners (State.tapRequest_owners (fun r b t => ?_) s)
  split <;> simp

theorem execTapUnlock_frees (n : Port) (s : State) : s.FreesTo (execTapUnlock n s) := by
  refine State.freesTo_of_owners (State.tapRequest_owners (fun r b t => ?_) s)
  split <;> simp

theorem execTapFix_frees (n : Port) (s : State) : s.FreesTo (execTapFix n s) := by
  refine State.freesTo_of_owners (State.tapRequest_owners (fun r b t => ?_) s)
  repeat' split
  all_goals simp

theorem execQueryTap_frees (n : Port) (s : State) : s.FreesTo (execQueryTap n s) :=
  State.freesTo_of_owners (State.tapRequest_owners (fun _ _ _ => State.answer_owners ..) s)

theorem execRecorderPresentChange_frees (r : TapNo) (present : Bool) (s : State) :
    s.FreesTo (execRecorderPresentChange r present s) := by
  unfold execRecorderPresentChange
  split
  · exact s.freesTo_same
  · exact State.freesTo_of_owners (State.recorderChange_owners ..)

/-! ### Commands of SQU -/

theorem execStepWrite_frees (n : Port) (s : State) : s.FreesTo (execStepWrite n s) := by
  refine State.freesTo_of_owners (State.dispatch_owners (fun b t => ?_) s)
  repeat' split
  case isTrue => exact State.answer_owners ..
  all_goals simp

theorem execRunSequence_frees (n : Port) (s : State) : s.FreesTo (execRunSequence n s) := by
  refine State.freesTo_of_owners (State.request_owners (fun p v b t => ?_) s)
  split <;> simp

theorem execStepOutcome_frees (p : Pos) (s : State) : s.FreesTo (execStepOutcome p s) := by
  cases ho : s.chan.outcomes.look p with
  | none => simpa only [execStepOutcome, ho] using s.freesTo_same
  | some c =>
    have h : s.Frees { s with chan := { s.chan with outcomes := s.chan.outcomes.put p none } } := .of_owners rfl
    rcases hr : (s.runOf p).state with _ | ⟨k, first, abort⟩ | _ | _ <;> simp only [execStepOutcome, ho, hr]
    case waiting => exact (h.then_owners (State.stepOutcome_owners ..)).next
    case draining => exact (h.then_owners (State.setRun_owners ..)).next
    all_goals exact h.next

theorem execPauseExpiry_frees (p : Pos) (s : State) : s.FreesTo (execPauseExpiry p s) := by
  rcases h : (s.runOf p).state with _ | _ | ⟨k, first, _ | _ | _⟩ | _ <;> simp only [execPauseExpiry, h]
  case pausing.some.zero => exact State.freesTo_of_owners ((State.goOn_owners ..).trans (State.seqStep_owners ..))
  all_goals exact s.freesTo_same

theorem execPositionDownAtSqu_frees (p : Pos) (s : State) : s.FreesTo (execPositionDownAtSqu p s) := by
  unfold execPositionDownAtSqu
  split
  · exact s.freesTo_same
  · exact State.freesTo_of_owners rfl

/-! ### Commands of CMX -/

theorem execChangeNotice_frees (q : Subject) (s : State) : s.FreesTo (execChangeNotice q s) := by
  unfold execChangeNotice
  split
  · exact s.freesTo_same
  · exact State.freesTo_of_owners rfl

theorem execDerivationStart_frees (s : State) : s.FreesTo (execDerivationStart s) := by
  unfold execDerivationStart
  split
  · exact State.freesTo_of_owners rfl
  · exact s.freesTo_same

theorem execListInstall_frees (s : State) : s.FreesTo (execListInstall s) := by
  unfold execListInstall
  split
  · exact s.freesTo_same
  · split
    · exact s.freesTo_same
    · exact State.freesTo_of_owners (State.install_owners ..)

theorem execLegLevel_frees (n : Port) (s : State) : s.FreesTo (execLegLevel n s) := by
  refine State.freesTo_of_owners (State.dispatch_owners (fun b t => ?_) s)
  split <;> simp

theorem execQueryLeg_frees (n : Port) (s : State) : s.FreesTo (execQueryLeg n s) := by
  refine State.freesTo_of_owners (State.dispatch_owners (fun b t => ?_) s)
  repeat' split
  all_goals simp

theorem execDetectorConfig_frees (n : Port) (s : State) : s.FreesTo (execDetectorConfig n s) := by
  refine State.freesTo_of_owners (State.dispatch_owners (fun b t => ?_) s)
  repeat' split
  all_goals exact State.answer_owners ..

theorem execQuerySource_frees (n : Port) (s : State) : s.FreesTo (execQuerySource n s) := by
  refine State.freesTo_of_owners (State.dispatch_owners (fun b t => ?_) s)
  split <;> simp

/-! ### Commands of LKI and EVU -/

theorem execSyncFound_frees (n : Port) (align : Fin 8) (s : State) : s.FreesTo (execSyncFound n align s) := by
  simp only [execSyncFound]
  split
  · exact State.freesTo_of_owners rfl
  · exact s.freesTo_same

theorem execFrameOpen_frees (n : Port) (s : State) : s.FreesTo (execFrameOpen n s) := by
  unfold execFrameOpen
  repeat' split
  · exact State.freesTo_of_owners (State.takeOpen_owners ..)
  · exact s.freesTo_same
  · exact State.freesTo_of_owners (State.hear_owners ..)

theorem execLinkLossTimerExpiry_frees (n : Port) (s : State) : s.FreesTo (execLinkLossTimerExpiry n s) := by
  unfold execLinkLossTimerExpiry
  split
  · exact State.freesTo_of_owners (State.portDown_owners ..)
  · exact s.freesTo_same

theorem execLinkUpTimerExpiry_frees (n : Port) (s : State) : s.FreesTo (execLinkUpTimerExpiry n s) := by
  unfold execLinkUpTimerExpiry
  split
  · exact State.freesTo_of_owners (State.portUp_owners ..)
  · exact s.freesTo_same

theorem execReplySend_frees (n : Port) (s : State) : s.FreesTo (execReplySend n s) := by
  simp only [execReplySend]
  repeat' split
  all_goals exact State.freesTo_of_owners rfl

theorem execEventFrame_frees (n : Port) (s : State) : s.FreesTo (execEventFrame n s) := by
  simp only [execEventFrame]
  split <;> exact State.freesTo_of_owners rfl

theorem execTestFrameSend_frees (n : Port) (s : State) : s.FreesTo (execTestFrameSend n s) := by
  simp only [execTestFrameSend]
  repeat' split
  all_goals exact State.freesTo_of_owners rfl

theorem execFrameSent_frees (n : Port) (s : State) : s.FreesTo (execFrameSent n s) := by
  simp only [execFrameSent]
  split <;> exact State.freesTo_of_owners rfl

theorem execUnknownRequest_frees (n : Port) (s : State) : s.FreesTo (execUnknownRequest n s) := by
  unfold execUnknownRequest
  split
  · exact s.freesTo_same
  · exact State.freesTo_of_owners (State.answer_owners ..)

theorem execRecordPlacement_frees (b : Block) (s : State) : s.FreesTo (execRecordPlacement b s) := by
  unfold execRecordPlacement
  split <;> exact State.freesTo_of_owners rfl

theorem execStatusRead_frees (n : Port) (s : State) : s.FreesTo (execStatusRead n s) := by
  refine State.freesTo_of_owners (State.dispatch_owners (fun b t => State.portRequest_owners (fun m u => ?_) t) s)
  exact State.answer_owners ..

theorem execPortMode_frees (n : Port) (s : State) : s.FreesTo (execPortMode n s) := by
  refine State.freesTo_of_owners (State.dispatch_owners (fun b t => ?_) s)
  repeat' split
  all_goals simp

theorem execTestFrame_frees (n : Port) (s : State) : s.FreesTo (execTestFrame n s) := by
  refine State.freesTo_of_owners (State.dispatch_owners (fun b t => ?_) s)
  repeat' split
  all_goals simp

theorem execEventSetup_frees (n : Port) (s : State) : s.FreesTo (execEventSetup n s) := by
  refine State.freesTo_of_owners (State.dispatch_owners (fun b t => State.portRequest_owners (fun m u => ?_) t) s)
  split <;> simp

theorem execPortReset_frees (n : Port) (s : State) : s.FreesTo (execPortReset n s) := by
  refine State.freesTo_of_owners (State.dispatch_owners (fun b t => State.portRequest_owners (fun m u => ?_) t) s)
  exact State.answer_owners ..

theorem execResetExecute_frees (n : Port) (s : State) : s.FreesTo (execResetExecute n s) := by
  refine State.freesTo_of_owners (State.dispatch_owners (fun b t => ?_) s)
  split
  · rfl
  · simp

/-! ### Every command -/

/-- The commands that complete a take, a join or a call (R10, R60, R68, R70). -/
def Instr.completes : Instr → Bool
  | .takeLineAtLcu .. | .reservationAnswer .. | .joinGroupAtGfu .. | .callPositionAtGfu .. | .answerCallAtGfu .. => true
  | _ => false

/-- A command that completes nothing brings no handset anywhere and keeps every line sound. -/
theorem exec_frees {i : Instr} (hi : Instr.completes i = false) (s : State) : s.FreesTo (exec i s) := by
  cases i with
  | takeLineAtLcu | reservationAnswer | joinGroupAtGfu | callPositionAtGfu | answerCallAtGfu => simp [Instr.completes] at hi
  | powerOnReset far present => exact (s.poweredOn_frees ..).next
  | farSeizeChange l on => exact execFarSeizeChange_frees ..
  | qualifyExpiry l => exact execQualifyExpiry_frees ..
  | answerExpiry l => exact execAnswerExpiry_frees ..
  | ringOutExpiry l => exact execRingOutExpiry_frees ..
  | holdRecallExpiry l => exact execHoldRecallExpiry_frees ..
  | guardExpiry l => exact execGuardExpiry_frees ..
  | holdAtLcu p h => exact execHoldAtLcu_frees ..
  | setPrivacy r => exact (Frees.request (fun p v b t => t.setPrivacy_frees p v b) s).next
  | signalLine r => exact (Frees.request (fun p v b t => t.signalLine_frees p v b) s).next
  | talkReport l => exact execTalkReport_frees ..
  | lineConfig n => exact (Frees.dispatchIf (fun b t => t.lineConfig_frees n b) s).next
  | lineServiceOut n => exact execLineServiceOut_frees ..
  | lineServiceIn n => exact execLineServiceIn_frees ..
  | appearanceSet n => exact execAppearanceSet_frees ..
  | appearanceBar n => exact execAppearanceBar_frees ..
  | positionDownAtLcu p => exact execPositionDownAtLcu_frees ..
  | attachQuestion l => exact execAttachQuestion_frees ..
  | attachOutcome l => exact execAttachOutcome_frees ..
  | queryLine n => exact execQueryLine_frees ..
  | positionDownAtGfu p => exact execPositionDownAtGfu_frees ..
  | standingUpNotice p => exact execStandingUpNotice_frees ..
  | groupConfig n => exact execGroupConfig_frees ..
  | hootAttach n => exact execHootAttach_frees ..
  | attachAnswer l => exact execAttachAnswer_frees ..
  | hootDetach n => exact execHootDetach_frees ..
  | hootLineRemoval l => exact execHootLineRemoval_frees ..
  | listenOn => exact execListenOn_frees s
  | listenOff => exact execListenOff_frees s
  | callConfig n => exact execCallConfig_frees ..
  | declineCall n => exact (Frees.request (fun p v b t => t.declineCall_frees p v b) s).next
  | callAlertExpiry c => exact execCallAlertExpiry_frees ..
  | queryGroup n => exact execQueryGroup_frees ..
  | floorRequest r => exact (Frees.request (fun p v b t => t.floorRequest_frees p v b) s).next
  | floorRelease r => exact (Frees.request (fun p v b t => t.floorRelease_frees p v b) s).next
  | holdTimerExpiry g => exact execHoldTimerExpiry_frees ..
  | pinFloor n => exact execPinFloor_frees ..
  | unpin n => exact execUnpin_frees ..
  | voxActiveReport p => exact execVoxActiveReport_frees ..
  | voxQuietReport p => exact execVoxQuietReport_frees ..
  | returnNotice o p h => exact execReturnNotice_frees ..
  | releaseAtOwner o p h => exact execReleaseAtOwner_frees ..
  | speakerQuestion o p k => exact execSpeakerQuestion_frees ..
  | takeLine r => exact State.freesTo_of_owners (State.request_owners (fun p v b t => t.ptbTake_owners p v b) s)
  | joinGroup r => exact State.freesTo_of_owners (State.request_owners (fun p v b t => t.ptbJoin_owners p v b) s)
  | callPosition r => exact State.freesTo_of_owners (State.request_owners (fun p v b t => t.ptbCall_owners p v b) s)
  | answerCall n => exact State.freesTo_of_owners (State.request_owners (fun p v b t => t.ptbAnswer_owners p v b) s)
  | release r => exact State.freesTo_of_owners (State.request_owners (fun p v b t => t.ptbRelease_owners p v b) s)
  | hold r => exact State.freesTo_of_owners (State.request_owners (fun p v b t => t.ptbHold_owners p v b) s)
  | mute n => exact State.freesTo_of_owners (State.request_owners (fun p v b t => t.ptbMute_owners p v b) s)
  | assignSpeaker r => exact State.freesTo_of_owners (State.request_owners (fun p v b t => t.ptbAssign_owners p v b) s)
  | finalClaim o p h => exact execFinalClaim_frees ..
  | releaseNotice o p h => exact execReleaseNotice_frees ..
  | assignmentAnswer o p => exact execAssignmentAnswer_frees ..
  | removalNotice o p => exact execRemovalNotice_frees ..
  | setVolume r => exact execSetVolume_frees ..
  | positionConfig n => exact execPositionConfig_frees ..
  | positionDownAtPtb p => exact execPositionDownAtPtb_frees ..
  | queryPosition n => exact execQueryPosition_frees ..
  | coverageReservation => exact execCoverageReservation_frees s
  | coverageRelease => exact execCoverageRelease_frees s
  | tapSet n => exact execTapSet_frees ..
  | tapDisable n => exact execTapDisable_frees ..
  | tapEnable n => exact execTapEnable_frees ..
  | tapLock n => exact execTapLock_frees ..
  | tapUnlock n => exact execTapUnlock_frees ..
  | tapFix n => exact execTapFix_frees ..
  | queryTap n => exact execQueryTap_frees ..
  | recorderPresentChange r present => exact execRecorderPresentChange_frees ..
  | stepWrite n => exact execStepWrite_frees ..
  | stepRead n => exact State.freesTo_of_owners (State.dispatch_owners (fun _ _ => State.answer_owners ..) s)
  | runSequence n => exact execRunSequence_frees ..
  | stepOutcome p => exact execStepOutcome_frees ..
  | pauseExpiry p => exact execPauseExpiry_frees ..
  | abortSequence n => exact State.freesTo_of_owners (State.request_owners (fun p v _ t => t.abortRun_owners p v) s)
  | positionDownAtSqu p => exact execPositionDownAtSqu_frees ..
  | changeNotice q => exact execChangeNotice_frees ..
  | derivationStart => exact execDerivationStart_frees s
  | listInstall => exact execListInstall_frees s
  | audioFrame mics receives => exact State.freesTo_of_owners rfl
  | legLevel n => exact execLegLevel_frees ..
  | queryLeg n => exact execQueryLeg_frees ..
  | detectorConfig n => exact execDetectorConfig_frees ..
  | querySource n => exact execQuerySource_frees ..
  | syncFound n align => exact execSyncFound_frees ..
  | receiverHunt n bytes | frameClose n bytes | frameAbort n bytes | frameError n bytes =>
    exact State.freesTo_of_owners (State.hear_owners ..)
  | frameOpen n => exact execFrameOpen_frees ..
  | linkLossTimerExpiry n => exact execLinkLossTimerExpiry_frees ..
  | linkUpTimerExpiry n => exact execLinkUpTimerExpiry_frees ..
  | replySend n => exact execReplySend_frees ..
  | eventFrame n => exact execEventFrame_frees ..
  | testFrameSend n => exact execTestFrameSend_frees ..
  | frameSent n => exact execFrameSent_frees ..
  | unknownRequest n => exact execUnknownRequest_frees ..
  | recordPlacement b => exact execRecordPlacement_frees ..
  | positionDownAtEvu n => exact State.freesTo_of_owners (State.evuDown_owners ..)
  | statusRead n => exact execStatusRead_frees ..
  | portMode n => exact execPortMode_frees ..
  | testFrame n => exact execTestFrame_frees ..
  | eventSetup n => exact execEventSetup_frees ..
  | fetchEvents n | summary n | resetArm n | identify n =>
    refine State.freesTo_of_owners (State.dispatch_owners (fun b t => ?_) s)
    exact State.answer_owners ..
  | portReset n => exact execPortReset_frees n s
  | resetExecute n => exact execResetExecute_frees ..
  | softResetAtPtb => exact (State.ownerReset_frees (.of_owners rfl)).next
  | softResetAtLcu => exact (State.ownerReset_frees s.lcuReset_frees).next
  | softResetAtGfu => exact (State.ownerReset_frees s.gfuReset_frees).next
  | softResetAtCmx | softResetAtRtu | softResetAtSqu => exact (State.ownerReset_frees (.of_owners rfl)).next
  | softResetCompletion => exact execSoftResetCompletion_frees s

end Sys2Proof.Machine
end

section
/-! The five commands that complete something place one handset, which stood nowhere at its owner (R3, R35, R60, R67). With the
others, which place none, they keep every line sound and every handset in one place at most. -/

namespace Sys2Proof.Machine

open State (Frees)

/-! ### One more handset in one place -/

/-- Of lists read one after another, the one of index `i` has `x` at its end now: so has the whole, up to order. -/
theorem flatMap_finRange_perm_cons {n : Nat} {α : Type} {f f' : Fin n → List α} {i : Fin n} {x : α}
    (hi : f' i = f i ++ [x]) (hne : ∀ j, j ≠ i → f' j = f j) :
    ((List.finRange n).flatMap f').Perm (x :: (List.finRange n).flatMap f) := by
  have hp : (List.finRange n).Perm (i :: (List.finRange n).erase i) := List.perm_cons_erase (List.mem_finRange i)
  have he : ((List.finRange n).erase i).flatMap f' = ((List.finRange n).erase i).flatMap f := by
    refine List.flatMap_congr fun j hj => hne j ?_
    rintro rfl
    exact (List.nodup_finRange n).not_mem_erase hj
  calc (List.finRange n).flatMap f'
      _ |>.Perm ((f i ++ [x]) ++ ((List.finRange n).erase i).flatMap f) := by
        simpa [hi, he] using hp.flatMap_right f'
      _ |>.Perm (x :: (f i ++ ((List.finRange n).erase i).flatMap f)) := by simp
      _ |>.Perm (x :: (List.finRange n).flatMap f) := by simpa using (hp.flatMap_right f).symm.cons x

/-! ### What each command keeps -/

/-- The next state keeps the two invariants of this part. -/
structure State.Keeps (s t : State) : Prop where
  sound : s.LinesSound → t.LinesSound
  once : s.HandsetsStandOnce → t.HandsetsStandOnce

theorem State.Frees.keeps {s t : State} (h : s.Frees t) : s.Keeps t := by
  refine ⟨fun hs l => (h.lines l).sound (hs l), fun ⟨h1, h2⟩ => ⟨h1.sublist ?_, h2.sublist (.append ?_ ?_)⟩⟩
  · exact List.Sublist.flatMap_right _ fun l _ => (h.lines l).fewer.map _
  · exact List.Sublist.flatMap_right _ fun g _ => h.joined g
  · exact List.Sublist.flatMap_right _ fun c _ => h.calls c

theorem State.Keeps.trans {s t u : State} (h : s.Keeps t) (k : t.Keeps u) : s.Keeps u := ⟨k.sound ∘ h.sound, k.once ∘ h.once⟩

theorem State.Keeps.then_owners {s t u : State} (h : s.Keeps t) (e : u.owners = t.owners) : s.Keeps u :=
  h.trans (Frees.of_owners e).keeps

/-! ### A take that completes -/

/-- A take that LCU's checks pass is of a handset that stands on no line (R38). -/
theorem State.checkTake_none {s : State} {p : Pos} {h : Handset} {l : Line} (e : s.checkTake p h l = none) :
    takeCheck (s.line l) ((s.row l).look p) p = none ∧ (p, h) ∉ s.lineHandsets := by
  unfold State.checkTake at e
  split at e
  · simp at e
  · next hc =>
    refine ⟨hc, ?_⟩
    simp only [State.onSomeLine, LineRec.entry] at e
    simpa [State.lineHandsets] using e

/-- A completed take places one handset on a line that it may be placed on. -/
theorem State.finishTake_keeps {s : State} {p : Pos} {h : Handset} {l : Line} (v : Via) (covered : Bool)
    (e : s.checkTake p h l = none) : s.Keeps (s.finishTake p h v l covered) := by
  obtain ⟨hc, hn⟩ := State.checkTake_none e
  have hline (j : Line) : (s.finishTake p h v l covered).line j =
      if l = j then (takenLine (s.line l) ⟨p, h, covered⟩).1 else s.line j := State.applyLine_line ..
  refine ⟨fun hs j => ?_, fun ⟨h1, h2⟩ => ⟨?_, h2⟩⟩
  · rw [hline]
    split
    · exact takenLine_sound _ hc (hs l)
    · exact hs j
  · refine ((flatMap_finRange_perm_cons (i := l) (x := (p, h)) ?_ fun j hj => ?_).nodup_iff).mpr (List.nodup_cons.mpr ⟨hn, h1⟩)
    · simp [hline, takenLine_connected]
    · simp [hline, Ne.symm hj]

theorem State.lcuTake_keeps (s : State) (p : Pos) (h : Handset) (v : Via) (l : Line) : s.Keeps (s.lcuTake p h v l) := by
  unfold State.lcuTake
  split
  · exact ((Frees.refl s).emit _).keeps
  · next e =>
    split
    · exact (s.askCoverage_frees ..).keeps
    · exact s.finishTake_keeps v false e

theorem State.lcuAnswer_keeps (s : State) (w : Waiting) (granted : Bool) : s.Keeps (s.lcuAnswer w granted) := by
  unfold State.lcuAnswer
  split
  · exact (s.dropGrant_frees ..).keeps
  · split
    · exact ((s.dropGrant_frees ..).emit _).keeps
    · next e =>
      repeat' split
      · exact s.finishTake_keeps w.via granted e
      · exact ((s.dropGrant_frees ..).trans (State.askCoverage_frees ..)).keeps
      · exact s.finishTake_keeps w.via true e
      · exact ((Frees.refl s).emit _).keeps

/-! ### A join and a call that complete -/

theorem CallRec.holds_iff {c : CallRec} {p : Pos} {h : Handset} : c.holds p h = true ↔ (p, h) ∈ c.handsets := by
  cases c <;> simp [CallRec.holds, CallRec.handsets, eq_comm (a := p), eq_comm (a := h)]

/-- A handset that GFU does not refuse as one it still holds stands in no group and in no call (R35). -/
theorem State.gfuHolds_none {s : State} {p : Pos} {h : Handset} (e : s.gfuHolds p h = none) : (p, h) ∉ s.talkHandsets := by
  unfold State.gfuHolds at e
  split at e
  · simp at e
  · next hn => simpa [State.talkHandsets, CallRec.holds_iff] using hn

/-- A handset placed at the end of a joined list. -/
theorem State.setJoined_keeps {s : State} {p : Pos} {h : Handset} (g : Grp) (left : Bool) (hn : (p, h) ∉ s.talkHandsets) :
    s.Keeps (s.setJoined g ((s.group g).joined ++ [(p, h)]) p left) := by
  refine ⟨id, fun ⟨h1, h2⟩ => ⟨h1, ?_⟩⟩
  have hp : (s.setJoined g ((s.group g).joined ++ [(p, h)]) p left).talkHandsets.Perm ((p, h) :: s.talkHandsets) := by
    refine (flatMap_finRange_perm_cons (i := g) (x := (p, h)) (f := fun g => (s.group g).joined) ?_ fun j hj => ?_).append_right _
    · simp [State.setJoined]
    · simp [State.setJoined, Ne.symm hj]
  exact hp.nodup_iff.mpr (List.nodup_cons.mpr ⟨hn, h2⟩)

/-- A handset placed in a call record. -/
theorem State.setCall_keeps {s : State} {c : CallNo} {r : CallRec} {p : Pos} {h : Handset}
    (hr : r.handsets = (s.call c).handsets ++ [(p, h)]) (hn : (p, h) ∉ s.talkHandsets) : s.Keeps (s.setCall c r) := by
  refine ⟨id, fun ⟨h1, h2⟩ => ⟨h1, ?_⟩⟩
  have hp : (s.setCall c r).talkHandsets.Perm ((p, h) :: s.talkHandsets) := by
    refine .trans (List.Perm.append_left _ (flatMap_finRange_perm_cons (i := c) (x := (p, h))
      (f := fun c => (s.call c).handsets) ?_ fun j hj => ?_)) List.perm_middle
    · simp [hr]
    · simp [Ne.symm hj]
  exact hp.nodup_iff.mpr (List.nodup_cons.mpr ⟨hn, h2⟩)

theorem State.gfuJoin_keeps (s : State) (p : Pos) (h : Handset) (v : Via) (g : Grp) : s.Keeps (s.gfuJoin p h v g) := by
  unfold State.gfuJoin
  split
  · exact ((Frees.refl s).emit _).keeps
  · next e => exact (s.setJoined_keeps g false (State.gfuHolds_none (Option.or_eq_none_iff.mp e).2)).then_owners rfl

/-- The record that a CALL_POSITION takes is FREE, and the caller's handset stands nowhere (R68). -/
theorem State.callCheck_inr {s : State} {p : Pos} {h : Handset} {callee : Byte} {q : Pos} {c : CallNo}
    (e : s.callCheck p h callee = .inr (q, c)) : s.call c = .free ∧ (p, h) ∉ s.talkHandsets := by
  unfold State.callCheck at e
  iterate 4
    split at e
    · cases e
  split at e
  · cases e
  next hf =>
  iterate 2
    split at e
    · cases e
  next hh =>
  cases e
  exact ⟨by simpa using List.find?_some hf, State.gfuHolds_none hh⟩

theorem State.gfuCall_keeps (s : State) (p : Pos) (h : Handset) (v : Via) (callee : Byte) (voice : Bool) :
    s.Keeps (s.gfuCall p h v callee voice) := by
  unfold State.gfuCall
  split
  · exact ((Frees.refl s).emit _).keeps
  · next e =>
    obtain ⟨hf, hn⟩ := State.callCheck_inr e
    exact (State.setCall_keeps (by simp [hf, CallRec.handsets]) hn).then_owners rfl

theorem State.gfuAnswer_keeps (s : State) (p : Pos) (h : Handset) (v : Via) (c : CallNo) : s.Keeps (s.gfuAnswer p h v c) := by
  have refuse (o : Sends) : s.Keeps (s.emit o) := ((Frees.refl s).emit o).keeps
  unfold State.gfuAnswer
  split
  · next hc =>
    split
    · split
      · exact refuse _
      · next e => exact (State.setCall_keeps (by simp [hc, CallRec.handsets]) (State.gfuHolds_none e)).then_owners rfl
    · exact refuse _
  · exact refuse _

/-! ### Every command -/

theorem execTakeLineAtLcu_keeps {p : Pos} {h : Handset} {s t : State} (e : execTakeLineAtLcu p h s = .next t) : s.Keeps t := by
  unfold execTakeLineAtLcu at e
  repeat' split at e
  all_goals cases e
  case h_1.isFalse he _ => exact (Frees.of_owners (State.nextForHandset_owners he)).keeps.trans (State.lcuTake_keeps ..)
  all_goals exact (Frees.refl s).keeps

theorem execReservationAnswer_keeps {p : Pos} {h : Handset} {s t : State} (e : execReservationAnswer p h s = .next t) :
    s.Keeps t := by
  unfold execReservationAnswer at e
  split at e
  · next a answers w waiting _ _ =>
    cases e
    have hs : s.Frees { s with chan := { s.chan with fromRtu := answers }, lcu := { s.lcu with waiting := waiting } } :=
      .of_lines (fun _ => .refl _) rfl
    exact hs.keeps.trans (State.lcuAnswer_keeps ..)
  · cases e
    exact (Frees.refl s).keeps

theorem execJoinGroupAtGfu_keeps {p : Pos} {h : Handset} {s t : State} (e : execJoinGroupAtGfu p h s = .next t) : s.Keeps t := by
  unfold execJoinGroupAtGfu at e
  split at e <;> cases e
  · next he => exact (Frees.of_owners (State.nextForHandset_owners he)).keeps.trans (State.gfuJoin_keeps ..)
  · exact (Frees.refl s).keeps

theorem execCallPositionAtGfu_keeps {p : Pos} {h : Handset} {s t : State} (e : execCallPositionAtGfu p h s = .next t) :
    s.Keeps t := by
  unfold execCallPositionAtGfu at e
  split at e <;> cases e
  · next he => exact (Frees.of_owners (State.nextForHandset_owners he)).keeps.trans (State.gfuCall_keeps ..)
  · exact (Frees.refl s).keeps

theorem execAnswerCallAtGfu_keeps {p : Pos} {h : Handset} {s t : State} (e : execAnswerCallAtGfu p h s = .next t) :
    s.Keeps t := by
  unfold execAnswerCallAtGfu at e
  split at e <;> cases e
  · next he => exact (Frees.of_owners (State.nextForHandset_owners he)).keeps.trans (State.gfuAnswer_keeps ..)
  · exact (Frees.refl s).keeps

theorem exec_keeps {i : Instr} {s t : State} (e : exec i s = .next t) : s.Keeps t := by
  by_cases hi : Instr.completes i = false
  · exact ((exec_frees hi s).frees t e).keeps
  · cases i with
    | takeLineAtLcu => exact execTakeLineAtLcu_keeps e
    | reservationAnswer => exact execReservationAnswer_keeps e
    | joinGroupAtGfu => exact execJoinGroupAtGfu_keeps e
    | callPositionAtGfu => exact execCallPositionAtGfu_keeps e
    | answerCallAtGfu => exact execAnswerCallAtGfu_keeps e
    | _ => exact absurd rfl hi

theorem step_keeps {s t : State} (e : step s = .next t) : s.Keeps t := by
  unfold step at e
  split at e
  · cases e
    exact s.tick_frees.keeps
  · next c rest _ =>
    have h : s.Frees { s with pending := rest } := .of_owners rfl
    exact h.keeps.trans (exec_keeps e)

/-- Settles O58: every command loses handsets at most, or places one that stood nowhere (`exec_keeps`). -/
theorem linesStaySound : Obligations.LinesStaySound := fun _ _ e => ⟨(step_keeps e).sound, (step_keeps e).once⟩

end Sys2Proof.Machine
end

section
/-! Power-on reset, record by record. -/

namespace Sys2Proof.Machine

section PoweredOn
variable (far : Vector Bool 64) (present : Vector Bool 16) (cs : List Instr)

@[simp] theorem State.poweredOn_port (n : Port) : (State.poweredOn far present cs).port n = PortRec.reset :=
  Table.look_fill ..
@[simp] theorem State.poweredOn_pos (p : Pos) : (State.poweredOn far present cs).pos p = PosRec.reset := Table.look_fill ..
@[simp] theorem State.poweredOn_line (l : Line) :
    (State.poweredOn far present cs).line l = LineRec.reset (far.get l) := Table.look_build ..
@[simp] theorem State.poweredOn_row (l : Line) (p : Pos) :
    ((State.poweredOn far present cs).row l).look p = { mode := .none, barred := true } := by
  simp [State.poweredOn, State.row, Lcu.reset]
@[simp] theorem State.poweredOn_group (g : Grp) : (State.poweredOn far present cs).group g = GroupRec.reset :=
  Table.look_fill ..
@[simp] theorem State.poweredOn_call (c : CallNo) : (State.poweredOn far present cs).call c = .free := Table.look_fill ..
@[simp] theorem State.poweredOn_leg (k : Leg) :
    (State.poweredOn far present cs).leg k = { list := [], idle := 0, level := 128, clip := 0, out := 0 } :=
  Table.look_fill ..
@[simp] theorem State.poweredOn_tap (r : TapNo) : (State.poweredOn far present cs).tap r =
    { target := .none, receive := false, send := false, incoming := false, outgoing := false, enabled := false,
      lock := .opened, coverage := [], present := present.get r } := Table.look_build ..
@[simp] theorem State.poweredOn_stepRec (k : StepNo) : (State.poweredOn far present cs).stepRec k = StepRec.reset :=
  Table.look_fill ..
@[simp] theorem State.poweredOn_runOf (p : Pos) : (State.poweredOn far present cs).runOf p = ⟨.idle, 0⟩ :=
  Table.look_fill ..
@[simp] theorem State.poweredOn_events (n : Port) : (State.poweredOn far present cs).events n =
    { queue := [], masked := Table.fill false, marks := Table.fill false, poll := false, up := false } :=
  Table.look_fill ..
@[simp] theorem State.poweredOn_gfu : (State.poweredOn far present cs).gfu = Gfu.reset := rfl
@[simp] theorem State.poweredOn_cmx : (State.poweredOn far present cs).cmx = Cmx.reset := rfl
@[simp] theorem State.poweredOn_rtu : (State.poweredOn far present cs).rtu = Rtu.reset present := rfl

end PoweredOn

/-- Settles O4: the state after the reset is `State.poweredOn`, whose tables hold one record everywhere. -/
theorem powerOnReset : Obligations.PowerOnReset := by
  intro s far present
  refine ⟨State.poweredOn far present s.pending, rfl, rfl, rfl, rfl, rfl, rfl, rfl, fun n => ?port, fun p => ?pos, rfl,
    fun l => ⟨?line, fun p => ?row⟩, fun g => ?group, fun c => ?call, rfl, fun p => ?images, fun k => ?leg, rfl, rfl,
    fun i => ?detector, rfl, rfl, rfl, rfl, fun r => ?tap, fun p => ?fault, fun k => ?stepRec, fun p => ?run, fun n => ?events⟩
  case port => exact State.poweredOn_port ..
  case pos => exact State.poweredOn_pos ..
  case line => exact State.poweredOn_line ..
  case row => exact State.poweredOn_row ..
  case group => exact State.poweredOn_group ..
  case call => exact State.poweredOn_call ..
  case images => simp [Gfu.reset]
  case leg => simp [Cmx.reset]
  case detector => simp [Cmx.reset, Detector.reset]
  case tap => exact State.poweredOn_tap ..
  case fault => simp [Rtu.reset]
  case stepRec => exact State.poweredOn_stepRec ..
  case run => exact State.poweredOn_runOf ..
  case events => exact State.poweredOn_events ..

end Sys2Proof.Machine
end

section
/-! A line that goes to RELEASING, the far end of a line and the expiries of its state timer (R7 to R21). -/

namespace Sys2Proof.Machine

/-! ### Into RELEASING -/

theorem Sends.and_given_mk (a : List Given) (b : Sends) :
    Sends.and { given := a } b = { b with given := a ++ b.given } := by simp [Sends.and]

/-- What the forced release of a line's handsets gives: the records, the notices and the releases of coverage (R11, R36). -/
def LineRec.forced (r : LineRec) (l : Line) (why : ReleaseReason) : Sends :=
  { given := r.connected.map fun c => ⟨.lcu, portOf c.pos, .handsetReleased l c.hs why⟩
    notices := r.connected.map fun c => .position c.pos
    fromLcu := r.connected.map fun c => .released c.pos c.hs (.line l)
    toRtu := (r.connected.filter fun c => c.covered).map fun c => .release c.pos c.hs l false }

theorem all_forceSends_connected (r : LineRec) (l : Line) (why : ReleaseReason) :
    Sends.all (r.connected.map (forceSends l why)) = r.forced l why := Sends.all_forceSends ..

/-- The two events of a line that goes to RELEASING with a guard count of 0, after what it sent itself (R9). -/
def guardPassed (l : Line) (row : Table 16 Appearance) (r : LineRec) : Sends :=
  { given := lineStates l row (toReleasing r) .none ++ lineStates l row (guardEnd (toReleasing r)) .none
    notices := [.line l, .line l] }

theorem guardCount_val_ne_zero {r : LineRec} (h : r.cfg.guardCount ≠ 0) : r.cfg.guardCount.val ≠ 0 :=
  fun e => h (Fin.ext e)

/-- A line that goes to RELEASING with a guard count above 0 stays there (R9). -/
theorem settleGuard_toReleasing_of_running {l : Line} {row : Table 16 Appearance} {r : LineRec} {o : Sends}
    (hs : r.state ≠ .releasing) (hg : r.cfg.guardCount ≠ 0) :
    settleGuard l row r (lineEvent l row r ⟨toReleasing r, o⟩ .none) =
      ⟨toReleasing r, o.and { given := lineStates l row (toReleasing r) .none, notices := [.line l] }⟩ := by
  rw [lineEvent_of_moved (.inl (by simpa [toReleasing_eq] using hs)), settleGuard_of_running]
  simp [toReleasing_eq, guardCount_val_ne_zero hg]

/-- With a guard count of 0 it passes through RELEASING in one step (R9). -/
theorem settleGuard_toReleasing_of_zero {l : Line} {row : Table 16 Appearance} {r : LineRec} {o : Sends}
    (hs : r.state ≠ .releasing) (hg : r.cfg.guardCount = 0) :
    settleGuard l row r (lineEvent l row r ⟨toReleasing r, o⟩ .none) =
      ⟨guardEnd (toReleasing r), o.and (guardPassed l row r)⟩ := by
  rw [lineEvent_of_moved (.inl (by simpa [toReleasing_eq] using hs)),
    settleGuard_of_zero hs (by simp [toReleasing_eq]) (by simp [toReleasing_eq, hg]), Sends.and_assoc]
  rfl

/-- A call that is cleared releases every handset; the line is RELEASING (R18, R19). -/
theorem clearCall_of_running {l : Line} {row : Table 16 Appearance} {r : LineRec} {why : ReleaseReason}
    (hs : r.state ≠ .releasing) (hg : r.cfg.guardCount ≠ 0) :
    clearCall l row r why = ⟨toReleasing r,
      (r.forced l why).and { given := lineStates l row (toReleasing r) .none, notices := [.line l] }⟩ := by
  rw [clearCall, all_forceSends_connected, settleGuard_toReleasing_of_running hs hg]

theorem clearCall_of_zero {l : Line} {row : Table 16 Appearance} {r : LineRec} {why : ReleaseReason}
    (hs : r.state ≠ .releasing) (hg : r.cfg.guardCount = 0) :
    clearCall l row r why = ⟨guardEnd (toReleasing r), (r.forced l why).and (guardPassed l row r)⟩ := by
  rw [clearCall, all_forceSends_connected, settleGuard_toReleasing_of_zero hs hg]

/-! ### The far end (R7, R8) -/

theorem exec_qualifyExpiry_of_ran {s : State} {l : Line} (h : (s.line l).qualifyTimer = some 0) :
    exec (.qualifyExpiry l) s = .next (s.applyLine l (qualifyEnd l (s.row l) (s.line l))) := by
  change execQualifyExpiry l s = _
  simp [execQualifyExpiry, Timer.ran, h]

/-- A candidate that differs from the qualified value replaces it, is reported, and reaches the line (R7, R8). -/
theorem qualifyEnd_of_changed {l : Line} {row : Table 16 Appearance} {r : LineRec} {v : Bool} (hc : r.candidate = some v)
    (hq : r.qualified = !v) :
    qualifyEnd l row r =
      let q : LineRec := { r with candidate := none, qualifyTimer := none, qualified := v }
      let fx := if v then qualifiedRise l row q else qualifiedFall l row q
      { fx with out := (record .lcu mgmt (.farStatus l v)).and fx.out } := by
  have hne : v ≠ r.qualified := by cases v <;> simp [hq]
  simp [qualifyEnd, hc, hne]

/-- The whole step of a rise: the change of the line, and FAR_STATUS before what the line sends. -/
theorem exec_qualifyExpiry_of_rise {s : State} {l : Line} {r : LineRec} {fx : LineFx} (hr : s.line l = r)
    (ht : r.qualifyTimer = some 0) (hc : r.candidate = some true) (hq : r.qualified = false)
    (hfx : qualifiedRise l (s.row l) { r with candidate := none, qualifyTimer := none, qualified := true } = fx) :
    exec (.qualifyExpiry l) s = .next ((s.setLine l fx.line).emit
      { fx.out with given := ⟨.lcu, mgmt, .farStatus l true⟩ :: fx.out.given }) := by
  subst hr
  rw [exec_qualifyExpiry_of_ran ht, qualifyEnd_of_changed hc hq]
  simp [hfx, State.applyLine, record, Sends.and_given_mk]

theorem exec_qualifyExpiry_of_fall {s : State} {l : Line} {r : LineRec} {fx : LineFx} (hr : s.line l = r)
    (ht : r.qualifyTimer = some 0) (hc : r.candidate = some false) (hq : r.qualified = true)
    (hfx : qualifiedFall l (s.row l) { r with candidate := none, qualifyTimer := none, qualified := false } = fx) :
    exec (.qualifyExpiry l) s = .next ((s.setLine l fx.line).emit
      { fx.out with given := ⟨.lcu, mgmt, .farStatus l false⟩ :: fx.out.given }) := by
  subst hr
  rw [exec_qualifyExpiry_of_ran ht, qualifyEnd_of_changed hc hq]
  simp [hfx, State.applyLine, record, Sends.and_given_mk]

/-- A HOOT or UNUSED line, and one that is OUT_OF_SERVICE, takes no notice of its far end (R7, R22, R23). -/
theorem qualifiedRise_of_deaf {l : Line} {row : Table 16 Appearance} {r : LineRec}
    (h : r.state = .outOfService ∨ r.cfg.kind = .hoot ∨ r.cfg.kind = .unused) : qualifiedRise l row r = ⟨r, {}⟩ := by
  rcases h with h | h | h
  · cases hk : r.cfg.kind <;> simp [qualifiedRise, h, hk]
  · simp [qualifiedRise, h]
  · simp [qualifiedRise, h]

theorem qualifiedFall_of_deaf {l : Line} {row : Table 16 Appearance} {r : LineRec}
    (h : r.state = .outOfService ∨ r.cfg.kind = .hoot ∨ r.cfg.kind = .unused) : qualifiedFall l row r = ⟨r, {}⟩ := by
  rcases h with h | h | h
  · cases hk : r.cfg.kind <;> simp [qualifiedFall, h, hk]
  · simp [qualifiedFall, h]
  · simp [qualifiedFall, h]

/-- What the far end of a line does that is not a qualified change of a line in use (R7, R8). -/
theorem exec_qualifyExpiry_of_deaf {s : State} {l : Line} {r : LineRec} {v : Bool} (hr : s.line l = r)
    (ht : r.qualifyTimer = some 0) (hc : r.candidate = some v) (hq : r.qualified = !v)
    (h : r.state = .outOfService ∨ r.cfg.kind = .hoot ∨ r.cfg.kind = .unused) :
    exec (.qualifyExpiry l) s = .next ((s.setLine l
      { r with candidate := none, qualifyTimer := none, qualified := v }).emit
        { given := [⟨.lcu, mgmt, .farStatus l v⟩] }) := by
  cases v with
  | true => exact exec_qualifyExpiry_of_rise hr ht hc hq (qualifiedRise_of_deaf h)
  | false => exact exec_qualifyExpiry_of_fall hr ht hc hq (qualifiedFall_of_deaf h)

/-- Settles O8: the qualified change is decided by kind and state, and each case is one result of the line's own rules. -/
theorem farSeizeMovesTheLine : Obligations.FarSeizeMovesTheLine := by
  refine ⟨?record, ?rise, ?fall⟩
  case record =>
    rintro s l r v rfl
    refine ⟨fun h => ?_, fun ht hc hq => ?_, exec_qualifyExpiry_of_deaf rfl, fun ht => ?_, fun h => ?_⟩
    · change execFarSeizeChange l v s = _
      simp [execFarSeizeChange, h, startTimer]
    · rw [exec_qualifyExpiry_of_ran ht]
      simp [qualifyEnd, hc, hq, State.applyLine]
    · change execQualifyExpiry l s = _
      simp [execQualifyExpiry, Timer.ran, ht]
    · change execFarSeizeChange l v s = _
      simp [execFarSeizeChange, h]
  case rise =>
    rintro s l r q far hr ht hc hq rfl rfl
    refine ⟨fun hk hs x hx => ?_, fun hk hs => ?_, fun hk hs => ?_, fun hk hs => ?_, fun hk hs x hx => ?_,
      fun hk hs x hx => ?_, fun h => ?_⟩
    · refine exec_qualifyExpiry_of_rise hr ht hc hq (fx := ⟨x, { given := _, notices := _ }⟩) ?_
      simp [qualifiedRise, hk, hs, toIncoming_eq, lineEvent_of_moved, lineStates, hx]
    · refine exec_qualifyExpiry_of_rise hr ht hc hq (fx := ⟨_, {}⟩) ?_
      simp [qualifiedRise, hk, hs, startTimer]
    · refine exec_qualifyExpiry_of_rise hr ht hc hq (fx := ⟨_, { given := _ }⟩) ?_
      simp only [qualifiedRise, hk, hs]
      rfl
    · refine exec_qualifyExpiry_of_rise hr ht hc hq (fx := ⟨_, { given := _ }⟩) ?_
      simp only [qualifiedRise, hk, hs]
      rfl
    · refine exec_qualifyExpiry_of_rise hr ht hc hq (fx := ⟨x, { given := _, notices := _ }⟩) ?_
      simp [qualifiedRise, hk, hs, toIncoming_eq, lineEvent_of_moved, lineStates, hx]
    · refine exec_qualifyExpiry_of_rise hr ht hc hq (fx := ⟨x, { given := _, notices := _ }⟩) ?_
      simp [qualifiedRise, hk, hs, lineEvent_of_moved, lineStates, hx]
    · refine exec_qualifyExpiry_of_rise hr ht hc hq (fx := ⟨_, {}⟩) ?_
      rcases h with ⟨hk, hs⟩ | ⟨hk, hs | hs | hs | hs⟩ <;> simp [qualifiedRise, hk, hs]
  case fall =>
    rintro s l r q far hr ht hc hq rfl rfl
    refine ⟨fun h => ?_, fun hk hs x hx => ?_, fun hk hs hg x hx => ?_, fun hk hs hg x hx => ?_,
      fun hk hg x y hx hy => ⟨fun hs => ?_, fun hs => ?_⟩⟩
    · refine exec_qualifyExpiry_of_fall hr ht hc hq (fx := ⟨_, {}⟩) ?_
      rcases h with hk | ⟨hk, hs | hs | hs⟩
      · simp [qualifiedFall, hk]
      all_goals simp [qualifiedFall, hk, hs]
    · refine exec_qualifyExpiry_of_fall hr ht hc hq (fx := ⟨x, { given := _, notices := _ }⟩) ?_
      simp [qualifiedFall, hk, hs, toIdle_eq, lineEvent_of_moved, lineStates, hx]
    · rw [exec_qualifyExpiry_of_fall hr ht hc hq
        (by simp only [qualifiedFall, hk, hs]; exact clearCall_of_running nofun hg)]
      simp [LineRec.forced, hx, toReleasing_eq]
    · rw [exec_qualifyExpiry_of_fall hr ht hc hq
        (by simp only [qualifiedFall, hk, hs]; exact settleGuard_toReleasing_of_running nofun hg)]
      simp [hx, toReleasing_eq]
    · rw [exec_qualifyExpiry_of_fall hr ht hc hq
        (by simp only [qualifiedFall, hk, hs]; exact clearCall_of_zero nofun hg)]
      simp [LineRec.forced, guardPassed, guardEnd_eq, hx, hy, hg, toReleasing_eq]
    · rw [exec_qualifyExpiry_of_fall hr ht hc hq
        (by simp only [qualifiedFall, hk, hs]; exact settleGuard_toReleasing_of_zero nofun hg)]
      simp [guardPassed, guardEnd_eq, hx, hy, hg, toReleasing_eq]

end Sys2Proof.Machine
end

section
/-! The expiries of a line's state timer (R9, R13, R15, R16, R18, R20, R21). -/

namespace Sys2Proof.Machine

/-! ### Whether the expiry is one (R9) -/

theorem exec_answerExpiry (s : State) (l : Line) :
    exec (.answerExpiry l) s =
      if (s.line l).stateTimer = some 0 ∧ ((s.line l).state = .incoming ∨ (s.line l).state = .outgoing) then
        .next (s.applyLine l (answerEnd l (s.row l) (s.line l)))
      else .next s := by
  change execAnswerExpiry l s = _
  simp [execAnswerExpiry, Timer.ran]

theorem exec_ringOutExpiry (s : State) (l : Line) :
    exec (.ringOutExpiry l) s =
      if (s.line l).stateTimer = some 0 ∧ (s.line l).state = .connected then
        .next (s.applyLine l (ringEnd l (s.line l)))
      else .next s := by
  change execRingOutExpiry l s = _
  simp [execRingOutExpiry, Timer.ran]

theorem exec_holdRecallExpiry (s : State) (l : Line) :
    exec (.holdRecallExpiry l) s =
      if (s.line l).stateTimer = some 0 ∧ (s.line l).state = .held then
        .next (s.applyLine l (recallEnd l (s.row l) (s.line l)))
      else .next s := by
  change execHoldRecallExpiry l s = _
  simp [execHoldRecallExpiry, Timer.ran]

theorem exec_guardExpiry (s : State) (l : Line) :
    exec (.guardExpiry l) s =
      if (s.line l).stateTimer = some 0 ∧ (s.line l).state = .releasing then
        .next (s.applyLine l (lineEvent l (s.row l) (s.line l) { line := guardEnd (s.line l) } .none))
      else .next s := by
  change execGuardExpiry l s = _
  simp [execGuardExpiry, Timer.ran]

/-! ### What the expiry does -/

theorem answerEnd_of_incoming {l : Line} {row : Table 16 Appearance} {r : LineRec} (hs : r.state = .incoming) :
    answerEnd l row r = ⟨toIdle r, { given := lineStates l row (toIdle r) .missed, notices := [.line l] }⟩ := by
  simp only [answerEnd, hs]
  rw [lineEvent_of_moved (.inl (by simp [toIdle_eq, hs])), Sends.nothing_and]

theorem answerEnd_of_outgoing {l : Line} {row : Table 16 Appearance} {r : LineRec} (hs : r.state = .outgoing) :
    answerEnd l row r = clearCall l row r .noAnswer := by simp only [answerEnd, hs]

/-- The end of the guard is one event of a RELEASING line (R16, R20). -/
theorem lineEvent_guardEnd {l : Line} {row : Table 16 Appearance} {r : LineRec} (hs : r.state = .releasing) :
    lineEvent l row r { line := guardEnd r } .none =
      ⟨guardEnd r, { given := lineStates l row (guardEnd r) .none, notices := [.line l] }⟩ := by
  rw [lineEvent_of_moved (.inl (hs ▸ (guardEnd_state_ne_releasing r).symm)), Sends.nothing_and]

/-- Settles O9: an expiry acts only on a timer that has run out in its own state, and then as the line's own rules give. -/
theorem stateTimerExpiries : Obligations.StateTimerExpiries := by
  refine ⟨?early, ?due⟩
  case early =>
    rintro s l r rfl
    rw [exec_answerExpiry, exec_ringOutExpiry, exec_holdRecallExpiry, exec_guardExpiry]
    refine ⟨fun h => if_neg ?_, fun h => if_neg ?_, fun h => if_neg ?_, fun h => if_neg ?_⟩ <;> tauto
  case due =>
    rintro s l r rfl ht
    rw [exec_answerExpiry, exec_ringOutExpiry, exec_holdRecallExpiry, exec_guardExpiry]
    refine ⟨fun _ hs x hx => ?missed, fun hk hs hg x hx => ?noAnswer, fun hk hs hg x y hx hy => ?noAnswerNoGuard,
      fun hs => ?ringDone, fun hs => ?recallDue, fun hs x hx => ?guard⟩
    case missed =>
      rw [if_pos ⟨ht, .inl hs⟩, answerEnd_of_incoming hs, hx]
      rfl
    case noAnswer =>
      rw [if_pos ⟨ht, .inr hs⟩, answerEnd_of_outgoing hs, clearCall_of_running (by simp [hs]) hg, hx]
      simp [State.applyLine, LineRec.forced, toReleasing_eq, Sends.and]
    case noAnswerNoGuard =>
      rw [if_pos ⟨ht, .inr hs⟩, answerEnd_of_outgoing hs, clearCall_of_zero (by simp [hs]) hg, hx, hy]
      simp [State.applyLine, LineRec.forced, guardPassed, guardEnd_eq, toReleasing_eq, Sends.and, hg, hk]
    case ringDone =>
      rw [if_pos ⟨ht, hs⟩]
      rfl
    case recallDue =>
      rw [if_pos ⟨ht, hs⟩]
      rfl
    case guard =>
      rw [if_pos ⟨ht, hs⟩, lineEvent_guardEnd hs, hx, guardEnd_eq]
      rfl

end Sys2Proof.Machine
end

section
/-! LINE_CONFIG and LINE_SERVICE (R5, R23, R24). -/

namespace Sys2Proof.Machine

/-! ### LINE_CONFIG at a line (R5) -/

/-- The removal notices of a line that no position can listen to any more. -/
def offSpeakers (l : Line) : List ToPtb := (List.finRange 16).map fun p => .remove p (.line l)

/-- A configuration of the same kind moves no state; CMX hears of a level or an idle sample that changed. -/
theorem configLine_of_same_kind {l : Line} {row : Table 16 Appearance} {r : LineRec} {cfg : LineConfig}
    (hk : cfg.kind = r.cfg.kind) (hu : cfg.kind ≠ .unused ∨ r.state = .outOfService) :
    configLine l row r cfg = ⟨{ r with cfg := cfg },
      { notices := if cfg.receiveLevel = r.cfg.receiveLevel ∧ cfg.bridgeLevel = r.cfg.bridgeLevel
            ∧ cfg.sendLevel = r.cfg.sendLevel ∧ cfg.idleSample = r.cfg.idleSample
          then [] else [.line l] }⟩ := by
  have hn : ¬(r.state = .idle ∧ cfg.kind = .unused) := by
    rintro ⟨h1, h2⟩
    rcases hu with h | h
    · exact h h2
    · simp [h1] at h
  simp only [configLine, hk.symm, ne_eq, not_true, decide_false, Bool.false_eq_true, false_and, and_false, if_false,
    if_neg hn]
  rw [lineEvent_of_unmoved (old := r) (new := { r with cfg := cfg }) rfl rfl rfl rfl]
  split
  · next h => rw [if_neg (by tauto)]; simp [notice]
  · next h => rw [if_pos (by tauto)]

/-- A change of kind that leaves the state gives CMX one notice, beside the removals. -/
theorem configLine_of_changed_kind {l : Line} {row : Table 16 Appearance} {r : LineRec} {cfg : LineConfig}
    (hk : cfg.kind ≠ r.cfg.kind) (hu : ¬(r.state = .idle ∧ cfg.kind = .unused))
    (hq : ¬(r.state = .idle ∧ cfg.kind ≠ .hoot ∧ r.qualified = true)) :
    configLine l row r cfg = ⟨{ r with cfg := cfg },
      { notices := [.line l]
        fromLcu := if cfg.kind = .hoot ∨ cfg.kind = .unused then offSpeakers l else [] }⟩ := by
  have hq' : ¬(r.state = .idle ∧ decide (r.cfg.kind ≠ cfg.kind) = true ∧ cfg.kind ≠ .hoot ∧ r.qualified = true) := by tauto
  simp only [configLine, if_neg hu, if_neg hq']
  rw [lineEvent_of_unmoved (old := r) (new := { r with cfg := cfg }) rfl rfl rfl rfl, if_pos ⟨.inl hk, trivial⟩]
  by_cases h : cfg.kind = .hoot ∨ cfg.kind = .unused <;> simp [h, hk.symm, notice, offLine, offSpeakers, Sends.and]

/-- An IDLE line that becomes UNUSED goes OUT_OF_SERVICE. -/
theorem configLine_to_unused {l : Line} {row : Table 16 Appearance} {r : LineRec} {cfg : LineConfig}
    (hs : r.state = .idle) (hk : cfg.kind ≠ r.cfg.kind) (hu : cfg.kind = .unused) :
    configLine l row r cfg = ⟨toOutOfService { r with cfg := cfg },
      { given := lineStates l row (toOutOfService { r with cfg := cfg }) .none
        notices := [.line l]
        fromLcu := offSpeakers l }⟩ := by
  simp only [configLine, hs, hu, and_self, if_true]
  rw [lineEvent_of_moved (.inl (by simp [toOutOfService_eq, hs])), if_neg (by simp [toOutOfService_eq])]
  have hc : r.cfg.kind ≠ .unused := hu ▸ hk.symm
  simp [hc, offLine, offSpeakers, Sends.and]

/-- An IDLE line that becomes RINGDOWN or AUTOMATIC takes a far seize that is high at once. -/
theorem configLine_to_incoming {l : Line} {row : Table 16 Appearance} {r : LineRec} {cfg : LineConfig}
    (hs : r.state = .idle) (hk : cfg.kind ≠ r.cfg.kind) (hc : cfg.kind = .ringdown ∨ cfg.kind = .automatic)
    (hq : r.qualified = true) :
    configLine l row r cfg = ⟨toIncoming { r with cfg := cfg },
      { given := lineStates l row (toIncoming { r with cfg := cfg }) .none, notices := [.line l] }⟩ := by
  have hu : cfg.kind ≠ .unused := by rcases hc with h | h <;> simp [h]
  have hh : cfg.kind ≠ .hoot := by rcases hc with h | h <;> simp [h]
  simp only [configLine, hs, hu, hh, hq, hk.symm, ne_eq, not_false_eq_true, decide_true, and_false, and_self, or_self, if_false,
    if_true]
  rw [lineEvent_of_moved (.inl (by simp [toIncoming_eq, hs])), if_neg (by simp [toIncoming_eq]), Sends.nothing_and]

/-! ### The request (R5, R62) -/

/-- A request that its owner may not take yet stays where it is. -/
theorem State.dispatchIf_of_not_ok {s : State} {n : Port} {k : ReqKind} {f : Frame} (h : s.Offers n k f)
    {ok : List Byte → Bool} (hok : ok f.body = false) (own : List Byte → State → State) : s.dispatchIf k n ok own = s := by
  obtain ⟨h1, h2, h3⟩ := h
  simp [State.dispatchIf, State.awaits_of_heads h1, hok, h2, h3]

theorem State.lineHeld_of_num {s : State} {b : Byte} {l : Line} (h : numOf 64 b = some l) :
    s.lineHeld b = (s.line l).attachHold := by simp [State.lineHeld, h]

/-- A well-formed LINE_CONFIG whose line is not held reaches the line. -/
theorem exec_lineConfig_of_offers {s : State} {n : Port} {f : Frame} {l : Line} {cfg : LineConfig}
    (hf : s.Offers n .lineConfig f) (hh : s.lineHeld (byteAt f.body 0) = false) (hl : numOf 64 (byteAt f.body 0) = some l)
    (hc : lineConfigOf f.body = some cfg) :
    exec (.lineConfig n) s = .next
      (if (s.line l).state = .idle ∨ (s.line l).state = .outOfService then
        ((s.takeFrame n f).applyLine l (configLine l (s.row l) (s.line l) cfg)).answer (.port n) .accepted
      else (s.takeFrame n f).answer (.port n) .lineBusy) := by
  change execLineConfig n s = _
  rw [execLineConfig, State.dispatchIf_of_offers hf (by simp [hh])]
  simp only [State.lineConfig, hl, hc]
  rfl

/-- The same, of a line whose result is known. -/
theorem exec_lineConfig_of_taken {s : State} {n : Port} {f : Frame} {l : Line} {cfg : LineConfig} {fx : LineFx}
    (hf : s.Offers n .lineConfig f) (hh : s.lineHeld (byteAt f.body 0) = false) (hl : numOf 64 (byteAt f.body 0) = some l)
    (hc : lineConfigOf f.body = some cfg) (hs : (s.line l).state = .idle ∨ (s.line l).state = .outOfService)
    (hfx : configLine l (s.row l) (s.line l) cfg = fx) :
    exec (.lineConfig n) s = .next ((((s.takeFrame n f).setLine l fx.line).emit fx.out).answer (.port n) .accepted) := by
  rw [exec_lineConfig_of_offers hf hh hl hc, if_pos hs, hfx]
  rfl

/-- Settles O10: the kinds before and after decide which of the line's four results it is. -/
theorem lineConfigReplacesTogether : Obligations.LineConfigReplacesTogether := by
  refine ⟨?sameKind, ?newKind, ?outOfService⟩
  case sameKind =>
    intro s n f hf hh
    refine ⟨fun hb => ?bad, fun l cfg hl hc => ⟨fun h1 h2 => ?busy, fun hs hk hu => ?taken, lineConfigOf_clamped hc⟩⟩
    case bad =>
      change execLineConfig n s = _
      rw [execLineConfig, State.dispatchIf_of_offers hf (by simp [hh])]
      rcases hb with hb | hb
      · simp [State.lineConfig, hb]
      · cases h : numOf 64 (byteAt f.body 0) <;> simp [State.lineConfig, hb, h]
    case busy => rw [exec_lineConfig_of_offers hf hh hl hc, if_neg (by simp [h1, h2])]
    case taken => exact exec_lineConfig_of_taken hf hh hl hc hs (configLine_of_same_kind hk hu)
  case newKind =>
    rintro s n f l cfg r hf hh hl hc rfl hs hk
    refine ⟨fun hu x hx => ?toUnused, fun hu => ?toHoot, fun hu hq x hx => ?toIncoming, fun hu hq => ?staysIdle⟩
    case toUnused =>
      rw [hx]
      exact exec_lineConfig_of_taken hf hh hl hc (.inl hs) (configLine_to_unused hs hk hu)
    case toHoot =>
      rw [exec_lineConfig_of_taken hf hh hl hc (.inl hs) (configLine_of_changed_kind hk (by simp [hu]) (by simp [hu]))]
      simp [hu, offSpeakers]
    case toIncoming =>
      rw [hx]
      exact exec_lineConfig_of_taken hf hh hl hc (.inl hs) (configLine_to_incoming hs hk hu hq)
    case staysIdle =>
      rw [exec_lineConfig_of_taken hf hh hl hc (.inl hs)
        (configLine_of_changed_kind hk (by rcases hu with h | h <;> simp [h]) (by simp [hq]))]
      rcases hu with h | h <;> simp [h]
  case outOfService =>
    rintro s n f l cfg r hf hl hc rfl
    refine ⟨fun hh => ?held, fun hh hs hk => ?taken⟩
    case held =>
      change execLineConfig n s = _
      rw [execLineConfig, State.dispatchIf_of_not_ok hf (by simp [State.lineHeld_of_num hl, hh])]
    case taken =>
      exact exec_lineConfig_of_taken hf (State.lineHeld_of_num hl ▸ hh) hl hc (.inr hs)
        (configLine_of_changed_kind hk (by simp [hs]) (by simp [hs]))

end Sys2Proof.Machine
end

section
/-! LINE_SERVICE (R23, R24). -/

namespace Sys2Proof.Machine

/-! ### Service at a line -/

theorem serviceOut_eq {l : Line} {row : Table 16 Appearance} {r : LineRec} (hs : r.state ≠ .outOfService) :
    serviceOut l row r = ⟨toOutOfService r,
      ((r.forced l .removed).and (offLine l)).and
        { given := lineStates l row (toOutOfService r) .none, notices := [.line l] }⟩ := by
  rw [serviceOut, lineEvent_of_moved (.inl (by simpa [toOutOfService_eq] using hs)), all_forceSends_connected]

/-- A line that comes into service is IDLE; whether it goes on depends on its far end (R24). -/
theorem serviceIn_eq {l : Line} {row : Table 16 Appearance} {r : LineRec} (hs : r.state = .outOfService) :
    serviceIn l row r =
      let far := readFarSeize l row (toIdle r)
      ⟨far.line, Sends.and { given := lineStates l row (toIdle r) .none, notices := [.line l] } far.out⟩ := by
  rw [serviceIn, lineEvent_of_moved (.inl (by simp [toIdle_eq, hs])), Sends.nothing_and]

theorem readFarSeize_of_low {l : Line} {row : Table 16 Appearance} {r : LineRec} (h : r.qualified = false ∨ r.cfg.kind = .hoot) :
    readFarSeize l row r = ⟨r, {}⟩ := by
  unfold readFarSeize
  split
  · next hq =>
    exact qualifiedRise_of_deaf (.inr (.inl (h.resolve_left (by simp [hq]))))
  · rfl

theorem readFarSeize_of_high {l : Line} {row : Table 16 Appearance} {r : LineRec} (hs : r.state = .idle)
    (hq : r.qualified = true) (hk : r.cfg.kind = .ringdown ∨ r.cfg.kind = .automatic) :
    readFarSeize l row r = ⟨toIncoming r, { given := lineStates l row (toIncoming r) .none, notices := [.line l] }⟩ := by
  have hm : lineEvent l row r { line := toIncoming r } .none =
      ⟨toIncoming r, { given := lineStates l row (toIncoming r) .none, notices := [.line l] }⟩ := by
    rw [lineEvent_of_moved (.inl (by simp [toIncoming_eq, hs])), Sends.nothing_and]
  rw [readFarSeize, if_pos ⟨hs, hq⟩]
  rcases hk with hk | hk <;> simp only [qualifiedRise, hk, hs, hm]

/-! ### The request -/

theorem serviceSetting_of_ne {b : List Byte} {v : Byte} (h : byteAt b 1 ≠ v) : serviceSetting b v = false := by
  simp [serviceSetting, h]

theorem serviceSetting_of_none {b : List Byte} {v : Byte} (h : numOf 64 (byteAt b 0) = none) : serviceSetting b v = false := by
  simp [serviceSetting, h]

theorem exec_lineServiceOut_of_offers {s : State} {n : Port} {f : Frame} (hf : s.Offers n .lineService f)
    (h1 : serviceSetting f.body 1 = false) (hh : s.lineHeld (byteAt f.body 0) = false) :
    exec (.lineServiceOut n) s = .next (match numOf 64 (byteAt f.body 0) with
      | some l =>
        if byteAt f.body 1 = 0 then ((s.takeFrame n f).lineOut l).answer (.port n) .accepted
        else (s.takeFrame n f).answer (.port n) .badValue
      | none => (s.takeFrame n f).answer (.port n) .badValue) := by
  change execLineServiceOut n s = _
  exact congrArg Host.Outcome.next
    (State.dispatchIf_of_offers hf (by simp only [h1, hh, Bool.not_false, Bool.and_self]) _)

theorem exec_lineServiceIn_of_offers {s : State} {n : Port} {f : Frame} (hf : s.Offers n .lineService f)
    (h0 : serviceSetting f.body 0 = false) :
    exec (.lineServiceIn n) s = .next (match numOf 64 (byteAt f.body 0) with
      | some l =>
        if byteAt f.body 1 = 1 then (s.takeFrame n f).lineIn n l else (s.takeFrame n f).answer (.port n) .badValue
      | none => (s.takeFrame n f).answer (.port n) .badValue) := by
  change execLineServiceIn n s = _
  exact congrArg Host.Outcome.next (State.dispatchIf_of_offers hf (by simp only [h0, Bool.not_false]) _)

/-- LINE_SERVICE out of a line that is not held. -/
theorem exec_lineServiceOut_of_line {s : State} {n : Port} {f : Frame} {l : Line} (hf : s.Offers n .lineService f)
    (hl : numOf 64 (byteAt f.body 0) = some l) (h0 : byteAt f.body 1 = 0) (hh : (s.line l).attachHold = false) :
    exec (.lineServiceOut n) s = .next (((s.takeFrame n f).lineOut l).answer (.port n) .accepted) := by
  rw [exec_lineServiceOut_of_offers hf (serviceSetting_of_ne (by simp [h0])) (State.lineHeld_of_num hl ▸ hh)]
  simp [hl, h0]

theorem exec_lineServiceIn_of_line {s : State} {n : Port} {f : Frame} {l : Line} (hf : s.Offers n .lineService f)
    (hl : numOf 64 (byteAt f.body 0) = some l) (h1 : byteAt f.body 1 = 1) :
    exec (.lineServiceIn n) s = .next ((s.takeFrame n f).lineIn n l) := by
  rw [exec_lineServiceIn_of_offers hf (serviceSetting_of_ne (by simp [h1]))]
  simp [hl, h1]

/-- A line that comes into service, once it is known what its far end does. -/
theorem exec_lineServiceIn_of_out {s : State} {n : Port} {f : Frame} {l : Line} {fx : LineFx} (hf : s.Offers n .lineService f)
    (hl : numOf 64 (byteAt f.body 0) = some l) (h1 : byteAt f.body 1 = 1) (hk : (s.line l).cfg.kind ≠ .unused)
    (hs : (s.line l).state = .outOfService) (hfx : readFarSeize l (s.row l) (toIdle (s.line l)) = fx) :
    exec (.lineServiceIn n) s = .next ((((s.takeFrame n f).setLine l fx.line).emit
      (Sends.and { given := lineStates l (s.row l) (toIdle (s.line l)) .none, notices := [.line l] } fx.out)).answer (.port n)
        .accepted) := by
  rw [exec_lineServiceIn_of_line hf hl h1, State.lineIn, if_neg (by simpa using hk), if_neg (by simpa using hs)]
  simp only [State.takeFrame_line, State.takeFrame_row, serviceIn_eq hs, hfx]
  rfl

/-- Settles O11: the two requests reach their line, whose own rules give the rest. -/
theorem lineServiceOutAndIn : Obligations.LineServiceOutAndIn := by
  refine ⟨?line, ?bad⟩
  case line =>
    rintro s n f l r hf hl rfl
    refine ⟨fun h0 hh hs => ?alreadyOut, fun h0 hh hs hg x hx => ?out, fun h1 hk => ?unused, fun h1 hk hs => ?inService,
      fun h1 hk hs hq _ x hx => ?idle, fun h1 hk hs hq _ x y hx hy => ?incoming, fun h0 hh => ?held⟩
    case alreadyOut =>
      rw [exec_lineServiceOut_of_line hf hl h0 hh]
      simp [State.lineOut, hs]
    case out =>
      rw [exec_lineServiceOut_of_line hf hl h0 hh, State.lineOut, if_neg (by simpa using hs)]
      simp [hg, State.applyLine, serviceOut_eq hs, toOutOfService_eq, LineRec.forced, offLine, Sends.and, hx]
    case unused =>
      rw [exec_lineServiceIn_of_line hf hl h1, State.lineIn, if_pos (by simpa using hk)]
    case inService =>
      rw [exec_lineServiceIn_of_line hf hl h1, State.lineIn, if_neg (by simpa using hk), if_pos (by simpa using hs)]
    case idle =>
      rw [exec_lineServiceIn_of_out hf hl h1 hk hs (readFarSeize_of_low hq), hx, Sends.and_nothing]
      rfl
    case incoming =>
      rw [exec_lineServiceIn_of_out hf hl h1 (by rcases hk with h | h <;> simp [h]) hs (readFarSeize_of_high rfl hq hk), hy, hx]
      rfl
    case held =>
      change execLineServiceOut n s = _
      rw [execLineServiceOut, State.dispatchIf_of_not_ok hf (by simp [State.lineHeld_of_num hl, hh])]
  case bad =>
    intro s n f hf hb
    have hset : serviceSetting f.body 0 = false ∧ serviceSetting f.body 1 = false := by
      rcases hb with hb | ⟨h0, h1⟩
      · exact ⟨serviceSetting_of_none hb, serviceSetting_of_none hb⟩
      · exact ⟨serviceSetting_of_ne h0, serviceSetting_of_ne h1⟩
    refine ⟨?_, fun hheld => ?_⟩
    · rw [exec_lineServiceIn_of_offers hf hset.1]
      rcases hb with hb | ⟨-, h1⟩
      · simp [hb]
      · cases numOf 64 (byteAt f.body 0) <;> simp only [if_neg h1]
    · have hh : s.lineHeld (byteAt f.body 0) = false := by
        cases hl : numOf 64 (byteAt f.body 0) with
        | none => simp [State.lineHeld, hl]
        | some l => rw [State.lineHeld_of_num hl, hheld l hl]
      rw [exec_lineServiceOut_of_offers hf hset.2 hh]
      rcases hb with hb | ⟨h0, -⟩
      · simp [hb]
      · cases numOf 64 (byteAt f.body 0) <;> simp only [if_neg h0]

end Sys2Proof.Machine
end

section
/-! A take at LCU: its checks, its completion and the wait for coverage (R10, R38 to R40). -/

namespace Sys2Proof.Machine

/-- A message taken from the path to an owner moves that path alone. -/
theorem State.nextForHandset_eq {s t : State} {o : Owner} {p : Pos} {h : Handset} {m : ToOwner}
    (e : s.nextForHandset o p h = some (m, t)) : ∃ rest, t = s.setToOwner o rest := by
  obtain ⟨-, front, back, -, ht, -⟩ := State.nextForHandset_some e
  exact ⟨front ++ back, ht⟩

/-! ### The checks (R38) -/

/-- A line and an appearance that refuse a take with this code, in the order of the checks (R38, R39). -/
def LineRec.Refuses (r : LineRec) (a : Appearance) (p : Pos) (c : Code) : Prop :=
  r.state = .outOfService ∧ c = .outOfService
    ∨ r.state ≠ .outOfService ∧ r.cfg.kind = .hoot ∧ c = .badKind
    ∨ r.state ≠ .outOfService ∧ r.cfg.kind ≠ .hoot ∧
      (a.mode = .none ∧ c = .noAppearance
        ∨ a.mode = .listen ∧ c = .listenOnly
        ∨ a.mode = .full ∧ a.barred = true ∧ c = .barred
        ∨ a.mode = .full ∧ a.barred = false ∧
          (r.state = .outgoing ∧ c = .lineBusy
            ∨ r.state = .connected ∧ r.privacy = true ∧ c = .isPrivate
            ∨ r.state = .connected ∧ r.privacy = false ∧ r.connected.length = r.cfg.bridgeLimit ∧ c = .lineFull
            ∨ r.state = .held ∧ r.privacy = true ∧ (∃ q, r.owner = some q ∧ q ≠ p) ∧ c = .isPrivate))

theorem takeCheck_of_full {r : LineRec} {a : Appearance} {p : Pos} (hs : r.state ≠ .outOfService) (hk : r.cfg.kind ≠ .hoot)
    (hm : a.mode = .full) (hb : a.barred = false) : takeCheck r a p = stateCheck r p := by
  simp [takeCheck, hs, hk, hm, hb]

theorem takeCheck_of_refuses {r : LineRec} {a : Appearance} {p : Pos} {c : Code} (h : r.Refuses a p c) :
    takeCheck r a p = some c := by
  rcases h with ⟨hs, rfl⟩ | ⟨hs, hk, rfl⟩ | ⟨hs, hk, ⟨hm, rfl⟩ | ⟨hm, rfl⟩ | ⟨hm, hb, rfl⟩ | ⟨hm, hb, h⟩⟩
  · simp [takeCheck, hs]
  · simp [takeCheck, hs, hk]
  · simp [takeCheck, hs, hk, hm]
  · simp [takeCheck, hs, hk, hm]
  · simp [takeCheck, hs, hk, hm, hb]
  · rw [takeCheck_of_full hs hk hm hb]
    rcases h with ⟨e, rfl⟩ | ⟨e, hp, rfl⟩ | ⟨e, hp, hl, rfl⟩ | ⟨e, hp, ⟨q, ho, hq⟩, rfl⟩
    · simp [stateCheck, e]
    · simp [stateCheck, e, hp]
    · simp [stateCheck, e, hp, hl]
    · simp [stateCheck, e, hp, ho, hq]

theorem State.checkTake_of_takeCheck {s : State} {p : Pos} {h : Handset} {l : Line} {c : Code}
    (e : takeCheck (s.line l) ((s.row l).look p) p = some c) : s.checkTake p h l = some c := by simp [State.checkTake, e]

theorem State.checkTake_of_held {s : State} {p : Pos} {h : Handset} {l : Line}
    (e : takeCheck (s.line l) ((s.row l).look p) p = none) (hm : ∃ m, ((s.line m).entry p h).isSome = true) :
    s.checkTake p h l = some .handsetBusy := by
  simp [State.checkTake, e, State.onSomeLine, hm]

theorem State.checkTake_of_free {s : State} {p : Pos} {h : Handset} {l : Line}
    (e : takeCheck (s.line l) ((s.row l).look p) p = none) (hm : ∀ m, (s.line m).entry p h = none) :
    s.checkTake p h l = none := by
  simp [State.checkTake, e, State.onSomeLine, hm]

@[simp] theorem State.checkTake_setToOwner (s : State) (o : Owner) (ms : List ToOwner) (p : Pos) (h : Handset) (l : Line) :
    (s.setToOwner o ms).checkTake p h l = s.checkTake p h l := by simp [State.checkTake, State.onSomeLine]

/-! ### The completion (R12 to R21) -/

/-- The line, and the reason of its LINE_STATE, that a completed take leaves, by the state it found. -/
def LineRec.TakenAs (r : LineRec) (joined : List Conn) (x : LineRec) (why : StateReason) : Prop :=
  r.state = .idle ∧ r.cfg.kind = .ringdown ∧ why = .none ∧ x = { r with
      state := .connected, direction := some .outgoing, privacy := false, nearSeize := true, stateTimer := none,
      connected := joined }
    ∨ r.state = .idle ∧ r.cfg.kind = .automatic ∧ why = .none ∧ x = { r with
      state := .outgoing, direction := some .outgoing, privacy := false, nearSeize := true,
      stateTimer := some r.cfg.answerCount.val, connected := joined }
    ∨ r.state = .incoming ∧ why = .answered ∧ x = { r with
      state := .connected, direction := some .incoming, privacy := r.cfg.answerPrivate, nearSeize := true,
      stateTimer := none, connected := joined }
    ∨ r.state = .connected ∧ why = .none ∧ x = { r with nearSeize := true, connected := joined }
    ∨ r.state = .held ∧ why = .none ∧ x = { r with
      state := .connected, nearSeize := true, owner := none, stateTimer := none, connected := joined }
    ∨ r.state = .releasing ∧ (r.cfg.kind = .ringdown ∨ r.qualified = true) ∧ why = .none ∧ x = { r with
      state := .connected, direction := some .outgoing, privacy := false, nearSeize := true, stateTimer := none,
      connected := joined }
    ∨ r.state = .releasing ∧ r.cfg.kind = .automatic ∧ r.qualified = false ∧ why = .none ∧ x = { r with
      state := .outgoing, direction := some .outgoing, privacy := false, nearSeize := true,
      stateTimer := some r.cfg.answerCount.val, connected := joined }

theorem takenLine_of_takenAs {r x : LineRec} {c : Conn} {why : StateReason} (hk : r.cfg.kind = .ringdown ∨ r.cfg.kind = .automatic)
    (h : r.TakenAs (r.connected ++ [c]) x why) : takenLine r c = (x, why) := by
  rcases h with ⟨e, k, rfl, rfl⟩ | ⟨e, k, rfl, rfl⟩ | ⟨e, rfl, rfl⟩ | ⟨e, rfl, rfl⟩ | ⟨e, rfl, rfl⟩ | ⟨e, k, rfl, rfl⟩
    | ⟨e, k, hq, rfl, rfl⟩
  case inr.inr.inr.inr.inr.inl =>
    rcases hk with hk | hk
    · simp [takenLine, e, hk]
    · simp [takenLine, e, hk, k.resolve_left (by simp [hk])]
  case inr.inr.inr.inr.inr.inr => simp [takenLine, e, k, hq, startTimer]
  case inl => simp [takenLine, e, k]
  case inr.inl => simp [takenLine, e, k, startTimer]
  all_goals simp [takenLine, e]

/-- A completed take gives the final claim, both notices and one LINE_STATE, for the connected list has grown (R10, R25). -/
theorem completeTake_eq {l : Line} {row : Table 16 Appearance} {r x : LineRec} {c : Conn} {v : Via} {why : StateReason}
    (h : takenLine r c = (x, why)) :
    completeTake l row r c v = ⟨x,
      { given := lineStates l row x why, notices := [.position c.pos, .line l]
        fromLcu := [.outcome c.pos c.hs v (.inl (.line l))] }⟩ := by
  have hx : x.connected = r.connected ++ [c] := by rw [← takenLine_connected, h]
  simp only [completeTake, h]
  rw [lineEvent_of_moved (.inr (by simp [hx]))]
  rfl

theorem State.finishTake_eq {s : State} {p : Pos} {h : Handset} {v : Via} {l : Line} {covered : Bool} {x : LineRec}
    {why : StateReason} (hx : takenLine (s.line l) ⟨p, h, covered⟩ = (x, why)) :
    s.finishTake p h v l covered = (s.setLine l x).emit
      { given := lineStates l (s.row l) x why, notices := [.position p, .line l]
        fromLcu := [.outcome p h v (.inl (.line l))] } := by
  rw [State.finishTake, completeTake_eq hx]
  rfl

/-! ### A take (R10) -/

theorem State.lcuTake_of_refused {s : State} {p : Pos} {h : Handset} {v : Via} {l : Line} {c : Code}
    (e : s.checkTake p h l = some c) : s.lcuTake p h v l = s.emit { fromLcu := [.outcome p h v (.inr c)] } := by
  simp only [State.lcuTake, e]
  rfl

theorem State.lcuTake_of_passed {s : State} {p : Pos} {h : Handset} {v : Via} {l : Line} (e : s.checkTake p h l = none) :
    s.lcuTake p h v l =
      if (s.line l).cfg.recordRequired then s.askCoverage p h v l else s.finishTake p h v l false := by
  simp only [State.lcuTake, e]

theorem exec_takeLineAtLcu_of_next {s t : State} {p : Pos} {h : Handset} {v : Via} {l : Line}
    (e : s.nextForHandset .lcu p h = some (.take p h v l, t)) :
    exec (.takeLineAtLcu p h) s = .next (if s.takeWaits p h then s else t.lcuTake p h v l) := by
  change execTakeLineAtLcu p h s = _
  simp only [execTakeLineAtLcu, e]
  split <;> rfl

theorem State.takeWaits_iff {s : State} {p : Pos} {h : Handset} :
    s.takeWaits p h = true ↔ ∃ w ∈ s.lcu.waiting, w.pos = p ∧ w.hs = h := by simp [State.takeWaits]

/-- A take whose handset has no earlier take waiting is decided at once. -/
theorem exec_takeLineAtLcu_of_free {s t : State} {p : Pos} {h : Handset} {v : Via} {l : Line}
    (e : s.nextForHandset .lcu p h = some (.take p h v l, t)) (hw : ∀ w ∈ s.lcu.waiting, ¬(w.pos = p ∧ w.hs = h)) :
    exec (.takeLineAtLcu p h) s = .next (t.lcuTake p h v l) := by
  rw [exec_takeLineAtLcu_of_next e, if_neg]
  rw [State.takeWaits_iff]
  exact fun ⟨w, hm, hp⟩ => hw w hm hp

/-- Settles O13: the checks give the code, and a take that passes them completes by the state of the line. -/
theorem takesAreDecidedInOrder : Obligations.TakesAreDecidedInOrder := by
  refine ⟨?refused, ?completed, ?behind⟩
  case refused =>
    rintro s t p h v l r a c e hw rfl rfl hc
    rw [exec_takeLineAtLcu_of_free e hw]
    obtain ⟨rest, rfl⟩ := State.nextForHandset_eq e
    rw [State.lcuTake_of_refused (c := c)]
    simpa using State.checkTake_of_takeCheck (takeCheck_of_refuses hc)
  case completed =>
    rintro s t p h v l r x why e hw hfree rfl ha hk hrec hx
    have hcheck : takeCheck (s.line l) ((s.row l).look p) p = none := by
      have hh : (s.line l).cfg.kind ≠ .hoot := by rcases hk with h | h <;> simp [h]
      rcases hx with ⟨e, -⟩ | ⟨e, -⟩ | ⟨e, -⟩ | ⟨e, hp, hl, -⟩ | ⟨e, ho, -⟩ | ⟨e, -⟩ | ⟨e, -⟩ <;>
        rw [ha, takeCheck_of_full (by simp [e]) hh rfl rfl]
      case inr.inr.inr.inl => simp [stateCheck, e, hp, hl]
      case inr.inr.inr.inr.inl => rcases ho with ho | ho | ho <;> simp [stateCheck, e, ho]
      all_goals simp [stateCheck, e]
    have hxs : (s.line l).TakenAs ((s.line l).connected ++ [⟨p, h, false⟩]) x why :=
      hx.imp id <| Or.imp id <| Or.imp id <| Or.imp (fun ⟨e, _, _, hx⟩ => ⟨e, hx⟩) <|
        Or.imp (fun ⟨e, _, hx⟩ => ⟨e, hx⟩) id
    rw [exec_takeLineAtLcu_of_free e hw]
    obtain ⟨rest, rfl⟩ := State.nextForHandset_eq e
    rw [State.lcuTake_of_passed (by simpa using State.checkTake_of_free hcheck hfree), if_neg (by simpa using hrec),
      State.finishTake_eq (by simpa using takenLine_of_takenAs hk hxs), State.setToOwner_row]
  case behind =>
    intro s t p h v l e
    refine ⟨fun hw => ?_, fun hw hc hm => ?_⟩
    · rw [exec_takeLineAtLcu_of_next e, if_pos (State.takeWaits_iff.mpr hw)]
    · rw [exec_takeLineAtLcu_of_free e hw]
      obtain ⟨rest, rfl⟩ := State.nextForHandset_eq e
      rw [State.lcuTake_of_refused (by simpa using State.checkTake_of_held hc hm)]

/-! ### The wait for coverage (R10, R40) -/

/-- The direction of a line that a take may complete on. -/
theorem directionAfter_of_taken {r : LineRec} {a : Appearance} {p : Pos} {d : Direction} (hc : takeCheck r a p = none)
    (ho : r.state = .idle ∨ r.state = .releasing → d = .outgoing) (hi : r.state = .incoming → d = .incoming)
    (hd : r.state = .connected ∨ r.state = .held → r.direction = some d) : directionAfter r = d := by
  rcases takeCheck_none hc with e | e | e | e | ⟨e, -⟩
  · simp [directionAfter, e, ho (.inl e)]
  · simp [directionAfter, e, hi e]
  · simp [directionAfter, e, hd (.inr e)]
  · simp [directionAfter, e, ho (.inr e)]
  · simp [directionAfter, e, hd (.inl e)]

theorem State.askCoverage_eq {s : State} {p : Pos} {h : Handset} {v : Via} {l : Line} {d : Direction}
    (hd : directionAfter (s.line l) = d) :
    s.askCoverage p h v l = { s with
      lcu := { s.lcu with waiting := s.lcu.waiting ++ [⟨p, h, v, l, d, none⟩] }
      chan := s.chan.add { toRtu := [.reserve p h l d] } } := by subst hd; rfl

/-- LCU takes RTU's answer to the take that waits for it. -/
theorem exec_reservationAnswer_of_next {s u : State} {p : Pos} {h : Handset} {a : RtuAnswer} {w : Waiting}
    {answers : List RtuAnswer} {waiting : List Waiting}
    (ha : takeFirst (fun a => a.pos == p && a.hs == h) s.chan.fromRtu = some (a, answers))
    (hw : takeFirst (fun w => w.pos == p && w.hs == h) s.lcu.waiting = some (w, waiting))
    (hu : u = { s with chan := { s.chan with fromRtu := answers }, lcu := { s.lcu with waiting := waiting } }) :
    exec (.reservationAnswer p h) s = .next (u.lcuAnswer w a.granted) := by
  change execReservationAnswer p h s = _
  simp only [execReservationAnswer, ha, hw, hu]

theorem State.dropGrant_eq (s : State) (w : Waiting) (granted ofReset : Bool) :
    s.dropGrant w granted ofReset =
      s.emit { toRtu := if granted then [.release w.pos w.hs w.line ofReset] else [] } := by
  cases granted
  · exact (State.emit_nothing s).symm
  · rfl

theorem State.lcuAnswer_of_ended {s : State} {w : Waiting} {granted ofReset : Bool} (he : w.ended = some ofReset) :
    s.lcuAnswer w granted = s.emit { toRtu := if granted then [.release w.pos w.hs w.line ofReset] else [] } := by
  simp only [State.lcuAnswer, he, State.dropGrant_eq]

/-- A take that fails its second checks is refused, and its grant returned. -/
theorem State.lcuAnswer_of_refused {s : State} {w : Waiting} {granted : Bool} {c : Code} (he : w.ended = none)
    (hc : s.checkTake w.pos w.hs w.line = some c) :
    s.lcuAnswer w granted = s.emit
      { toRtu := if granted then [.release w.pos w.hs w.line false] else []
        fromLcu := [.outcome w.pos w.hs w.via (.inr c)] } := by
  simp only [State.lcuAnswer, he, hc, State.dropGrant_eq, State.refuseTake, State.emit_emit]
  congr 1
  simp [Sends.and]

theorem State.lcuAnswer_of_passed {s : State} {w : Waiting} {granted : Bool} (he : w.ended = none)
    (hc : s.checkTake w.pos w.hs w.line = none) :
    s.lcuAnswer w granted =
      if (s.line w.line).cfg.recordRequired = false then s.finishTake w.pos w.hs w.via w.line granted
      else if directionAfter (s.line w.line) ≠ w.direction then
        (s.dropGrant w granted false).askCoverage w.pos w.hs w.via w.line
      else if granted then s.finishTake w.pos w.hs w.via w.line true
      else s.refuseTake w.pos w.hs w.via .notRecorded := by
  simp only [State.lcuAnswer, he, hc]

/-- Settles O14: the second checks, the direction and the grant decide the answer in that order. -/
theorem recordedTakesWaitForCoverage : Obligations.RecordedTakesWaitForCoverage := by
  refine ⟨?asks, ?answer⟩
  case asks =>
    rintro s t p h v l r d e hw hfree rfl hc hrec ho hi hd
    rw [exec_takeLineAtLcu_of_free e hw]
    obtain ⟨rest, rfl⟩ := State.nextForHandset_eq e
    rw [State.lcuTake_of_passed (by simpa using State.checkTake_of_free hc hfree), if_pos (by simpa using hrec),
      State.askCoverage_eq (by simpa using directionAfter_of_taken hc ho hi hd)]
    simp [State.setToOwner, Chan.add]
  case answer =>
    rintro s u p h a w answers waiting r ha hw hu hr
    have hline : u.line = s.line := by rw [hu]; rfl
    have hrow : u.row = s.row := by rw [hu]; rfl
    have hlcu : u.lcu.waiting = waiting := by rw [hu]
    have hrtu : u.chan.toRtu = s.chan.toRtu := by rw [hu]
    rw [exec_reservationAnswer_of_next ha hw hu, ← hline, ← hrow, ← hlcu, ← hrtu]
    obtain rfl : u.line w.line = r := hline ▸ hr
    refine ⟨fun ofReset he => ?ended, fun c he hc => ?refused, fun he hc hm => ?busy, fun d he hc hfree ho hi hd => ?_⟩
    case ended => rw [State.lcuAnswer_of_ended he]
    case refused => rw [State.lcuAnswer_of_refused he (State.checkTake_of_takeCheck hc)]
    case busy => rw [State.lcuAnswer_of_refused he (State.checkTake_of_held hc hm)]
    rw [State.lcuAnswer_of_passed he (State.checkTake_of_free hc hfree)]
    have hdir : directionAfter (u.line w.line) = d := directionAfter_of_taken hc ho hi hd
    refine ⟨fun hrec hne => ?asksAgain, fun hrec hd hg => ?notRecorded, fun x why joined hg hk hj hx => ?completed⟩
    case asksAgain =>
      rw [if_neg (by simp [hrec]), if_pos (by rwa [hdir]), State.dropGrant_eq,
        State.askCoverage_eq (d := d) (by rwa [State.emit_line])]
      simp [Chan.add]
    case notRecorded =>
      rw [if_neg (by simp [hrec]), if_neg (by simp [hdir, hd]), if_neg (by simp [hg])]
      rfl
    case completed =>
      have hfin := takenLine_of_takenAs hk (hj ▸ hx)
      cases hrec : (u.line w.line).cfg.recordRequired with
      | false => rw [if_pos rfl, State.finishTake_eq hfin]
      | true =>
        obtain ⟨hd, ha⟩ := hg.resolve_left (by simp [hrec])
        rw [if_neg (by simp), if_neg (by simp [hdir, hd]), if_pos ha, State.finishTake_eq (ha ▸ hfin)]

end Sys2Proof.Machine
end

section
/-! Handsets that leave a line, whoever takes them off (R11, R14, R18, R19). -/

namespace Sys2Proof.Machine

/-- The last handsets of an OUTGOING or CONNECTED line send it to RELEASING; otherwise the list alone moves. -/
theorem dropConns_eq (r : LineRec) (gone : Conn → Bool) :
    dropConns r gone =
      if r.connected.filter gone ≠ [] ∧ r.connected.filter gone = r.connected ∧ (r.state = .outgoing ∨ r.state = .connected)
      then toReleasing r else { r with connected := r.connected.filter fun c => !gone c } := by
  split
  · next h =>
    obtain ⟨hne, hall, hst⟩ := h
    refine dropConns_of_last (by simpa [hall] using hne) (List.filter_eq_self.mp hall) hst
  · next h =>
    refine dropConns_of_not_last fun ⟨hkept, hne, hst⟩ => h ?_
    have hall : r.connected.filter gone = r.connected := by
      rw [List.filter_eq_self]
      simpa [List.filter_eq_nil_iff] using hkept
    exact ⟨hall.symm ▸ hne, hall, hst⟩

/-- Where the state moves, it moves to RELEASING. -/
theorem dropConns_of_state_ne {r : LineRec} {gone : Conn → Bool} (h : (dropConns r gone).state ≠ r.state) :
    dropConns r gone = toReleasing r ∧ r.state ≠ .releasing := by
  rw [dropConns_eq] at h ⊢
  split at h
  · next hl =>
    refine ⟨if_pos hl, fun e => ?_⟩
    rcases hl.2.2 with hs | hs <;> simp [e] at hs
  · exact absurd rfl h

theorem dropConns_of_nobody {r : LineRec} {gone : Conn → Bool} (h : r.connected.filter gone = []) : dropConns r gone = r := by
  have hk : r.connected.filter (fun c => !gone c) = r.connected := by
    rw [List.filter_eq_self]
    simpa [List.filter_eq_nil_iff] using h
  rw [dropConns_eq, if_neg (by simp [h]), hk]

theorem dropConns_length_ne {r : LineRec} {gone : Conn → Bool} (h : r.connected.filter gone ≠ []) :
    r.connected.length ≠ (dropConns r gone).connected.length := by
  have hsum := List.length_eq_length_filter_add gone (l := r.connected)
  have hpos : 0 < (r.connected.filter gone).length := List.length_pos_iff.mpr h
  rw [dropConns_eq]
  split
  · simp only [toReleasing_eq, List.length_nil]
    omega
  · simp only
    omega

/-- A line that an event has left at `x`, once a guard count of 0 has ended the guard in the same step (R9). -/
def LineRec.settledAt (r x : LineRec) : LineRec := if x.state ≠ r.state ∧ r.cfg.guardCount = 0 then guardEnd x else x

/-- The LINE_STATE records of an event in which the handsets `hits` leave `r` and the line settles at `x` and then `y`. -/
def leaveStates (l : Line) (row : Table 16 Appearance) (hits : List Conn) (x y : LineRec) : Sends :=
  { given := (if hits = [] then [] else lineStates l row x .none) ++ if y.state = x.state then [] else lineStates l row y .none
    notices := (if hits = [] then [] else [.line l]) ++ if y.state = x.state then [] else [.line l] }

/-- Handsets that leave in one event: what each sends, then one LINE_STATE, and one more where the guard ends at once. -/
theorem leaveEvent_eq (l : Line) (row : Table 16 Appearance) (r : LineRec) (gone : Conn → Bool) (send : Conn → Sends) :
    leaveEvent l row r gone send = ⟨r.settledAt (dropConns r gone),
      (Sends.all ((r.connected.filter gone).map send)).and
        (leaveStates l row (r.connected.filter gone) (dropConns r gone) (r.settledAt (dropConns r gone)))⟩ := by
  by_cases hits : r.connected.filter gone = []
  · simp only [leaveEvent, dropConns_of_nobody hits, hits, List.map_nil, Sends.all_nil]
    rw [lineEvent_of_unmoved rfl rfl rfl rfl, settleGuard_of_running (old := r) (fx := ⟨r, {}⟩) (fun h _ => h)]
    simp [LineRec.settledAt, leaveStates]
  rw [leaveEvent, lineEvent_of_moved (.inr (dropConns_length_ne hits))]
  by_cases hst : (dropConns r gone).state = r.state
  · rw [settleGuard_of_running (fun h _ => hst ▸ h)]
    simp [LineRec.settledAt, leaveStates, hst, hits]
  obtain ⟨hd, hr⟩ := dropConns_of_state_ne hst
  simp only [hd] at hst ⊢
  by_cases hg : r.cfg.guardCount = 0
  · have hx : r.settledAt (toReleasing r) = guardEnd (toReleasing r) := if_pos ⟨hst, hg⟩
    have hs : (guardEnd (toReleasing r)).state ≠ (toReleasing r).state := guardEnd_state_ne_releasing _
    rw [settleGuard_of_zero hr rfl (by simp [toReleasing_eq, hg]), hx, Sends.and_assoc]
    simp [leaveStates, hits, hs, Sends.and]
  · have hx : r.settledAt (toReleasing r) = toReleasing r := if_neg (fun h => hg h.2)
    rw [settleGuard_of_running (by simp [toReleasing_eq, guardCount_val_ne_zero hg]), hx]
    simp [leaveStates, hits]

end Sys2Proof.Machine
end

section
/-! RELEASE and return notices at the owners (R35, R42, R43). -/

namespace Sys2Proof.Machine

/-! ### Leaving a line -/

/-- One handset leaves the line on which it stands. -/
theorem State.leaveLine_of_one {s : State} {p : Pos} {h : Handset} {l : Line} {c : Conn} {x y : LineRec}
    (hits : (s.line l).connected.filter (fun d => d.pos == p && d.hs == h) = [c])
    (hx : dropConns (s.line l) (fun d => d.pos == p && d.hs == h) = x) (hy : (s.line l).settledAt x = y) :
    s.leaveLine p h l = some ((s.setLine l y).emit
      (Sends.and { notices := [.position p], toRtu := if c.covered then [.release p h l false] else [] }
        (leaveStates l (s.row l) [c] x y))) := by
  have hc : c ∈ (s.line l).connected.filter (fun d => d.pos == p && d.hs == h) := by simp [hits]
  obtain ⟨hmem, hph⟩ := List.mem_filter.mp hc
  obtain ⟨rfl, rfl⟩ : c.pos = p ∧ c.hs = h := by simpa using hph
  obtain ⟨d, hd⟩ : ∃ d, (s.line l).entry c.pos c.hs = some d :=
    Option.isSome_iff_exists.mp (List.find?_isSome.mpr ⟨c, hmem, hph⟩)
  simp only [State.leaveLine, hd, Option.map_some, State.applyLine, leaveEvent_eq, hits, hx, hy, List.map_cons, List.map_nil,
    Sends.all_cons, Sends.all_nil, Sends.and_nothing]
  rfl

theorem State.leaveLine_of_none {s : State} {p : Pos} {h : Handset} {l : Line} (hn : (s.line l).entry p h = none) :
    s.leaveLine p h l = none := by simp [State.leaveLine, hn]

/-! ### The owner's answer -/

/-- A release that leaves frees the claim that names it before the reply leaves (R36, R42). -/
theorem State.ownerRelease_of_left {s u : State} {p : Pos} {h : Handset} {v : Via} {c : Claim} (hu : s.leave p h c = some u)
    (hc : (u.pos p).claim.of h = c) :
    s.ownerRelease p h v c = ((u.setPos p { u.pos p with
      claim := (u.pos p).claim.set h .none, mute := (u.pos p).mute.set h false }).emit
        { notices := [.position p] }).answer (requesterOf p v) .accepted := by
  simp only [State.ownerRelease, hu, State.freeClaimOf, if_pos hc]
  rfl

theorem exec_releaseAtOwner_of_next {s t : State} {o : Owner} {p : Pos} {h : Handset} {v : Via} {c : Claim}
    (e : s.nextForHandset o p h = some (.release p h v c, t)) :
    exec (.releaseAtOwner o p h) s = .next (t.ownerRelease p h v c) := by
  change execReleaseAtOwner o p h s = _
  simp only [execReleaseAtOwner, e]

theorem exec_returnNotice_of_next {s t : State} {o : Owner} {p : Pos} {h : Handset} {c : Claim}
    (e : s.nextForHandset o p h = some (.giveBack p h c, t)) :
    exec (.returnNotice o p h) s = .next (t.ownerReturn o p h c) := by
  change execReturnNotice o p h s = _
  simp only [execReturnNotice, e]

/-- RELEASE at the owner of a handset that stands there. -/
theorem exec_releaseAtOwner_of_left {s t u : State} {o : Owner} {p : Pos} {h : Handset} {v : Via} {c : Claim}
    (e : s.nextForHandset o p h = some (.release p h v c, t)) (hc : (s.pos p).claim.of h = c)
    (hu : t.leave p h c = some u) (hp : u.ptb = t.ptb) :
    exec (.releaseAtOwner o p h) s = .next (((u.setPos p { s.pos p with
      claim := (s.pos p).claim.set h .none, mute := (s.pos p).mute.set h false }).emit
        { notices := [.position p] }).answer (requesterOf p v) .accepted) := by
  obtain ⟨rest, rfl⟩ := State.nextForHandset_eq e
  have hpos : u.pos p = s.pos p := by rw [State.pos, hp, State.setToOwner_ptb]; rfl
  rw [exec_releaseAtOwner_of_next e, State.ownerRelease_of_left hu (hpos ▸ hc), hpos]

/-- A return notice at the owner of a handset that stands there. -/
theorem exec_returnNotice_of_left {s t u : State} {o : Owner} {p : Pos} {h : Handset} {c : Claim}
    (e : s.nextForHandset o p h = some (.giveBack p h c, t)) (hu : t.leave p h c = some u) :
    exec (.returnNotice o p h) s = .next (u.emit (releasedBy o p h c)) := by
  rw [exec_returnNotice_of_next e, State.ownerReturn, hu]

/-- A handset that stands there no more is NOT_CONNECTED (R43), and its return notice does nothing (R35). -/
theorem exec_releaseAtOwner_of_gone {s t : State} {o : Owner} {p : Pos} {h : Handset} {v : Via} {c : Claim}
    (e : s.nextForHandset o p h = some (.release p h v c, t)) (hu : t.leave p h c = none) :
    exec (.releaseAtOwner o p h) s = .next (t.answer (requesterOf p v) .notConnected) := by
  rw [exec_releaseAtOwner_of_next e, State.ownerRelease, hu]
  rfl

theorem exec_returnNotice_of_gone {s t : State} {o : Owner} {p : Pos} {h : Handset} {c : Claim}
    (e : s.nextForHandset o p h = some (.giveBack p h c, t)) (hu : t.leave p h c = none) :
    exec (.returnNotice o p h) s = .next t := by
  rw [exec_returnNotice_of_next e, State.ownerReturn, hu]

/-! ### Leaving a group or a call -/

theorem State.leaveGroup_eq (s : State) (g : Grp) (p : Pos) :
    s.leaveGroup g p = (s.setGroup g { s.group g with joined := (s.group g).joined.filter fun m => m.1 != p }).emit
      { given := ((s.group g).joined.filter fun m => m.1 != p).map fun m =>
          ⟨.gfu, portOf m.1, .groupState g ((s.group g).joined.filter fun m => m.1 != p).length p true⟩
        notices := [.group g] } := by
  simp [State.leaveGroup, State.setJoined, groupState, records, notice, Sends.and, Function.comp_def]

theorem State.leaveJoined_of_joined {s : State} {p : Pos} {h : Handset} {g : Grp} (hh : (s.group g).handsetOf p = some h) :
    s.leaveJoined p h g = some (s.leaveGroup g p) := if_pos hh

theorem State.leaveCall_of_free {s : State} {p : Pos} {h : Handset} {c : CallNo} (hh : (s.call c).holds p h = false) :
    s.leaveCall p h c = none := by
  cases hc : s.call c with
  | free => simp [State.leaveCall, hc]
  | alerting q k a voice x =>
    have hq : ¬(q = p ∧ k = h) := by simpa [CallRec.holds, hc] using hh
    simp [State.leaveCall, hc, hq]
  | active q k a j voice =>
    obtain ⟨hq, ha⟩ : ¬(q = p ∧ k = h) ∧ ¬(a = p ∧ j = h) := by simpa [CallRec.holds, hc] using hh
    simp [State.leaveCall, hc, hq, ha]

end Sys2Proof.Machine
end

section
/-! A handset that leaves its line, group or call at its owner (R11, R42, R61, R73). -/

namespace Sys2Proof.Machine

/-- The states of a line that loses its last handset, field by field (R14, R16, R18, R20). -/
theorem dropConns_of_sole {r : LineRec} {gone : Conn → Bool} {c : Conn} (hc : r.connected = [c]) (hg : gone c = true)
    (hs : r.state = .outgoing ∨ r.state = .connected) : dropConns r gone = toReleasing r :=
  dropConns_of_last (by simp [hc]) (by simp [hc, hg]) hs

theorem settledAt_toReleasing {r : LineRec} (hs : r.state ≠ .releasing) :
    r.settledAt (toReleasing r) =
      if r.cfg.guardCount ≠ 0 then toReleasing r else { r with
        state := if r.qualified then .incoming else .idle, nearSeize := false, ringOut := false, direction := none,
        privacy := false, connected := [], owner := none
        stateTimer := if r.qualified = true ∧ r.cfg.kind = .ringdown then some r.cfg.answerCount.val else none } := by
  by_cases hg : r.cfg.guardCount = 0
  · rw [LineRec.settledAt, if_pos ⟨by simpa [toReleasing_eq] using hs.symm, hg⟩, if_neg (by simpa using hg), guardEnd_eq]
    rfl
  · rw [LineRec.settledAt, if_neg (fun h => hg h.2), if_pos hg]

theorem settledAt_state_eq_iff {r : LineRec} (hs : r.state ≠ .releasing) :
    (r.settledAt (toReleasing r)).state = (toReleasing r).state ↔ r.cfg.guardCount ≠ 0 := by
  rw [settledAt_toReleasing hs]
  by_cases hg : r.cfg.guardCount = 0
  · cases hq : r.qualified <;> simp [hg, hq, toReleasing_eq]
  · simp [hg]

/-- Settles O17: the handset leaves as its owner's own rules give, and the owner answers or tells PTB. -/
theorem ownersReleaseTheHandset : Obligations.OwnersReleaseTheHandset := by
  refine ⟨fun s t p h v => ⟨?staying, ?group, ?lineGone⟩, ?last, ?call, fun s t p h v => ⟨?returned, ?gone⟩⟩
  case staying =>
    rintro l r x c rfl hr hits hx hne
    have hd : dropConns (s.line l) (fun d => d.pos == p && d.hs == h) = x := by
      rw [dropConns_of_not_last (by rintro ⟨hk, -⟩; exact hne (hx ▸ hk)), hx]
    have hst : x.state = (s.line l).state := by rw [hx]
    have hleave (t : State) (ht : ∃ ms, t = s.setToOwner .lcu ms) : t.leave p h (.line l) = some ((t.setLine l x).emit
        { given := lineStates l (s.row l) x .none, notices := [.position p, .line l]
          toRtu := if c.covered then [.release p h l false] else [] }) := by
      obtain ⟨ms, rfl⟩ := ht
      refine (State.leaveLine_of_one (by simpa using hits) (by simpa using hd)
        (if_neg (by simp [hst]))).trans (congrArg some (congrArg _ ?_))
      simp [leaveStates, Sends.and]
    refine ⟨fun e => ?_, fun e hc => ?_⟩
    · rw [exec_returnNotice_of_left e (hleave t (State.nextForHandset_eq e)), State.emit_emit]
      simp [releasedBy, Sends.and]
    · rw [exec_releaseAtOwner_of_left e hc (hleave t (State.nextForHandset_eq e)) rfl]
  case group =>
    rintro g e hh hc left rfl
    obtain ⟨ms, rfl⟩ := State.nextForHandset_eq e
    rw [exec_releaseAtOwner_of_left e hc (State.leaveJoined_of_joined (by simpa using hh)) (by simp [State.leaveGroup_eq]),
      State.leaveGroup_eq]
    simp
  case lineGone =>
    intro l hn
    refine ⟨fun e => ?_, fun e => ?_⟩ <;> obtain ⟨ms, rfl⟩ := State.nextForHandset_eq e
    · exact exec_releaseAtOwner_of_gone e (State.leaveLine_of_none (by simpa using hn))
    · exact exec_returnNotice_of_gone e (State.leaveLine_of_none (by simpa using hn))
  case last =>
    rintro s t p h v l r x y c o rfl hc rfl rfl hs hx hy ho
    have hr : (s.line l).state ≠ .releasing := by rcases hs with hs | hs <;> simp [hs]
    replace hx : x = toReleasing (s.line l) := hx
    have hd : dropConns (s.line l) (fun d => d.pos == c.pos && d.hs == c.hs) = x :=
      (dropConns_of_sole hc (by simp) hs).trans hx.symm
    have hy' : (s.line l).settledAt x = y := by rw [hy, hx]; exact settledAt_toReleasing hr
    have hxy : y.state = x.state ↔ (s.line l).cfg.guardCount ≠ 0 := by
      rw [← hy', hx]
      exact settledAt_state_eq_iff hr
    have hleave (t : State) (ht : ∃ ms, t = s.setToOwner .lcu ms) :
        t.leave c.pos c.hs (.line l) = some ((t.setLine l y).emit o) := by
      obtain ⟨ms, rfl⟩ := ht
      refine (State.leaveLine_of_one (c := c) (by simp [hc]) (by simpa using hd) (by simpa using hy')).trans
        (congrArg some (congrArg _ ?_))
      simp [leaveStates, Sends.and, ho, hxy]
    refine ⟨fun e => ?_, fun e hcl => ?_⟩
    · exact exec_returnNotice_of_left e (hleave t (State.nextForHandset_eq e))
    · exact exec_releaseAtOwner_of_left e hcl (hleave t (State.nextForHandset_eq e)) rfl
  case call =>
    intro s t p h v c q a k j voice timer o ho
    have hleave (t : State) (ht : ∃ ms, t = s.setToOwner .gfu ms) :
        t.leave p h (.call c) = some ((t.setCall c .free).emit o) := by
      obtain ⟨ms, rfl⟩ := ht
      rcases ho with ⟨hc, rfl, rfl, rfl⟩ | ⟨hc, rfl, rfl, hq, rfl⟩ | ⟨hc, rfl, rfl, rfl⟩
      · simp [State.leave, State.leaveCall, hc, State.endCall, callReleased, bothNotices, record, Sends.and]
      · have hn : ¬(q = a ∧ k = j) := by tauto
        simp [State.leave, State.leaveCall, hc, hn, State.endCall, callReleased, bothNotices, record, Sends.and]
      · simp [State.leave, State.leaveCall, hc, State.endCall, callWithdrawn, bothNotices, record, Sends.and]
    refine ⟨fun e => ?_, fun e hcl => ?_⟩
    · exact exec_returnNotice_of_left e (hleave t (State.nextForHandset_eq e))
    · exact exec_releaseAtOwner_of_left e hcl (hleave t (State.nextForHandset_eq e)) rfl
  case returned =>
    rintro g left hh rfl e
    obtain ⟨ms, rfl⟩ := State.nextForHandset_eq e
    rw [exec_returnNotice_of_left e (State.leaveJoined_of_joined (by simpa using hh)), State.leaveGroup_eq, State.emit_emit]
    simp [releasedBy, Sends.and]
  case gone =>
    intro c hc
    have hleave (t : State) (ht : ∃ ms, t = s.setToOwner .gfu ms) : t.leave p h c = none := by
      obtain ⟨ms, rfl⟩ := ht
      rcases hc with ⟨g, rfl, hg⟩ | ⟨k, rfl, hk⟩
      · exact if_neg (by simpa using hg)
      · exact State.leaveCall_of_free (by simpa using hk)
    exact ⟨fun e => exec_releaseAtOwner_of_gone e (hleave t (State.nextForHandset_eq e)),
      fun e => exec_returnNotice_of_gone e (hleave t (State.nextForHandset_eq e))⟩

end Sys2Proof.Machine
end

section
/-! HOLD, SET_PRIVACY and SIGNAL_LINE at LCU (R15, R21, R44, R46, R48). -/

namespace Sys2Proof.Machine

/-- The state in which an owner takes a submitted request holds the same lines and appearances. -/
theorem State.lcu_of_submits {s t : State} {r : Requester} {k : ReqKind} {p : Pos} {body : List Byte}
    (h : s.Submits r k p body t) : t.lcu = s.lcu := by
  cases r with
  | port n =>
    obtain ⟨-, f, -, -, rfl⟩ := h
    rfl
  | run q =>
    obtain ⟨-, o, -, -, rfl⟩ := h
    rfl

/-- A line record put back as it stands. -/
theorem State.setLine_self (s : State) (l : Line) : s.setLine l (s.line l) = s := by
  simp only [State.setLine, State.line, Table.put_look]

/-! ### HOLD (R21, R44) -/

theorem exec_holdAtLcu_of_next {s t : State} {p : Pos} {h : Handset} {v : Via} {l : Line}
    (e : s.nextForHandset .lcu p h = some (.hold p h v l, t)) : exec (.holdAtLcu p h) s = .next (t.lcuHold p h v l) := by
  change execHoldAtLcu p h s = _
  simp only [execHoldAtLcu, e]

/-- The checks of R44 of a handset that stands on the line. -/
theorem State.lcuHold_of_entry {s : State} {p : Pos} {h : Handset} {v : Via} {l : Line} {c : Conn}
    (hc : (s.line l).entry p h = some c) :
    s.lcuHold p h v l =
      if (s.line l).connected.length ≠ 1 then s.reply p v .shared
      else if (s.line l).state = .outgoing then s.reply p v .lineBusy
      else ((s.applyLine l (holdLine l (s.row l) (s.line l) c)).freeClaimOf p h (.line l)).reply p v .accepted := by
  simp only [State.lcuHold, hc]

/-- The sole handset of a CONNECTED line parks it: the handset leaves, and the line is HELD for its position. -/
theorem holdLine_eq {l : Line} {row : Table 16 Appearance} {r : LineRec} {c : Conn} (hs : r.state = .connected) :
    let x : LineRec := { r with
      state := .held, connected := [], owner := some c.pos, ringOut := false
      stateTimer := if r.cfg.recallCount = 0 then none else some r.cfg.recallCount.val }
    holdLine l row r c = ⟨x, (leaveSends l c).and { given := lineStates l row x .none, notices := [.line l] }⟩ := by
  rw [holdLine, lineEvent_of_moved (.inl (by simp [hs]))]
  rfl

/-! ### SET_PRIVACY (R46) and SIGNAL_LINE (R48) -/

/-- A privacy that changes is shown, and no mix depends on it. -/
theorem lineEvent_of_privacy {l : Line} {row : Table 16 Appearance} {r : LineRec} {on : Bool} (h : r.privacy ≠ on) :
    lineEvent l row r { line := { r with privacy := on } } .none =
      ⟨{ r with privacy := on }, { given := lineStates l row { r with privacy := on } .none }⟩ := by
  simp [lineEvent, stateShown, mixTouched, h, records, lineStates]

theorem State.setPrivacy_eq {s : State} {p : Pos} {v : Via} {b : List Byte} {l : Line} {on : Bool}
    (hl : numOf 64 (byteAt b 0) = some l) (hon : onOffOf (byteAt b 1) = some on) :
    s.setPrivacy p v b =
      if (s.line l).state = .outOfService then s.reply p v .outOfService
      else if (s.line l).cfg.kind = .hoot then s.reply p v .badKind
      else if (s.line l).has p = false then s.reply p v .notConnected
      else if (s.line l).privacy = on then s.reply p v .accepted
      else ((s.setLine l { s.line l with privacy := on }).emit
        { given := lineStates l (s.row l) { s.line l with privacy := on } .none }).reply p v .accepted := by
  by_cases h : (s.line l).privacy = on
  · have hsame : s.applyLine l (lineEvent l (s.row l) (s.line l) { line := { s.line l with privacy := on } } .none) = s := by
      rw [← h, lineEvent_of_unmoved rfl rfl rfl rfl, State.applyLine]
      exact (State.emit_nothing _).trans (s.setLine_self l)
    simp only [State.setPrivacy, hl, hon, hsame, if_pos h]
  · simp only [State.setPrivacy, hl, hon, lineEvent_of_privacy h, if_neg h]
    rfl

theorem State.setPrivacy_of_bad {s : State} {p : Pos} {v : Via} {b : List Byte}
    (h : numOf 64 (byteAt b 0) = none ∨ onOffOf (byteAt b 1) = none) : s.setPrivacy p v b = s.reply p v .badValue := by
  rcases h with h | h
  · simp [State.setPrivacy, h]
  · cases hl : numOf 64 (byteAt b 0) <;> simp [State.setPrivacy, h, hl]

/-- The pulse of an accepted SIGNAL_LINE: started, or with a count of 0 ended at once (R15). -/
theorem State.applyLine_ringLine (s : State) (l : Line) :
    s.applyLine l (ringLine l (s.line l)) =
      if (s.line l).cfg.ringOutCount = 0 then (s.setLine l { s.line l with ringOut := false, stateTimer := none }).emit
        { given := lcuRecords (connectedPositions (s.line l)) (.ringDone l) }
      else s.setLine l { s.line l with ringOut := true, stateTimer := some (s.line l).cfg.ringOutCount.val } := by
  unfold ringLine
  split
  · rfl
  · exact State.emit_nothing _

theorem State.signalLine_eq {s : State} {p : Pos} {v : Via} {b : List Byte} {l : Line} (hl : numOf 64 (byteAt b 0) = some l) :
    s.signalLine p v b =
      if (s.line l).state = .outOfService then s.reply p v .outOfService
      else if (s.line l).cfg.kind = .hoot then s.reply p v .badKind
      else if (s.line l).cfg.kind ≠ .ringdown then s.reply p v .notRingdown
      else if (s.line l).state ≠ .connected ∨ (s.line l).has p = false then s.reply p v .notConnected
      else if (s.line l).cfg.ringOutCount = 0 then
        ((s.setLine l { s.line l with ringOut := false, stateTimer := none }).emit
          { given := lcuRecords (connectedPositions (s.line l)) (.ringDone l) }).reply p v .accepted
      else (s.setLine l { s.line l with ringOut := true, stateTimer := some (s.line l).cfg.ringOutCount.val }).reply p v
        .accepted := by
  by_cases h : (s.line l).state = .connected ∧ (s.line l).has p = true
  · have hn : ¬((s.line l).state ≠ .connected ∨ (s.line l).has p = false) := by simp [h.1, h.2]
    simp only [State.signalLine, hl, if_pos h, if_neg hn, State.applyLine_ringLine]
    by_cases h0 : (s.line l).cfg.ringOutCount = 0 <;> simp only [h0, if_true, if_false]
  · have hn : (s.line l).state ≠ .connected ∨ (s.line l).has p = false := by
      simpa [imp_iff_not_or] using h
    simp only [State.signalLine, hl, if_neg h, if_pos hn]

/-- Settles O18: each request reaches its owner, whose checks are the ones listed. -/
theorem holdPrivacyAndRing : Obligations.HoldPrivacyAndRing := by
  refine ⟨?hold, ?bad, ?taken⟩
  case hold =>
    rintro s t p h v l r rfl e
    rw [exec_holdAtLcu_of_next e]
    obtain ⟨ms, rfl⟩ := State.nextForHandset_eq e
    have hline : (s.setToOwner .lcu ms).line = s.line := funext fun _ => State.setToOwner_line ..
    refine ⟨fun hn => ?notConnected, fun hc hl => ?shared, fun hc hl hs => ?lineBusy, fun c x hc hp hh hs hcl hx => ?held⟩
    case notConnected =>
      simp only [State.lcuHold, hline, hn]
      rfl
    case shared =>
      obtain ⟨c, hc⟩ := Option.isSome_iff_exists.mp hc
      rw [State.lcuHold_of_entry (by rwa [hline]), hline, if_pos hl]
      rfl
    case lineBusy =>
      obtain ⟨c, hc⟩ := Option.isSome_iff_exists.mp hc
      rw [State.lcuHold_of_entry (by rwa [hline]), hline, if_neg (by simp [hl]), if_pos hs]
      rfl
    case held =>
      have hent : (s.line l).entry p h = some c := by simp [LineRec.entry, hc, hp, hh]
      rw [State.lcuHold_of_entry (by rwa [hline]), hline, if_neg (by simp [hc]), if_neg (by simp [hs]), holdLine_eq hs]
      subst hx hp hh
      have hout (o : Sends) : (leaveSends l c).and o = { o with
          notices := .position c.pos :: o.notices
          toRtu := (if c.covered then [.release c.pos c.hs l false] else []) ++ o.toRtu } := by
        simp [leaveSends, Sends.and]
      rw [State.freeClaimOf, if_pos (by simpa using hcl), State.applyLine, hout, List.append_nil]
      rfl
  case bad =>
    intro s t q p b
    refine ⟨fun hs hb => ?_, fun hs hb => ?_, fun hs hb => ?_⟩
    · change execHold q s = _
      rw [execHold, State.request_of_sends hs, State.ptbHold, hb, State.reply_of_sends hs]
    · change execSetPrivacy q s = _
      rw [execSetPrivacy, State.request_of_sends hs, State.setPrivacy_of_bad hb, State.reply_of_sends hs]
    · change execSignalLine q s = _
      rw [execSignalLine, State.request_of_sends hs, State.signalLine, hb, State.reply_of_sends hs]
  case taken =>
    rintro s t q p b l r hl rfl
    refine ⟨fun hs on hon => ?_, fun hs => ?_⟩
    · change execSetPrivacy q s = _
      have hline : t.line = s.line := by unfold State.line; rw [State.lcu_of_submits hs]
      have hrow : t.row = s.row := by unfold State.row; rw [State.lcu_of_submits hs]
      rw [execSetPrivacy, State.request_of_sends hs, State.setPrivacy_eq hl hon, hline, hrow]
      simp only [State.reply_of_sends hs]
    · change execSignalLine q s = _
      have hline : t.line = s.line := by unfold State.line; rw [State.lcu_of_submits hs]
      rw [execSignalLine, State.request_of_sends hs, State.signalLine_eq hl, hline]
      simp only [State.reply_of_sends hs]

end Sys2Proof.Machine
end

section
/-! APPEARANCE_SET (R29): the mode of one appearance, and the handsets that it takes off the line. -/

namespace Sys2Proof.Machine

/-! ### A line that loses a position's handsets (R29, R50) -/

/-- A line whose hold ownership no longer names a position. -/
def LineRec.disowned (r : LineRec) (p : Pos) : LineRec := { r with owner := if r.owner = some p then none else r.owner }

theorem LineRec.disowned_eq (r : LineRec) (p : Pos) :
    (if r.owner = some p then { r with owner := none } else r) = r.disowned p := by
  unfold LineRec.disowned
  split <;> rfl

/-- The line as the position's handsets leave it, before a guard count of 0 is looked at. -/
def LineRec.bereft (r : LineRec) (p : Pos) : LineRec := dropConns (r.disowned p) fun c => c.pos == p

theorem LineRec.bereft_eq (r : LineRec) (p : Pos) :
    r.bereft p =
      if r.connected.filter (fun c => c.pos == p) ≠ [] ∧ r.connected.filter (fun c => c.pos == p) = r.connected
          ∧ (r.state = .outgoing ∨ r.state = .connected) then { r with
        state := .releasing, nearSeize := true, ringOut := false, stateTimer := some r.cfg.guardCount.val
        connected := [], owner := none }
      else { r with
        owner := if r.owner = some p then none else r.owner, connected := r.connected.filter fun c => c.pos != p } :=
  dropConns_eq (r.disowned p) fun c => c.pos == p

/-- The line as it stays, once a guard count of 0 has ended the guard (R9). -/
theorem LineRec.settledAt_bereft (r : LineRec) (p : Pos) :
    (r.disowned p).settledAt (r.bereft p) =
      if (r.bereft p).state ≠ r.state ∧ r.cfg.guardCount = 0 then { r with
        state := if r.qualified then .incoming else .idle, nearSeize := false, ringOut := false, direction := none,
        privacy := false, connected := [], owner := none
        stateTimer := if r.qualified = true ∧ r.cfg.kind = .ringdown then some r.cfg.answerCount.val else none }
      else r.bereft p := by
  change (if (r.bereft p).state ≠ r.state ∧ r.cfg.guardCount = 0 then guardEnd (r.bereft p) else r.bereft p) = _
  by_cases h : (r.bereft p).state ≠ r.state ∧ r.cfg.guardCount = 0
  · rw [if_pos h, if_pos h, guardEnd_eq, LineRec.bereft, (dropConns_of_state_ne h.1).1]
    rfl
  · rw [if_neg h, if_neg h]

/-- The whole of what the loss of a position's handsets does to a line. -/
theorem leaveEvent_of_position (l : Line) (row : Table 16 Appearance) (r : LineRec) (p : Pos) (send : Conn → Sends) :
    leaveEvent l row (if r.owner = some p then { r with owner := none } else r) (fun c => c.pos == p) send =
      ⟨(r.disowned p).settledAt (r.bereft p),
        (Sends.all ((r.connected.filter fun c => c.pos == p).map send)).and
          (leaveStates l row (r.connected.filter fun c => c.pos == p) (r.bereft p)
            ((r.disowned p).settledAt (r.bereft p)))⟩ := by
  rw [LineRec.disowned_eq, leaveEvent_eq]
  rfl

/-- What forced releases of one position's handsets give. -/
theorem all_forceSends_of_position {l : Line} {why : ReleaseReason} {p : Pos} {hits : List Conn}
    (h : ∀ c ∈ hits, c.pos = p) :
    Sends.all (hits.map (forceSends l why)) =
      { given := hits.map fun c => ⟨.lcu, portOf p, .handsetReleased l c.hs why⟩
        notices := hits.map fun _ => .position p
        fromLcu := hits.map fun c => .released p c.hs (.line l)
        toRtu := (hits.filter fun c => c.covered).map fun c => .release p c.hs l false } := by
  have hf : ∀ c ∈ hits.filter (fun c => c.covered), c.pos = p := fun c hc => h c (List.mem_of_mem_filter hc)
  rw [Sends.all_forceSends]
  congr 1
  · exact List.map_congr_left fun c hc => by rw [h c hc]
  · exact List.map_congr_left fun c hc => by rw [h c hc]
  · exact List.map_congr_left fun c hc => by rw [h c hc]
  · exact List.map_congr_left fun c hc => by rw [hf c hc]

theorem pos_of_mem_hits {r : LineRec} {p : Pos} : ∀ c ∈ r.connected.filter (fun c => c.pos == p), c.pos = p :=
  fun c hc => by simpa using List.of_mem_filter hc

/-! ### APPEARANCE_SET (R29) -/

theorem exec_appearanceSet_of_offers {s : State} {n : Port} {f : Frame} {l : Line} {p : Pos} {m : AppMode}
    (hf : s.Offers n .appearanceSet f) (hl : numOf 64 (byteAt f.body 0) = some l) (hp : numOf 16 (byteAt f.body 1) = some p)
    (hm : appModeOf (byteAt f.body 2) = some m) :
    exec (.appearanceSet n) s = .next (((s.takeFrame n f).changeApp l p m).answer (.port n) .accepted) := by
  change execAppearanceSet n s = _
  rw [execAppearanceSet, State.dispatch_of_offers hf]
  simp only [hl, hp, hm]

theorem State.changeApp_of_same {s : State} {l : Line} {p : Pos} {m : AppMode} (h : ((s.row l).look p).mode = m) :
    s.changeApp l p m = s := by
  rw [State.changeApp, if_pos h]

/-- A mode that takes nothing off the line: it was not FULL and does not become NONE. -/
theorem State.changeApp_of_kept {s : State} {l : Line} {p : Pos} {m : AppMode} (hne : ((s.row l).look p).mode ≠ m)
    (hold : ((s.row l).look p).mode ≠ .full) (hm : m ≠ .none) :
    s.changeApp l p m = (s.setAppMode l p m).emit { notices := [.line l, .position p] } := by
  simp only [State.changeApp, if_neg hne, hold, hm, or_self, if_false]
  rfl

/-- A mode that was FULL or becomes NONE takes the position's handsets off the line. -/
theorem State.changeApp_of_lost {s : State} {l : Line} {p : Pos} {m : AppMode} (hne : ((s.row l).look p).mode ≠ m)
    (h : ((s.row l).look p).mode = .full ∨ m = .none) :
    s.changeApp l p m =
      (((s.setAppMode l p m).emit { notices := [.line l, .position p] }).applyLine l
        (lineLosesFull l ((s.setAppMode l p m).row l) (s.line l) p)).emit
          { fromLcu := if m = .none then [.remove p (.line l)] else [] } := by
  simp only [State.changeApp, if_neg hne, if_pos h]
  by_cases hm : m = .none
  · simp only [if_pos hm]
    rfl
  · simp only [if_neg hm]
    exact (State.emit_nothing _).symm

theorem State.setAppMode_row (s : State) (l : Line) (p : Pos) (m : AppMode) :
    (s.setAppMode l p m).row l = (s.row l).put p ⟨m, ((s.row l).look p).barred⟩ := by
  simp [State.setAppMode, State.row]

/-- What APPEARANCE_SET does to the line whose FULL appearance goes, as one set of sends. -/
theorem lineLosesFull_eq (l : Line) (row : Table 16 Appearance) (r : LineRec) (p : Pos) :
    lineLosesFull l row r p =
      let hits := r.connected.filter fun c => c.pos == p
      let y := (r.disowned p).settledAt (r.bereft p)
      ⟨y,
        { given := hits.map (fun c => ⟨.lcu, portOf p, .handsetReleased l c.hs .removed⟩)
            ++ (if hits = [] then [] else lineStates l row (r.bereft p) .none)
            ++ (if y.state = (r.bereft p).state then [] else lineStates l row y .none)
          notices := hits.map (fun _ => .position p) ++ (if hits = [] then [] else [.line l])
            ++ (if y.state = (r.bereft p).state then [] else [.line l])
          fromLcu := hits.map fun c => .released p c.hs (.line l)
          toRtu := (hits.filter fun c => c.covered).map fun c => .release p c.hs l false }⟩ := by
  simp only [lineLosesFull, leaveEvent_of_position, all_forceSends_of_position pos_of_mem_hits, leaveStates, Sends.and,
    List.append_assoc, List.append_nil]

/-- APPEARANCE_SET of a mode that takes the position's handsets off the line. -/
theorem exec_appearanceSet_of_lost {s : State} {n : Port} {f : Frame} {l : Line} {p : Pos} {m : AppMode} {hits : List Conn}
    {x y : LineRec} (hf : s.Offers n .appearanceSet f) (hl : numOf 64 (byteAt f.body 0) = some l)
    (hp : numOf 16 (byteAt f.body 1) = some p) (hm : appModeOf (byteAt f.body 2) = some m)
    (hne : ((s.row l).look p).mode ≠ m) (h : ((s.row l).look p).mode = .full ∨ m = .none)
    (hhits : hits = (s.line l).connected.filter (fun c => c.pos == p)) (hx : x = (s.line l).bereft p)
    (hy : y = ((s.line l).disowned p).settledAt x) :
    exec (.appearanceSet n) s = .next ((((((s.takeFrame n f).setAppMode l p m).emit
      { notices := [.line l, .position p] }).setLine l y).emit
        { given := hits.map (fun c => ⟨.lcu, portOf p, .handsetReleased l c.hs .removed⟩)
            ++ (if hits = [] then [] else lineStates l ((s.row l).put p ⟨m, ((s.row l).look p).barred⟩) x .none)
            ++ (if y.state = x.state then [] else lineStates l ((s.row l).put p ⟨m, ((s.row l).look p).barred⟩) y .none)
          notices := hits.map (fun _ => .position p) ++ (if hits = [] then [] else [.line l])
            ++ (if y.state = x.state then [] else [.line l])
          fromLcu := hits.map (fun c => .released p c.hs (.line l)) ++ (if m = .none then [.remove p (.line l)] else [])
          toRtu := (hits.filter fun c => c.covered).map fun c => .release p c.hs l false }).answer (.port n) .accepted) := by
  subst hx hy hhits
  rw [exec_appearanceSet_of_offers hf hl hp hm, State.changeApp_of_lost (by simpa using hne) (by simpa using h),
    State.setAppMode_row, lineLosesFull_eq, State.applyLine, State.emit_emit]
  simp only [State.takeFrame_row, State.takeFrame_line, Sends.and, List.append_nil]
  rfl

end Sys2Proof.Machine
end

section
/-! APPEARANCE_BAR (R30), and APPEARANCE_SET as a whole (R29). -/

namespace Sys2Proof.Machine

/-! ### The records in scope -/

theorem State.setBars_row (s : State) (q : Line → Pos → Bool) (on : Bool) (l : Line) (p : Pos) :
    ((s.setBars q on).row l).look p = ⟨((s.row l).look p).mode, if q l p then on else ((s.row l).look p).barred⟩ := by
  simp only [State.setBars]
  split
  all_goals
    simp only [State.row, State.emit_lcu, Table.look_build]
    split <;> rfl

/-- The lines and the positions of the appearances that a bar changes, in number order. -/
def State.barLines (s : State) (q : Line → Pos → Bool) (on : Bool) : List Line :=
  (List.finRange 64).filter fun l => (List.finRange 16).any fun p => q l p && ((s.row l).look p).barred != on
def State.barPositions (s : State) (q : Line → Pos → Bool) (on : Bool) : List Pos :=
  (List.finRange 16).filter fun p => (List.finRange 64).any fun l => q l p && ((s.row l).look p).barred != on

theorem State.mem_barLines {s : State} {q : Line → Pos → Bool} {on : Bool} {l : Line} :
    l ∈ s.barLines q on ↔ ∃ p, q l p = true ∧ ((s.row l).look p).barred ≠ on := by simp [State.barLines]

theorem State.mem_barPositions {s : State} {q : Line → Pos → Bool} {on : Bool} {p : Pos} :
    p ∈ s.barPositions q on ↔ ∃ l, q l p = true ∧ ((s.row l).look p).barred ≠ on := by simp [State.barPositions]

/-- A bar replaces the table of appearances and gives one notice of what changed. -/
theorem State.setBars_eq (s : State) (q : Line → Pos → Bool) (on : Bool) :
    ∃ apps, s.setBars q on = State.emit { s with lcu := { s.lcu with apps := apps } }
      { notices := if s.barLines q on = [] then [] else [.bars (s.barLines q on) (s.barPositions q on)] } := by
  refine ⟨Table.build fun l => Table.build fun p =>
    if q l p then { (s.row l).look p with barred := on } else (s.row l).look p, ?_⟩
  simp only [State.setBars]
  rw [← State.barLines, ← State.barPositions]
  split
  · exact (State.emit_nothing _).symm
  · rfl

/-! ### The scopes (R30) -/

/-- The bodies that name a scope. -/
theorem barScope_some {a b c : Byte} {q : Line → Pos → Bool}
    (h : (∃ l p, a = 0 ∧ numOf 64 b = some l ∧ numOf 16 c = some p ∧ q = fun m k => m == l && k == p)
      ∨ (∃ l, a = 1 ∧ numOf 64 b = some l ∧ q = fun m _ => m == l)
      ∨ (∃ p, a = 2 ∧ numOf 16 c = some p ∧ q = fun _ k => k == p)
      ∨ a = 3 ∧ q = fun _ _ => true) : barScope a b c = some q := by
  rcases h with ⟨l, p, rfl, hl, hp, rfl⟩ | ⟨l, rfl, hl, rfl⟩ | ⟨p, rfl, hp, rfl⟩ | ⟨rfl, rfl⟩
  · simp [barScope, hl, hp]
  · simp [barScope, hl]
  · simp [barScope, hp]
  · simp [barScope]

theorem barScope_none {a b c : Byte}
    (h : 3 < a.toNat ∨ ((a = 0 ∨ a = 1) ∧ numOf 64 b = none) ∨ ((a = 0 ∨ a = 2) ∧ numOf 16 c = none)) :
    barScope a b c = none := by
  rcases h with h | ⟨rfl | rfl, h⟩ | ⟨rfl | rfl, h⟩
  · have ne (k : Byte) (hk : k.toNat ≤ 3) : a ≠ k := fun e => by subst e; omega
    rw [barScope, if_neg (ne 0 (by decide)), if_neg (ne 1 (by decide)), if_neg (ne 2 (by decide)), if_neg (ne 3 (by decide))]
  · simp [barScope, h]
  · simp [barScope, h]
  · cases hl : numOf 64 b <;> simp [barScope, h, hl]
  · simp [barScope, h]

/-- The answer to a port moves that port alone, by what stands in the ports. -/
theorem State.answer_port_congr {s t : State} (h : t.lki = s.lki) (n m : Port) (c : Code) :
    (t.answer (.port n) c).port m = (s.answer (.port n) c).port m := by
  have hp : t.port = s.port := by unfold State.port; rw [h]
  simp only [State.answer, hp]
  cases (s.port n).inFlight with
  | none => exact congrFun hp m
  | some q => simp [hp]

/-- Settles O23: the mode decides whether the line loses the position's handsets, and the scope which flags move. -/
theorem appearancesAreSetAndBarred : Obligations.AppearancesAreSetAndBarred := by
  refine ⟨fun s n f hf => ⟨?badMode, ?mode⟩, ?bars, ?badBars⟩
  case badMode =>
    intro hb
    change execAppearanceSet n s = _
    rw [execAppearanceSet, State.dispatch_of_offers hf]
    rcases hb with hb | hb | hb
    · simp [hb]
    · cases numOf 64 (byteAt f.body 0) <;> simp [hb]
    · cases numOf 64 (byteAt f.body 0) <;> cases numOf 16 (byteAt f.body 1) <;> simp [hb]
  case mode =>
    rintro l p m t hl hp hm rfl
    refine ⟨fun h => ?same, fun hold hne hnone => ?kept, fun hfull hlisten hs hc ho => ?held,
      fun row r x y hits hne h hr hrow hhits hx hy => ?lost⟩
    case same => rw [exec_appearanceSet_of_offers hf hl hp hm, State.changeApp_of_same (by simpa using h)]
    case kept =>
      rw [exec_appearanceSet_of_offers hf hl hp hm, State.changeApp_of_kept (by simpa using hne) (by simpa using hold) hnone]
      rfl
    case held =>
      have hx : { s.line l with owner := none } = (s.line l).bereft p := by simp [LineRec.bereft_eq, hc, ho]
      have hy : { s.line l with owner := none } = ((s.line l).disowned p).settledAt { s.line l with owner := none } :=
        (if_neg fun h => h.1 rfl).symm
      rw [exec_appearanceSet_of_lost (hits := []) hf hl hp hm (by simp [hfull, hlisten]) (.inl hfull) (by simp [hc]) hx hy]
      simp only [hlisten, reduceCtorEq, if_true, if_false, List.map_nil, List.append_nil, List.filter_nil]
      exact congrArg (fun u : State => Host.Outcome.next (u.answer (.port n) .accepted)) (State.emit_nothing _)
    case lost =>
      subst hr hrow
      have hx' : x = (s.line l).bereft p := by rw [hx, hhits, LineRec.bereft_eq]
      have hy' : y = ((s.line l).disowned p).settledAt x := by rw [hy, hx', LineRec.settledAt_bereft]
      rw [exec_appearanceSet_of_lost hf hl hp hm hne h hhits hx' hy']
      rfl
  case bars =>
    intro s n f scope on hf hon hscope
    have hexec : exec (.appearanceBar n) s = .next (((s.takeFrame n f).setBars scope on).answer (.port n) .accepted) := by
      change execAppearanceBar n s = _
      rw [execAppearanceBar, State.dispatch_of_offers hf]
      simp only [barScope_some hscope, hon]
    obtain ⟨apps, ht⟩ := (s.takeFrame n f).setBars_eq scope on
    refine ⟨_, hexec, fun l p => ?row, ?lines, ?waiting, ?ptb, ?gfu, ?cmx, ?rtu, ?squ, ?evu, fun m => ?port,
      s.barLines scope on, s.barPositions scope on, ?chan, (List.sortedLT_finRange 64).pairwise.filter _,
      (List.sortedLT_finRange 16).pairwise.filter _, fun l => State.mem_barLines, fun p => State.mem_barPositions⟩
    case row => simp [State.setBars_row]
    case port => exact State.answer_port_congr (by rw [ht]; rfl) n m _
    case chan =>
      rw [State.answer_port_chan, ht]
      simp only [State.emit_chan, Chan.add, State.takeFrame_chan, List.append_nil]
      rfl
    all_goals
      rw [ht]
      simp
  case badBars =>
    intro s n f hf hb
    change execAppearanceBar n s = _
    rw [execAppearanceBar, State.dispatch_of_offers hf]
    rcases hb with hb | hb | hb | hb
    · simp [barScope_none (.inl hb)]
    · cases barScope (byteAt f.body 0) (byteAt f.body 1) (byteAt f.body 2) <;> simp [hb]
    · simp [barScope_none (.inr (.inl hb))]
    · simp [barScope_none (.inr (.inr hb))]

end Sys2Proof.Machine
end

section
/-! The attachment of a hoot line, decided by GFU with LCU's answer (R22, R62, R63). -/

namespace Sys2Proof.Machine

theorem State.nextAttach_of_first {s : State} {l : Line} {m : AttachToGfu} {rest : List AttachToGfu}
    (h : takeFirst (AttachToGfu.about l) s.chan.attachToGfu = some (m, rest)) :
    s.nextAttach l = some (m, s.setChan { s.chan with attachToGfu := rest }) := by simp [State.nextAttach, h]

/-! ### HOOT_ATTACH at GFU (R62) -/

theorem exec_hootAttach_of_offers {s : State} {n : Port} {f : Frame} {l : Line} {g : Grp} (hf : s.Offers n .hootAttach f)
    (hl : numOf 64 (byteAt f.body 0) = some l) (hg : numOf 16 (byteAt f.body 1) = some g) :
    exec (.hootAttach n) s = .next ((s.takeFrame n f).tellLcu (.question l g)) := by
  change execHootAttach n s = _
  rw [execHootAttach, State.dispatch_of_offers hf]
  simp only [hl, hg]

/-- A group and an answer of LCU with the result of checks 2 to 7, in their order (R62). -/
def GroupRec.AttachDecides (r : GroupRec) (g : Grp) (state : LineState) (kind : LineKind) (hoot : Option Grp)
    (c : Option Code) : Prop :=
  state = .outOfService ∧ c = some .outOfService
    ∨ state ≠ .outOfService ∧ kind ≠ .hoot ∧ c = some .badKind
    ∨ state ≠ .outOfService ∧ kind = .hoot ∧ r.kind ≠ .hoot ∧ c = some .badKind
    ∨ state ≠ .outOfService ∧ kind = .hoot ∧ r.kind = .hoot ∧
      (hoot = some g ∧ c = some .already
        ∨ (∃ k, hoot = some k ∧ k ≠ g) ∧ c = some .lineBusy
        ∨ hoot = none ∧ 8 ≤ r.attached.length ∧ c = some .groupFull
        ∨ hoot = none ∧ r.attached.length < 8 ∧ c = none)

theorem attachCheck_of_decides {r : GroupRec} {g : Grp} {state : LineState} {kind : LineKind} {hoot : Option Grp}
    {c : Option Code} (h : r.AttachDecides g state kind hoot c) : attachCheck r g state kind hoot = c := by
  rcases h with ⟨h1, rfl⟩ | ⟨h1, h2, rfl⟩ | ⟨h1, h2, h3, rfl⟩ | ⟨h1, h2, h3, h⟩
  · simp [attachCheck, h1]
  · simp [attachCheck, h1, h2]
  · simp [attachCheck, h1, h2, h3]
  · rcases h with ⟨rfl, rfl⟩ | ⟨⟨k, rfl, hk⟩, rfl⟩ | ⟨rfl, h8, rfl⟩ | ⟨rfl, h8, rfl⟩
    · simp [attachCheck, h1, h2, h3]
    · simp [attachCheck, h1, h2, h3, hk]
    · simp [attachCheck, h1, h2, h3, Config.attachRoom, h8]
    · simp [attachCheck, h1, h2, h3, Config.attachRoom, Nat.not_le.mpr h8]

section Answer
variable {s : State} {l : Line} {g : Grp} {state : LineState} {kind : LineKind} {hoot : Option Grp} {rest : List AttachToGfu}

/-- GFU takes LCU's answer and refuses the attachment: LCU gives up its hold. -/
theorem exec_attachAnswer_refused {c : Code}
    (h : takeFirst (AttachToGfu.about l) s.chan.attachToGfu = some (.answer l g state kind hoot, rest))
    (hc : attachCheck (s.group g) g state kind hoot = some c) :
    exec (.attachAnswer l) s = .next
      (((s.setChan { s.chan with attachToGfu := rest }).tellLcu (.outcome l none)).answer (.port mgmt) c) := by
  change execAttachAnswer l s = _
  simp only [execAttachAnswer, State.nextAttach_of_first h, State.setChan_group, hc]

/-- GFU attaches the line at the end of the group's list. -/
theorem exec_attachAnswer_accepted
    (h : takeFirst (AttachToGfu.about l) s.chan.attachToGfu = some (.answer l g state kind hoot, rest))
    (hc : attachCheck (s.group g) g state kind hoot = none) :
    exec (.attachAnswer l) s = .next
      ((((s.setChan { s.chan with attachToGfu := rest }).setAttached g ((s.group g).attached ++ [l])).tellLcu
        (.outcome l (some g))).answer (.port mgmt) .accepted) := by
  change execAttachAnswer l s = _
  simp only [execAttachAnswer, State.nextAttach_of_first h, State.setChan_group, hc]

end Answer

/-! ### The outcome at LCU (R22, R62) -/

theorem exec_attachOutcome_none {s : State} {l : Line} {rest : List AttachToLcu}
    (h : takeFirst (AttachToLcu.about l) s.chan.attachToLcu = some (.outcome l none, rest)) :
    exec (.attachOutcome l) s = .next ((s.setChan { s.chan with attachToLcu := rest }).setLine l
      { s.line l with attachHold := false }) := by
  change execAttachOutcome l s = _
  simp only [execAttachOutcome, h]

theorem exec_attachOutcome_some {s : State} {l : Line} {g : Grp} {rest : List AttachToLcu} {x : LineRec}
    (h : takeFirst (AttachToLcu.about l) s.chan.attachToLcu = some (.outcome l (some g), rest))
    (hs : (s.line l).state = .idle) (hk : (s.line l).cfg.kind = .hoot)
    (hx : x = { s.line l with attachHold := false, state := .attached, hoot := some g }) :
    exec (.attachOutcome l) s = .next (((s.setChan { s.chan with attachToLcu := rest }).setLine l x).emit
      { given := lineStates l (s.row l) x .none, notices := [.line l] }) := by
  change execAttachOutcome l s = _
  simp only [execAttachOutcome, h, hs, hk, and_self, if_true]
  rw [lineEvent_of_moved (.inl (by simp)), Sends.nothing_and, hx]
  rfl

/-- Settles O26: each block's part of the attachment is one message taken and one sent. -/
theorem hootAttachIsDecidedByBoth : Obligations.HootAttachIsDecidedByBoth := by
  refine ⟨?bad, fun s l g => ⟨?asked, ?answered, ?decided, ?attached, ?refused⟩⟩
  case bad =>
    intro s n f hf hb
    change execHootAttach n s = _
    rw [execHootAttach, State.dispatch_of_offers hf]
    rcases hb with hb | hb
    · simp [hb]
    · cases numOf 64 (byteAt f.body 0) <;> simp [hb]
  case asked =>
    intro n f hf hl hg
    rw [exec_hootAttach_of_offers hf hl hg]
    rfl
  case answered =>
    rintro rest r h rfl hh
    change execAttachQuestion l s = _
    simp only [execAttachQuestion, h, hh, Bool.false_eq_true, if_false]
  case decided =>
    rintro rest state kind hoot r c t h rfl hc rfl
    have hcheck := attachCheck_of_decides hc
    refine ⟨fun code hcode => ?_, fun hnone => ?_⟩
    · subst hcode
      rw [exec_attachAnswer_refused h hcheck]
      rfl
    · subst hnone
      rw [exec_attachAnswer_accepted h hcheck]
      rfl
  case attached =>
    rintro rest r h rfl hs hk x hx
    exact exec_attachOutcome_some h hs hk hx
  case refused => exact fun rest h => exec_attachOutcome_none h

end Sys2Proof.Machine
end

section
/-! What the end of a position's standing does to a floor (R80, R84, R85, R92 to R94). -/

namespace Sys2Proof.Machine

/-! ### The grant rule's pick (R80) -/

theorem topWaiter_mem {ws : List Waiter} {w : Waiter} (h : topWaiter ws = some w) : w ∈ ws := by
  induction ws generalizing w with
  | nil => simp [topWaiter] at h
  | cons v vs ih =>
    simp only [topWaiter] at h
    cases ht : topWaiter vs with
    | none => simp_all
    | some u =>
      have hu := ih ht
      simp only [ht] at h
      split at h <;> simp_all

/-- The highest level, and of equal levels the earliest arrival. -/
theorem topWaiter_of_picks {before after : List Waiter} {w : Waiter} (hb : ∀ x ∈ before, x.level < w.level)
    (ha : ∀ x ∈ after, x.level ≤ w.level) : topWaiter (before ++ w :: after) = some w := by
  induction before with
  | nil =>
    simp only [List.nil_append, topWaiter]
    cases ht : topWaiter after with
    | none => rfl
    | some v => exact if_neg (not_lt.mpr (ha v (topWaiter_mem ht)))
  | cons x xs ih =>
    simp only [List.cons_append, topWaiter, ih fun y hy => hb y (List.mem_cons_of_mem x hy)]
    exact if_pos (hb x List.mem_cons_self)

/-! ### Taking an entry out -/

theorem filter_pos_ne_of_forall {ws : List Waiter} {p : Pos} (h : ∀ x ∈ ws, x.pos ≠ p) :
    ws.filter (fun x => x.pos != p) = ws := List.filter_eq_self.mpr (by simpa using h)

theorem filter_pos_eq_of_forall {ws : List Waiter} {p : Pos} (h : ∀ x ∈ ws, x.pos ≠ p) :
    ws.filter (fun x => x.pos == p) = [] := List.filter_eq_nil_iff.mpr (by simpa using h)

/-- A list without the one element that a test leaves out. -/
theorem filter_of_split {α : Type} {q : α → Bool} {before after : List α} {x : α} (hx : q x = false)
    (h : ∀ y ∈ before ++ after, q y = true) : (before ++ x :: after).filter q = before ++ after := by
  rw [List.filter_append, List.filter_cons_of_neg (by simp [hx]), ← List.filter_append, List.filter_eq_self.mpr h]

/-- The entries before and after one that stands alone for its position. -/
theorem filter_pos_ne_of_split {before after : List Waiter} {w : Waiter} (h : ∀ x ∈ before ++ after, x.pos ≠ w.pos) :
    (before ++ w :: after).filter (fun x => x.pos != w.pos) = before ++ after :=
  filter_of_split (by simp) fun x hx => by simpa using h x hx

theorem filter_pos_eq_of_split {before after : List Waiter} {w : Waiter} (h : ∀ x ∈ before ++ after, x.pos ≠ w.pos) :
    (before ++ w :: after).filter (fun x => x.pos == w.pos) = [w] := by
  rw [List.filter_append, List.filter_cons_of_pos (by simp), filter_pos_eq_of_forall fun x hx => h x (List.mem_append_left _ hx),
    filter_pos_eq_of_forall fun x hx => h x (List.mem_append_right _ hx), List.nil_append]

/-! ### The deferred entries of a level (R84) -/

/-- The floor once the entries `up` have moved up behind the queue `wait`. -/
def Floor.movedUp (f : Floor) (wait up stay : List Waiter) : Floor :=
  { f with wait := wait ++ up, deferred := stay, served := up.foldl (fun m x => m.put x.pos false) f.served }

/-- Behind the last entry of a level its deferred entries move up. -/
theorem FloorAct.moveDeferred_eq {a : FloorAct} {w : Waiter} {up stay : List Waiter}
    (h : (up, stay) = if ∃ x ∈ a.floor.wait, x.level = w.level then ([], a.floor.deferred)
      else (a.floor.deferred.filter fun x => x.level == w.level, a.floor.deferred.filter fun x => x.level != w.level)) :
    a.moveDeferred w.level = { a with floor := a.floor.movedUp a.floor.wait up stay, moved := a.moved ++ up } := by
  by_cases hx : ∃ x ∈ a.floor.wait, x.level = w.level
  · rw [if_pos hx] at h
    obtain ⟨rfl, rfl⟩ := Prod.mk.inj h
    rw [FloorAct.moveDeferred, if_pos (by simpa using hx)]
    simp [Floor.movedUp]
  · rw [if_neg hx] at h
    obtain ⟨rfl, rfl⟩ := Prod.mk.inj h
    rw [FloorAct.moveDeferred, if_neg (by simpa using hx)]
    rfl

theorem FloorAct.moveDeferred_of_none {a : FloorAct} (h : a.floor.deferred = []) (level : Fin 4) :
    a.moveDeferred level = a := by
  obtain ⟨⟨_, _, deferred, _, _, _⟩, _, _, _, _, _⟩ := a
  obtain rfl : deferred = [] := h
  simp [FloorAct.moveDeferred]

/-! ### A position that leaves (R92 to R94) -/

theorem Floor.engaged_eq_false {f : Floor} {p : Pos} :
    f.engaged p = false ↔ f.holderPos ≠ some p ∧ (∀ w ∈ f.wait, w.pos ≠ p) ∧ (∀ w ∈ f.deferred, w.pos ≠ p)
      ∧ ∀ k ∈ f.talkers, k.pos ≠ p := by
  cases h : f.holder <;> simp [Floor.engaged, Floor.holderPos, h, and_assoc]

section Leave
variable {f : Floor} {limit : Level} {why : Option LostReason} {p : Pos}

/-- The holder leaves a floor on which nobody waits. -/
theorem FloorAct.leave_of_holder_alone (hp : f.holderPos = some p) (hw : f.wait = []) :
    FloorAct.leave { floor := f } limit why p =
      { floor := { f with holder := none, holdTimer := none, served := f.served.put p false }
        lost := why.toList.map fun r => (p, r)
        touched := [p] } := by
  obtain ⟨h, hh, rfl⟩ : ∃ h, f.holder = some h ∧ h.pos = p := by simpa [Floor.holderPos] using hp
  simp [FloorAct.leave, hp, FloorAct.endGrant, hh, FloorAct.grantRule, hw, topWaiter, unmark]

/-- The holder leaves, and the floor passes by the grant rule. -/
theorem FloorAct.leave_of_holder_picks {w : Waiter} {a b up stay : List Waiter} (hp : f.holderPos = some p)
    (hw : f.Picks w a b up stay) :
    FloorAct.leave { floor := f } limit why p =
      { floor := { f with
          holder := some ⟨w.pos, w.level, w.latched, false, w.origin⟩, wait := a ++ b ++ up, deferred := stay
          holdTimer := if limit = 0 then none else some limit.val
          served := up.foldl (fun m x => m.put x.pos false) (f.served.put p false) }
        lost := why.toList.map fun r => (p, r)
        granted := [w.holds]
        moved := up
        touched := [p, w.pos] } := by
  obtain ⟨h, hh, rfl⟩ : ∃ h, f.holder = some h ∧ h.pos = p := by simpa [Floor.holderPos] using hp
  obtain ⟨⟨hwait, hne, hup⟩, hb, ha⟩ := hw
  have htop : topWaiter f.wait = some w := hwait ▸ topWaiter_of_picks hb ha
  have hrest : f.wait.filter (fun v => v.pos != w.pos) = a ++ b := hwait ▸ filter_pos_ne_of_split hne
  rw [FloorAct.leave, if_pos hp]
  simp only [FloorAct.endGrant, hh, FloorAct.grantRule, htop, hrest, FloorAct.grant]
  rw [FloorAct.moveDeferred_eq (up := up) (stay := stay) hup]
  simp [Floor.movedUp, Waiter.holds, unmark]

/-- A position that does not hold the floor leaves its queue, its deferred list and its talkers. -/
theorem FloorAct.leave_of_other (hp : f.holderPos ≠ some p) :
    FloorAct.leave { floor := f } limit why p =
      (f.wait.filter fun w => w.pos == p).foldl (fun c w => c.moveDeferred w.level)
        { floor := { f with
            served := f.served.put p false
            wait := f.wait.filter fun w => w.pos != p
            deferred := f.deferred.filter fun w => w.pos != p
            talkers := f.talkers.filter fun k => k.pos != p }
          lost := if f.engaged p then why.toList.map fun r => (p, r) else []
          touched := if f.talkers.any fun k => k.pos == p then [p] else [] } := by
  simp [FloorAct.leave, hp, FloorAct.withdraw, unmark]

/-- A position with no entry in the wait queue. -/
theorem FloorAct.leave_of_unqueued (hp : f.holderPos ≠ some p) (hw : ∀ w ∈ f.wait, w.pos ≠ p) :
    FloorAct.leave { floor := f } limit why p =
      { floor := { f with
          served := f.served.put p false
          deferred := f.deferred.filter fun w => w.pos != p
          talkers := f.talkers.filter fun k => k.pos != p }
        lost := if f.engaged p then why.toList.map fun r => (p, r) else []
        touched := if f.talkers.any fun k => k.pos == p then [p] else [] } := by
  rw [FloorAct.leave_of_other hp, filter_pos_eq_of_forall hw, filter_pos_ne_of_forall hw]
  rfl

/-- A position that is not engaged loses its served mark. -/
theorem FloorAct.leave_of_free (he : f.engaged p = false) :
    FloorAct.leave { floor := f } limit why p = { floor := { f with served := f.served.put p false } } := by
  obtain ⟨hp, hw, hd, ht⟩ := Floor.engaged_eq_false.mp he
  have ht' : f.talkers.filter (fun k => k.pos != p) = f.talkers := List.filter_eq_self.mpr (by simpa using ht)
  rw [FloorAct.leave_of_unqueued hp hw, filter_pos_ne_of_forall hd, ht']
  simpa [he] using ht

/-- A position on a floor that has no deferred entries. -/
theorem FloorAct.leave_of_no_deferred (hp : f.holderPos ≠ some p) (hd : f.deferred = []) :
    FloorAct.leave { floor := f } limit why p =
      { floor := { f with
          served := f.served.put p false
          wait := f.wait.filter fun w => w.pos != p
          talkers := f.talkers.filter fun k => k.pos != p }
        lost := if f.engaged p then why.toList.map fun r => (p, r) else []
        touched := if f.talkers.any fun k => k.pos == p then [p] else [] } := by
  have fold (ws : List Waiter) (c : FloorAct) (hc : c.floor.deferred = []) :
      ws.foldl (fun c w => c.moveDeferred w.level) c = c := by
    induction ws with
    | nil => rfl
    | cons w ws ih => rw [List.foldl_cons, FloorAct.moveDeferred_of_none hc, ih]
  rw [FloorAct.leave_of_other hp, fold _ _ (by simp [hd])]
  simp [hd]

/-- A waiter leaves; behind the last entry of its level the deferred ones move up. -/
theorem FloorAct.leave_of_queued {w : Waiter} {a b up stay : List Waiter} (hp : f.holderPos ≠ some p)
    (hw : f.Splits w a b up stay) (hpos : w.pos = p) (hd : ∀ x ∈ f.deferred, x.pos ≠ p) :
    FloorAct.leave { floor := f } limit why p =
      { floor := { f with
          wait := a ++ b ++ up, deferred := stay, talkers := f.talkers.filter fun k => k.pos != p
          served := up.foldl (fun m x => m.put x.pos false) (f.served.put p false) }
        lost := why.toList.map fun r => (p, r)
        moved := up
        touched := if f.talkers.any fun k => k.pos == p then [p] else [] } := by
  subst hpos
  obtain ⟨hwait, hne, hup⟩ := hw
  have he : f.engaged w.pos = true := by simp [Floor.engaged, hwait]
  rw [FloorAct.leave_of_other hp, hwait, filter_pos_eq_of_split hne, filter_pos_ne_of_split hne,
    filter_pos_ne_of_forall hd, if_pos he, List.foldl_cons, List.foldl_nil,
    FloorAct.moveDeferred_eq (up := up) (stay := stay) hup]
  rfl

/-! ### What it sends (R81, R95) -/

theorem Floor.holderPos_mk (h : Option Holder) (w d : List Waiter) (m : PosSet) (t : List Talker) (x : Timer) :
    (Floor.mk h w d m t x).holderPos = h.map fun k => k.pos := rfl

section Sends
variable {g : Grp} {hs : PosSet}

/-- FLOOR_LOST for a position whose engagement is ended, where there is a reason to give. -/
def lostRecords (g : Grp) (p : Pos) (why : Option LostReason) : List Given :=
  why.toList.map fun r => ⟨.gfu, portOf p, .floorLost g r⟩

theorem FloorAct.leave_sends_of_holder_alone (hp : f.holderPos = some p) (hw : f.wait = []) :
    (FloorAct.leave { floor := f } limit why p).sends g hs f =
      { given := lostRecords g p why ++ (posList hs).map fun i => ⟨.gfu, portOf i, .floorHolder g none⟩
        notices := [.group g, .position p] } := by
  rw [FloorAct.leave_of_holder_alone hp hw]
  simp [FloorAct.sends, hp, Floor.holderPos_mk, lostRecords, Function.comp_def]

theorem FloorAct.leave_sends_of_holder_picks {w : Waiter} {a b up stay : List Waiter} (hp : f.holderPos = some p)
    (hw : f.Picks w a b up stay) (hne : w.pos ≠ p) :
    (FloorAct.leave { floor := f } limit why p).sends g hs f =
      { given := lostRecords g p why ++ (⟨.gfu, portOf w.pos, .floorGranted g w.level w.latched false⟩
          :: up.map fun k => ⟨.gfu, portOf k.pos, .floorWait g k.level⟩)
          ++ (posList hs).map fun i => ⟨.gfu, portOf i, .floorHolder g (some w.pos)⟩
        notices := [.group g, .position p, .position w.pos] } := by
  rw [FloorAct.leave_of_holder_picks hp hw]
  simp [FloorAct.sends, hp, Floor.holderPos_mk, lostRecords, Function.comp_def, hne.symm, Waiter.holds]

theorem FloorAct.leave_sends_of_queued {w : Waiter} {a b up stay : List Waiter} (hp : f.holderPos ≠ some p)
    (hw : f.Splits w a b up stay) (hpos : w.pos = p) (hd : ∀ x ∈ f.deferred, x.pos ≠ p) :
    (FloorAct.leave { floor := f } limit why p).sends g hs f =
      { given := lostRecords g p why ++ up.map fun k => ⟨.gfu, portOf k.pos, .floorWait g k.level⟩
        notices := if ∃ k ∈ f.talkers, k.pos = p then [.group g, .position p] else [] } := by
  rw [FloorAct.leave_of_queued hp hw hpos hd]
  by_cases ht : ∃ k ∈ f.talkers, k.pos = p <;>
    simp [FloorAct.sends, Floor.holderPos, lostRecords, Function.comp_def, ht]

/-- A position that does not hold the floor, and behind whom nobody moves up. -/
theorem FloorAct.leave_sends_of_other (hp : f.holderPos ≠ some p) (hw : (∀ w ∈ f.wait, w.pos ≠ p) ∨ f.deferred = []) :
    (FloorAct.leave { floor := f } limit why p).sends g hs f =
      { given := if f.engaged p then lostRecords g p why else []
        notices := if ∃ k ∈ f.talkers, k.pos = p then [.group g, .position p] else [] } := by
  rcases hw with hw | hd
  · rw [FloorAct.leave_of_unqueued hp hw]
    by_cases ht : ∃ k ∈ f.talkers, k.pos = p <;> cases he : f.engaged p <;>
      simp [FloorAct.sends, Floor.holderPos, lostRecords, Function.comp_def, ht]
  · rw [FloorAct.leave_of_no_deferred hp hd]
    by_cases ht : ∃ k ∈ f.talkers, k.pos = p <;> cases he : f.engaged p <;>
      simp [FloorAct.sends, Floor.holderPos, lostRecords, Function.comp_def, ht]

theorem FloorAct.leave_sends_of_free (he : f.engaged p = false) :
    (FloorAct.leave { floor := f } limit why p).sends g hs f = {} := by
  obtain ⟨hp, hw, -, ht⟩ := Floor.engaged_eq_false.mp he
  rw [FloorAct.leave_sends_of_other hp (.inl hw), if_neg (by simp [he]), if_neg (by simpa using ht)]

end Sends

end Leave

end Sys2Proof.Machine
end

section
/-! Hoot lines that leave their group, and the listening notices (R22, R23, R63, R66, R77, R92). -/

namespace Sys2Proof.Machine

/-! ### A line that leaves its group (R63) -/

theorem exec_hootDetach_of_offers {s : State} {n : Port} {f : Frame} {l : Line} {g : Grp} (hf : s.Offers n .hootDetach f)
    (hl : numOf 64 (byteAt f.body 0) = some l) (hg : numOf 16 (byteAt f.body 1) = some g)
    (hh : (s.line l).attachHold = false) :
    exec (.hootDetach n) s = .next (
      if l ∈ (s.group g).attached then
        (((s.takeFrame n f).setAttached g ((s.group g).attached.filter fun k => k != l)).lineDetach l g).answer (.port n)
          .accepted
      else (s.takeFrame n f).answer (.port n) .notConnected) := by
  change execHootDetach n s = _
  rw [execHootDetach, State.dispatchIf_of_offers hf (by simp [State.lineHeld_of_num hl, hh])]
  simp only [hl, hg, State.takeFrame_group]
  rfl

@[simp] theorem State.setAttached_line (s : State) (g : Grp) (ls : List Line) (j : Line) :
    (s.setAttached g ls).line j = s.line j := rfl
@[simp] theorem State.setAttached_row (s : State) (g : Grp) (ls : List Line) (j : Line) :
    (s.setAttached g ls).row j = s.row j := rfl

/-- An ATTACHED line that leaves its group is IDLE (R22). -/
theorem State.lineDetach_of_attached {s : State} {l : Line} {g : Grp} {x : LineRec} (hs : (s.line l).state = .attached)
    (hg : (s.line l).hoot = some g) (hx : x = { s.line l with state := .idle, hoot := none }) :
    s.lineDetach l g = (s.setLine l x).emit { given := lineStates l (s.row l) x .none, notices := [.line l] } := by
  rw [State.lineDetach, if_pos ⟨hs, hg⟩, lineEvent_of_moved (.inl (by simp [hs])), Sends.nothing_and, hx]
  rfl

theorem State.lineDetach_of_other {s : State} {l : Line} {g : Grp} (hs : (s.line l).state ≠ .attached) :
    s.lineDetach l g = s := if_neg fun h => hs h.1

/-- An attached line that goes out of service tells GFU (R23). -/
theorem State.lineOut_of_attached {s : State} {l : Line} {g : Grp} (hs : (s.line l).state ≠ .outOfService)
    (hg : (s.line l).hoot = some g) :
    s.lineOut l =
      let t := s.applyLine l (serviceOut l (s.row l) (s.line l))
      t.setChan { t.chan with attachToGfu := t.chan.attachToGfu ++ [.removal l g] } := by
  simp only [State.lineOut, if_neg hs, hg]

theorem exec_hootLineRemoval_of_first {s : State} {l : Line} {g : Grp} {left : List AttachToGfu}
    (h : takeFirst (AttachToGfu.about l) s.chan.attachToGfu = some (.removal l g, left)) :
    exec (.hootLineRemoval l) s = .next (
      if l ∈ (s.group g).attached then
        (s.setChan { s.chan with attachToGfu := left }).setAttached g ((s.group g).attached.filter fun k => k != l)
      else s.setChan { s.chan with attachToGfu := left }) := by
  change execHootLineRemoval l s = _
  by_cases hm : l ∈ (s.group g).attached <;>
    simp only [execHootLineRemoval, State.nextAttach_of_first h, State.setChan_group, hm, if_true, if_false]

/-! ### Listening notices (R66) -/

theorem State.setGroup_setGroup (s : State) (g : Grp) (a b : GroupRec) : (s.setGroup g a).setGroup g b = s.setGroup g b := by
  simp only [State.setGroup, Table.put_put]

section Listening
variable {s : State} {p : Pos} {g : Grp} {rest : List Listening} {ofReset : Bool}

theorem State.nextListening_of_head {m : Listening} (h : s.chan.listening = m :: rest) :
    s.nextListening m.on = some (m, s.setChan { s.chan with listening := rest }) := by
  simp only [State.nextListening, h, if_true]

theorem exec_listenOn_of_head (h : s.chan.listening = ⟨p, g, true, ofReset⟩ :: rest) :
    exec .listenOn s = .next (
      if (s.group g).kind = .hoot then (s.setChan { s.chan with listening := rest }).setGroup g
        { s.group g with listening := (s.group g).listening.put p true }
      else s.setChan { s.chan with listening := rest }) := by
  change execListenOn s = _
  simp only [execListenOn, State.nextListening_of_head (m := ⟨p, g, true, ofReset⟩) h, State.setChan_group]
  rfl

/-- A notice of a soft reset takes the position out of the set alone (R77). -/
theorem exec_listenOff_of_reset (h : s.chan.listening = ⟨p, g, false, true⟩ :: rest) :
    exec .listenOff s = .next ((s.setChan { s.chan with listening := rest }).setGroup g
      { s.group g with listening := (s.group g).listening.put p false }) := by
  change execListenOff s = _
  simp only [execListenOff, State.nextListening_of_head (m := ⟨p, g, false, true⟩) h]
  rfl

/-- Any other listen-off notice ends the position's standing on the floor too (R92). -/
theorem exec_listenOff_of_head {x : GroupRec} {fl : Floor} {o : Sends} (h : s.chan.listening = ⟨p, g, false, false⟩ :: rest)
    (hx : x = { s.group g with listening := (s.group g).listening.put p false })
    (hf : (FloorAct.leave { floor := (s.group g).floor } (s.group g).holdLimit (some .left) p).floor = fl)
    (ho : (FloorAct.leave { floor := (s.group g).floor } (s.group g).holdLimit (some .left) p).sends g x.listening
      (s.group g).floor = o) :
    exec .listenOff s = .next (((s.setChan { s.chan with listening := rest }).setGroup g { x with floor := fl }).emit o) := by
  subst hx hf ho
  change execListenOff s = _
  simp only [execListenOff, State.nextListening_of_head (m := ⟨p, g, false, false⟩) h, Bool.false_eq_true, if_false]
  simp only [State.setListening, State.actFloor, State.actFloorFor, State.setGroup_group, State.setChan_group, if_true,
    State.setGroup_setGroup]

end Listening

/-- Settles O27: the line leaves by each block's own rule, and the listener's standing decides what the floor loses. -/
theorem hootLinesAndListeners : Obligations.HootLinesAndListeners := by
  refine ⟨?bad, fun s l g r rest hr hrest => ⟨?detach, ?out, ?removal, ?gone⟩, ?listening⟩
  case bad =>
    intro s n f hf hh hb
    change execHootDetach n s = _
    rw [execHootDetach, State.dispatchIf_of_offers hf (by simp [hh])]
    rcases hb with hb | hb
    · simp [hb]
    · cases numOf 64 (byteAt f.body 0) <;> simp [hb]
  case detach =>
    intro n f hf hl hg hh
    subst hr hrest
    rw [exec_hootDetach_of_offers hf hl hg hh]
    refine ⟨fun hm => ?_, fun hm hs hg x hx => ?_, fun hm hs => ?_⟩
    · rw [if_neg hm]
    · rw [if_pos hm, State.lineDetach_of_attached (x := x) (by simpa using hs) (by simpa using hg) (by simpa using hx)]
      rfl
    · rw [if_pos hm, State.lineDetach_of_other (by simp [hs])]
      rfl
  case out =>
    intro n f x hf hl h0 hh hs hg hc hx
    have hout : (s.line l).state ≠ .outOfService := by simp [hs]
    refine ⟨_, exec_lineServiceOut_of_line hf hl h0 hh, ?_, ?_, ?_⟩
    all_goals
      rw [State.lineOut_of_attached (g := g) (by simpa using hout) (by simpa using hg)]
      simp [serviceOut_eq hout, LineRec.forced, hc, hx, toOutOfService_eq, offLine, Sends.and, Chan.add]
  case removal =>
    intro left h hm
    subst hr hrest
    rw [exec_hootLineRemoval_of_first h, if_pos hm]
    rfl
  case gone =>
    intro left h hm
    subst hr
    rw [exec_hootLineRemoval_of_first h, if_neg hm]
  case listening =>
    rintro s p g rest r x ofReset on rfl h hx
    refine ⟨?on, ?onOther, ?offReset, ?offFree, ?offTalker, ?offHolder, ?offPicks, ?offQueued, ?offDeferred⟩
    case on =>
      rintro rfl hk
      rw [exec_listenOn_of_head h, if_pos hk, hx]
    case onOther =>
      rintro rfl hk
      rw [exec_listenOn_of_head h, if_neg hk]
    case offReset =>
      rintro rfl rfl
      rw [exec_listenOff_of_reset h, hx]
    case offFree =>
      rintro rfl rfl he
      rw [exec_listenOff_of_head h hx (congrArg _ (FloorAct.leave_of_free he)) (FloorAct.leave_sends_of_free he),
        State.emit_nothing]
    case offTalker =>
      rintro rfl rfl hh hw hd a b o ht hne
      have hp : (s.group g).floor.holderPos ≠ some p := by simp [Floor.holderPos, hh]
      have he : (s.group g).floor.engaged p = true := by simp [Floor.engaged, ht]
      have hrest : (s.group g).floor.talkers.filter (fun k => k.pos != p) = a ++ b := by
        rw [ht]
        exact filter_of_split (by simp) fun k hk => by simpa using hne k hk
      refine exec_listenOff_of_head h hx ?_ ?_
      · rw [FloorAct.leave_of_no_deferred hp hd, hrest]
        simp [hw]
      · rw [FloorAct.leave_sends_of_other hp (.inr hd), if_pos he, if_pos ⟨⟨p, o⟩, by simp [ht], rfl⟩]
        rfl
    case offHolder =>
      rintro rfl rfl hh hw
      exact exec_listenOff_of_head h hx (congrArg _ (FloorAct.leave_of_holder_alone hh hw))
        (FloorAct.leave_sends_of_holder_alone hh hw)
    case offPicks =>
      rintro w a b up stay rfl rfl hh hw hne
      rw [exec_listenOff_of_head h hx (congrArg _ (FloorAct.leave_of_holder_picks hh hw))
        (FloorAct.leave_sends_of_holder_picks hh hw hne), hx]
      rfl
    case offQueued =>
      rintro w a b up stay rfl rfl hh hw hpos hd ht
      have htk : (s.group g).floor.talkers.filter (fun k => k.pos != p) = (s.group g).floor.talkers :=
        List.filter_eq_self.mpr (by simpa using ht)
      refine exec_listenOff_of_head h hx ?_ ?_
      · rw [FloorAct.leave_of_queued hh hw hpos hd, htk]
      · rw [FloorAct.leave_sends_of_queued hh hw hpos hd, if_neg (by simpa using ht)]
        rfl
    case offDeferred =>
      rintro a b w rfl rfl hh ht hpos hne hd hw
      have htk : (s.group g).floor.talkers.filter (fun k => k.pos != p) = (s.group g).floor.talkers :=
        List.filter_eq_self.mpr (by simpa using ht)
      have he : (s.group g).floor.engaged p = true := by simp [Floor.engaged, hd, hpos]
      have hrest : (s.group g).floor.deferred.filter (fun k => k.pos != p) = a ++ b := by
        rw [hd]
        exact filter_of_split (by simp [hpos]) fun k hk => by simpa using hne k hk
      refine exec_listenOff_of_head h hx ?_ ?_
      · rw [FloorAct.leave_of_unqueued hh hw, htk, hrest]
      · rw [FloorAct.leave_sends_of_other hh (.inl hw), if_pos he, if_neg (by simpa using ht)]
        rfl

end Sys2Proof.Machine
end

section
/-! The position-down notice at PTB, LCU, SQU and EVU, and the UP notice at GFU (R49 to R51, R56, R154, R168). -/

namespace Sys2Proof.Machine

/-! ### PTB (R49) -/

/-- The return notices of both claims, spelled out. -/
theorem PosRec.returns_eq (r : PosRec) (o : Owner) (p : Pos) (past : Prop) [Decidable past] :
    r.returns o p (decide ¬past) =
      if past then [] else [Handset.A, .B].filterMap fun h => returnOf o p h (r.claim.of h) := by
  by_cases h : past <;> simp [PosRec.returns, h]

theorem returnOf_lcu (p : Pos) (h : Handset) (c : Claim) :
    returnOf .lcu p h c = match c with
      | .line l => some (.giveBack p h (.line l))
      | _ => none := by cases c <;> rfl

theorem returnOf_gfu (p : Pos) (h : Handset) (c : Claim) :
    returnOf .gfu p h c = match c with
      | .group g => some (.giveBack p h (.group g))
      | .call c => some (.giveBack p h (.call c))
      | _ => none := by cases c <;> rfl

theorem exec_positionDownAtPtb_of_first {s : State} {p : Pos} {rest : List Pos}
    (h : takeFirst (· == p) s.chan.downPtb = some (p, rest)) :
    exec (.positionDownAtPtb p) s = .next (((s.setChan { s.chan with downPtb := rest }).setPos p (s.pos p).down).emit
      { notices := [.position p], listening := listeningNotices p (s.pos p).assign (Table.fill .none) false
        toLcu := if p ∈ s.chan.downLcu then [] else [Handset.A, .B].filterMap fun h => returnOf .lcu p h ((s.pos p).claim.of h)
        toGfu := if p ∈ s.chan.downGfu then [] else
          [Handset.A, .B].filterMap fun h => returnOf .gfu p h ((s.pos p).claim.of h) }) := by
  rw [← PosRec.returns_eq, ← PosRec.returns_eq]
  change execPositionDownAtPtb p s = _
  simp only [execPositionDownAtPtb, h]
  rfl

/-! ### LCU (R50, R51) -/

/-- What one line sends when it loses a position. -/
theorem lineLosesPosition_eq (l : Line) (row : Table 16 Appearance) (r : LineRec) (p : Pos) (tell : Bool) :
    lineLosesPosition l row r p tell =
      let hits := r.connected.filter fun c => c.pos == p
      let y := (r.disowned p).settledAt (r.bereft p)
      ⟨y,
        { given := (if hits = [] then [] else lineStates l row (r.bereft p) .none)
            ++ if y.state = (r.bereft p).state then [] else lineStates l row y .none
          notices := hits.map (fun _ => .position p) ++ (if hits = [] then [] else [.line l])
            ++ if y.state = (r.bereft p).state then [] else [.line l]
          fromLcu := if tell then hits.map fun c => .released p c.hs (.line l) else []
          toRtu := (hits.filter fun c => c.covered).map fun c => .release p c.hs l false }⟩ := by
  have hpos := pos_of_mem_hits (r := r) (p := p)
  have hcov : ∀ c ∈ (r.connected.filter fun c => c.pos == p).filter fun c => c.covered, c.pos = p :=
    fun c hc => hpos c (List.mem_of_mem_filter hc)
  simp only [lineLosesPosition, leaveEvent_of_position, Sends.all_lossSends, leaveStates, Sends.and, List.nil_append,
    List.append_nil, List.append_assoc]
  congr 2
  · exact congrArg (· ++ _) (List.map_congr_left fun c hc => by rw [hpos c hc])
  · cases tell
    · rfl
    · exact List.map_congr_left fun c hc => by rw [hpos c hc]
  · exact List.map_congr_left fun c hc => by rw [hcov c hc]

/-- The waiting takes of a position are ended, each refused HANDSET_BUSY (R51). -/
theorem State.endWaiting_of_position (s : State) (p : Pos) :
    s.endWaiting (fun w => w.pos == p) false = State.emit
      { s with lcu := { s.lcu with
          waiting := s.lcu.waiting.map fun w => if w.pos = p ∧ w.ended = none then { w with ended := some false } else w } }
      { fromLcu := (s.lcu.waiting.filter fun w => decide (w.pos = p ∧ w.ended = none)).map fun w =>
          .outcome p w.hs w.via (.inr .handsetBusy) } := by
  have hit (w : Waiting) : (w.pos == p && w.ended.isNone) = decide (w.pos = p ∧ w.ended = none) := by
    rw [Bool.eq_iff_iff]
    simp
  have hmap : (s.lcu.waiting.filter fun w => decide (w.pos = p ∧ w.ended = none)).map (fun w =>
        ToPtb.outcome w.pos w.hs w.via (.inr .handsetBusy)) =
      (s.lcu.waiting.filter fun w => decide (w.pos = p ∧ w.ended = none)).map fun w =>
        .outcome p w.hs w.via (.inr .handsetBusy) :=
    List.map_congr_left fun w hw => by
      obtain ⟨hw, -⟩ : w.pos = p ∧ w.ended = none := by simpa using List.of_mem_filter hw
      rw [hw]
  simp only [State.endWaiting, hit, decide_eq_true_eq, hmap]
  rfl

/-- The lines as a lost position leaves them. -/
def LineRec.lost (r : LineRec) (p : Pos) : LineRec := (r.disowned p).settledAt (r.bereft p)

/-- What LCU does at a position-down notice: every line, and the waiting takes, in one step (R50, R51). -/
theorem State.lcuDown_eq (s : State) (p : Pos) :
    s.lcuDown p = State.emit
      { s with lcu := { s.lcu with
          lines := Table.build fun l => (s.line l).lost p
          waiting := s.lcu.waiting.map fun w => if w.pos = p ∧ w.ended = none then { w with ended := some false } else w } }
      { given := (List.finRange 64).flatMap fun l =>
          (if (s.line l).connected.filter (fun c => c.pos == p) = [] then []
            else lineStates l (s.row l) ((s.line l).bereft p) .none)
          ++ if ((s.line l).lost p).state = ((s.line l).bereft p).state then []
            else lineStates l (s.row l) ((s.line l).lost p) .none
        notices := (List.finRange 64).flatMap fun l =>
          ((s.line l).connected.filter fun c => c.pos == p).map (fun _ => .position p)
            ++ (if (s.line l).connected.filter (fun c => c.pos == p) = [] then [] else [.line l])
            ++ if ((s.line l).lost p).state = ((s.line l).bereft p).state then [] else [.line l]
        fromLcu :=
          (if p ∈ s.chan.downPtb then [] else (List.finRange 64).flatMap fun l =>
            ((s.line l).connected.filter fun c => c.pos == p).map fun c => .released p c.hs (.line l))
          ++ (s.lcu.waiting.filter fun w => decide (w.pos = p ∧ w.ended = none)).map fun w =>
            .outcome p w.hs w.via (.inr .handsetBusy)
        toRtu := (List.finRange 64).flatMap fun l =>
          (((s.line l).connected.filter fun c => c.pos == p).filter fun c => c.covered).map fun c =>
            .release p c.hs l false } := by
  have hnil (ls : List Line) (α : Type) : ls.flatMap (fun _ => ([] : List α)) = [] := by simp
  simp only [State.lcuDown, State.endWaiting_of_position, lineLosesPosition_eq, Sends.all_eq, List.flatMap_map]
  simp only [State.emit, Chan.add, hnil, List.append_nil]
  by_cases hp : p ∈ s.chan.downPtb
  · simp only [State.lossTakenAtPtb, hp, not_true, decide_false, Bool.false_eq_true, if_false, if_true, hnil, List.append_nil,
      List.nil_append]
    rfl
  · simp only [State.lossTakenAtPtb, hp, not_false_eq_true, decide_true, if_true, if_false, List.append_assoc]
    rfl

/-! ### SQU, EVU and the UP notice -/

theorem exec_positionDownAtSqu_of_first {s : State} {p : Pos} {rest : List Pos}
    (h : takeFirst (· == p) s.chan.downSqu = some (p, rest)) :
    exec (.positionDownAtSqu p) s = .next ((s.setChan { s.chan with downSqu := rest }).setRun p (s.runOf p).ended) := by
  change execPositionDownAtSqu p s = _
  simp only [execPositionDownAtSqu, h]

theorem exec_positionDownAtEvu_of_first {s : State} {n : Port} {left : List Port}
    (h : takeFirst (· == n) s.chan.downEvu = some (n, left)) :
    exec (.positionDownAtEvu n) s = .next ((s.setChan { s.chan with downEvu := left }).setEvents n (s.events n).down) := by
  change execPositionDownAtEvu n s = _
  simp only [execPositionDownAtEvu, State.evuDown, h]

theorem exec_standingUpNotice_of_first {s : State} {p : Pos} {rest : List Pos}
    (h : takeFirst (· == p) s.chan.ups = some (p, rest)) :
    exec (.standingUpNotice p) s = .next
      { s with
        chan := { s.chan with ups := rest }
        gfu :=
          if s.gfu.up.look p = true then { s.gfu with keptUp := s.gfu.keptUp.put p (s.gfu.keptUp.look p + 1) }
          else { s.gfu with up := s.gfu.up.put p true } } := by
  change execStandingUpNotice p s = _
  simp only [execStandingUpNotice, h, State.setChan]
  by_cases hu : s.gfu.up.look p = true <;> simp only [hu, if_true, Bool.false_eq_true, if_false]

end Sys2Proof.Machine
end

section
/-! The position-down notice at GFU: what its groups, its calls and its floors lose (R74, R94). -/

namespace Sys2Proof.Machine

/-! ### Steps that each move one record -/

/-- The state with GFU's own records replaced. -/
def State.withGfu (s : State) (g : Gfu) : State := { s with gfu := g }

@[simp] theorem State.withGfu_gfu (s : State) (g : Gfu) : (s.withGfu g).gfu = g := rfl
@[simp] theorem State.withGfu_withGfu (s : State) (a b : Gfu) : (s.withGfu a).withGfu b = s.withGfu b := rfl
@[simp] theorem State.emit_withGfu (s : State) (o : Sends) (g : Gfu) : (s.emit o).withGfu g = (s.withGfu g).emit o := rfl

theorem State.setGroup_self (s : State) (g : Grp) : s.setGroup g (s.group g) = s := by
  simp only [State.setGroup, State.group, Table.put_look]

theorem State.setCall_self (s : State) (c : CallNo) : s.setCall c (s.call c) = s := by
  simp only [State.setCall, State.call, Table.put_look]

/-- A table after each of some entries has moved. -/
theorem Table.build_moved_cons {n : Nat} {α : Type} (t : Table n α) (f : Fin n → α → α) {i : Fin n} {is : List (Fin n)}
    (hi : i ∉ is) :
    (Table.build fun k => if k ∈ is then f k ((t.put i (f i (t.look i))).look k) else (t.put i (f i (t.look i))).look k) =
      Table.build fun k => if k ∈ i :: is then f k (t.look k) else t.look k := by
  refine Table.ext_look fun k => ?_
  simp only [Table.look_build, Table.look_put]
  by_cases hk : k ∈ is
  · have hne : i ≠ k := fun e => hi (e ▸ hk)
    rw [if_pos hk, if_neg hne, if_pos (List.mem_cons_of_mem i hk)]
  · by_cases he : i = k
    · subst he
      rw [if_neg hk, if_pos rfl, if_pos List.mem_cons_self]
    · rw [if_neg hk, if_neg he, if_neg (by simpa [hk] using Ne.symm he)]

/-- Steps that each move one entry of a table by what stands in it, in turn: every entry moves once, and the sends follow each
other. `tbl` and `set` read and replace the table in the state. -/
theorem State.foldl_entries {n : Nat} {α : Type} {tbl : State → Table n α} {set : State → Table n α → State}
    (tbl_set : ∀ s t, tbl (set s t) = t) (set_set : ∀ s t u, set (set s t) u = set s u) (set_tbl : ∀ s, set s (tbl s) = s)
    (tbl_emit : ∀ s o, tbl (s.emit o) = tbl s) (set_emit : ∀ (s : State) o t, set (s.emit o) t = (set s t).emit o)
    (f : Fin n → α → α) (o : Fin n → α → Sends) : ∀ (is : List (Fin n)) (s : State), is.Nodup →
      is.foldl (fun u i => (set u ((tbl u).put i (f i ((tbl u).look i)))).emit (o i ((tbl u).look i))) s =
        (set s (Table.build fun i => if i ∈ is then f i ((tbl s).look i) else (tbl s).look i)).emit
          (Sends.all (is.map fun i => o i ((tbl s).look i)))
  | [], s, _ => by
    have h : (Table.build fun i => (tbl s).look i) = tbl s := Table.ext_look fun i => Table.look_build ..
    simp only [List.foldl_nil, List.not_mem_nil, if_false, h, set_tbl, List.map_nil, Sends.all_nil, State.emit_nothing]
  | i :: is, s, hn => by
    obtain ⟨hi, hn⟩ := List.nodup_cons.mp hn
    have hout : (is.map fun k => o k (((tbl s).put i (f i ((tbl s).look i))).look k)) = is.map fun k => o k ((tbl s).look k) :=
      List.map_congr_left fun k hk => by
        have hne : i ≠ k := fun e => hi (e ▸ hk)
        rw [Table.look_put_of_ne _ _ hne]
    rw [List.foldl_cons, State.foldl_entries tbl_set set_set set_tbl tbl_emit set_emit f o is _ hn]
    simp only [tbl_emit, tbl_set, set_emit, set_set, Table.build_moved_cons _ _ hi, hout, List.map_cons, Sends.all_cons,
      State.emit_emit]

theorem State.foldl_groups (f : Grp → GroupRec → GroupRec) (o : Grp → GroupRec → Sends) (s : State) :
    (List.finRange 16).foldl (fun u g => (u.setGroup g (f g (u.group g))).emit (o g (u.group g))) s =
      (s.withGfu { s.gfu with groups := Table.build fun g => f g (s.group g) }).emit
        (Sends.all ((List.finRange 16).map fun g => o g (s.group g))) := by
  refine (State.foldl_entries (tbl := fun u => u.gfu.groups) (set := fun u t => u.withGfu { u.gfu with groups := t })
    (fun _ _ => rfl) (fun _ _ _ => rfl) (fun _ => rfl) (fun _ _ => rfl) (fun _ _ _ => rfl) f o _ s
    (List.nodup_finRange 16)).trans ?_
  simp only [List.mem_finRange, if_true]
  rfl

theorem State.foldl_calls (f : CallNo → CallRec → CallRec) (o : CallNo → CallRec → Sends) (s : State) :
    (List.finRange 8).foldl (fun u c => (u.setCall c (f c (u.call c))).emit (o c (u.call c))) s =
      (s.withGfu { s.gfu with calls := Table.build fun c => f c (s.call c) }).emit
        (Sends.all ((List.finRange 8).map fun c => o c (s.call c))) := by
  refine (State.foldl_entries (tbl := fun u => u.gfu.calls) (set := fun u t => u.withGfu { u.gfu with calls := t })
    (fun _ _ => rfl) (fun _ _ _ => rfl) (fun _ => rfl) (fun _ _ => rfl) (fun _ _ _ => rfl) f o _ s
    (List.nodup_finRange 8)).trans ?_
  simp only [List.mem_finRange, if_true]
  rfl

/-! ### The three parts of the loss (R74, R94) -/

/-- A group without a position's handset, and what its leaving sends (R61). -/
def GroupRec.without (r : GroupRec) (p : Pos) : GroupRec := { r with joined := r.joined.filter fun m => m.1 != p }
def GroupRec.withoutSends (r : GroupRec) (g : Grp) (p : Pos) : Sends :=
  if ∃ m ∈ r.joined, m.1 = p then
    { given := (r.without p).joined.map fun m => ⟨.gfu, portOf m.1, .groupState g (r.without p).joined.length p true⟩
      notices := [.group g] }
  else {}

/-- A call record without a position, and what its end sends (R74). -/
def CallRec.without (c : CallRec) (p : Pos) : CallRec := match c with
  | .free => .free
  | .alerting q k a voice x => if q = p ∨ a = p then .free else .alerting q k a voice x
  | .active q k a i voice => if q = p ∨ a = p then .free else .active q k a i voice
def CallRec.withoutSends (r : CallRec) (c : CallNo) (p : Pos) : Sends :=
  { given := match r with
      | .free => []
      | .alerting q k a _ _ =>
        if q = p then [⟨.gfu, portOf a, .callWithdrawn c .callEnded⟩]
        else if a = p then [⟨.gfu, portOf q, .callReleased c k .callEnded⟩] else []
      | .active q k a i _ =>
        if q = p then [⟨.gfu, portOf a, .callReleased c i .callEnded⟩]
        else if a = p then [⟨.gfu, portOf q, .callReleased c k .callEnded⟩] else []
    notices := match r with
      | .free => []
      | .alerting q _ a _ _ | .active q _ a _ _ => if q = p ∨ a = p then [.position q, .position a] else []
    fromGfu := match r with
      | .free => []
      | .alerting q k a _ _ => if q ≠ p ∧ a = p then [.released q k (.call c)] else []
      | .active q k a i _ =>
        if q = p then [.released a i (.call c)] else if a = p then [.released q k (.call c)] else [] }

/-- A floor that a position has left with no record of its own, and what that sends (R94, R95). -/
def GroupRec.floorAct (r : GroupRec) (p : Pos) : FloorAct := FloorAct.leave { floor := r.floor } r.holdLimit none p
def GroupRec.floorSends (r : GroupRec) (g : Grp) (p : Pos) : Sends :=
  (r.floorAct p).sends g (r.listening.put p false) r.floor

theorem GroupRec.handsetOf_isSome {r : GroupRec} {p : Pos} : (r.handsetOf p).isSome = true ↔ ∃ m ∈ r.joined, m.1 = p := by
  simp [GroupRec.handsetOf]

theorem State.groupsLose_eq (s : State) (p : Pos) :
    s.groupsLose p = (s.withGfu { s.gfu with groups := Table.build fun g => (s.group g).without p }).emit
      (Sends.all ((List.finRange 16).map fun g => (s.group g).withoutSends g p)) := by
  have hstep : (fun (u : State) g => if ((u.group g).handsetOf p).isSome then u.leaveGroup g p else u) =
      fun u g => (u.setGroup g ((u.group g).without p)).emit ((u.group g).withoutSends g p) := by
    funext u g
    by_cases h : ∃ m ∈ (u.group g).joined, m.1 = p
    · rw [if_pos (GroupRec.handsetOf_isSome.mpr h), State.leaveGroup_eq, GroupRec.withoutSends, if_pos h]
      rfl
    · have hsame : (u.group g).without p = u.group g := by
        have hj : (u.group g).joined.filter (fun m => m.1 != p) = (u.group g).joined := by
          rw [List.filter_eq_self]
          exact fun m hm => by simpa using fun e => h ⟨m, hm, e⟩
        rw [GroupRec.without, hj]
      rw [if_neg (fun e => h (GroupRec.handsetOf_isSome.mp e)), GroupRec.withoutSends, if_neg h, hsame, State.setGroup_self,
        State.emit_nothing]
  rw [State.groupsLose, hstep, State.foldl_groups (fun _ r => r.without p) fun g r => r.withoutSends g p]

theorem State.callsLose_eq (s : State) (p : Pos) :
    s.callsLose p = (s.withGfu { s.gfu with calls := Table.build fun c => (s.call c).without p }).emit
      (Sends.all ((List.finRange 8).map fun c => (s.call c).withoutSends c p)) := by
  have hstep : (fun (u : State) c => u.callLosesPosition p c) =
      fun u c => (u.setCall c ((u.call c).without p)).emit ((u.call c).withoutSends c p) := by
    funext u c
    have hself : u.setCall c (u.call c) = u := u.setCall_self c
    cases hc : u.call c with
    | free =>
      rw [hc] at hself
      simp [State.callLosesPosition, hc, CallRec.without, CallRec.withoutSends, hself, State.emit_nothing]
    | alerting q k a voice x =>
      rw [hc] at hself
      by_cases hq : q = p
      · simp [State.callLosesPosition, hc, CallRec.without, CallRec.withoutSends, hq, State.endCall, callWithdrawn,
          bothNotices, record, Sends.and]
      · by_cases ha : a = p
        · simp [State.callLosesPosition, hc, CallRec.without, CallRec.withoutSends, hq, ha, State.endCall, callReleased,
            bothNotices, record, Sends.and]
        · simp [State.callLosesPosition, hc, CallRec.without, CallRec.withoutSends, hq, ha, hself, State.emit_nothing]
    | active q k a i voice =>
      rw [hc] at hself
      by_cases hq : q = p
      · simp [State.callLosesPosition, hc, CallRec.without, CallRec.withoutSends, hq, State.endCall, callReleased,
          bothNotices, record, Sends.and]
      · by_cases ha : a = p
        · simp [State.callLosesPosition, hc, CallRec.without, CallRec.withoutSends, hq, ha, State.endCall, callReleased,
            bothNotices, record, Sends.and]
        · simp [State.callLosesPosition, hc, CallRec.without, CallRec.withoutSends, hq, ha, hself, State.emit_nothing]
  rw [State.callsLose, hstep, State.foldl_calls (fun _ r => r.without p) fun c r => r.withoutSends c p]

theorem State.floorsLose_eq (s : State) (p : Pos) :
    s.floorsLose p =
      (s.withGfu { s.gfu with groups := Table.build fun g => { s.group g with floor := ((s.group g).floorAct p).floor } }).emit
        (Sends.all ((List.finRange 16).map fun g => (s.group g).floorSends g p)) :=
  State.foldl_groups (fun _ r => { r with floor := (r.floorAct p).floor }) (fun g r => r.floorSends g p) s

end Sys2Proof.Machine
end

section
/-! GFU's part of the position-down notice as one change, and what it leaves of a floor (R74, R94). -/

namespace Sys2Proof.Machine

@[simp] theorem State.withGfu_group (s : State) (x : Gfu) (g : Grp) : (s.withGfu x).group g = x.groups.look g := rfl
@[simp] theorem State.withGfu_call (s : State) (x : Gfu) (c : CallNo) : (s.withGfu x).call c = x.calls.look c := rfl
@[simp] theorem GroupRec.without_floorAct (r : GroupRec) (p : Pos) : (r.without p).floorAct p = r.floorAct p := rfl
@[simp] theorem GroupRec.without_floorSends (r : GroupRec) (g : Grp) (p : Pos) :
    (r.without p).floorSends g p = r.floorSends g p := rfl

/-- GFU's records after the loss of a position: one kept UP counts (R56). -/
def Gfu.without (x : Gfu) (p : Pos) : Gfu :=
  { groups := Table.build fun g =>
      { (x.groups.look g).without p with floor := ((x.groups.look g).floorAct p).floor }
    calls := Table.build fun c => (x.calls.look c).without p
    alertCount := x.alertCount
    up := x.up.put p (decide (0 < x.keptUp.look p))
    keptUp := x.keptUp.put p (x.keptUp.look p - 1) }

/-- What GFU does at a position-down notice: its records, and the sends of groups, calls and floors in that order. -/
theorem State.gfuDown_whole (s : State) (p : Pos) :
    s.gfuDown p = (s.withGfu (s.gfu.without p)).emit
      (((Sends.all ((List.finRange 16).map fun g => (s.group g).withoutSends g p)).and
        ((Sends.all ((List.finRange 8).map fun c => (s.call c).withoutSends c p)).and
          (Sends.all ((List.finRange 16).map fun g => (s.group g).floorSends g p)))).and
        { fromGfu := if s.lossTakenAtPtb p then s.gfuReleases fun q => q == p else [] }) := by
  have hstart : ({ s with gfu := { s.gfu with up := s.gfu.up.put p false } } : State) =
      s.withGfu { s.gfu with up := s.gfu.up.put p false } := rfl
  have hcount (u : State) (x : Gfu) (o : Sends) : ((u.withGfu x).emit o).countUp p = (u.withGfu { x with
      up := x.up.put p (decide (x.keptUp.look p ≠ 0)), keptUp := x.keptUp.put p (x.keptUp.look p - 1) }).emit o := rfl
  rw [State.gfuDown_eq, hstart, State.groupsLose_eq, State.callsLose_eq, State.floorsLose_eq]
  simp only [State.emit_withGfu, State.withGfu_withGfu, State.emit_gfu, State.withGfu_gfu, State.emit_emit, State.emit_group,
    State.emit_call, State.withGfu_group, State.withGfu_call, Table.look_build, hcount, GroupRec.without_floorAct,
    GroupRec.without_floorSends, Table.put_put, ← Nat.pos_iff_ne_zero, Sends.and_assoc]
  rfl

/-! ### A floor without a position (R94) -/

/-- A floor on which a position neither stands nor is marked as served. -/
def Floor.Lacks (f : Floor) (p : Pos) : Prop := f.engaged p = false ∧ f.served.look p = false

theorem look_unmarked {ws : List Waiter} {m : PosSet} {p : Pos} (h : m.look p = false) :
    (ws.foldl (fun q w => q.put w.pos false) m).look p = false := by
  induction ws generalizing m with
  | nil => exact h
  | cons w ws ih =>
    refine ih ?_
    rw [Table.look_put]
    split
    · rfl
    · exact h

theorem FloorAct.moveDeferred_lacks {a : FloorAct} {p : Pos} (h : a.floor.Lacks p) (level : Fin 4) :
    (a.moveDeferred level).floor.Lacks p := by
  unfold FloorAct.moveDeferred
  split
  · exact h
  · obtain ⟨he, hs⟩ := h
    obtain ⟨hh, hw, hd, ht⟩ := Floor.engaged_eq_false.mp he
    refine ⟨Floor.engaged_eq_false.mpr ⟨hh, fun w hw' => ?_, fun w hw' => hd w (List.mem_of_mem_filter hw'), ht⟩,
      look_unmarked hs⟩
    rcases List.mem_append.mp hw' with hw' | hw'
    · exact hw w hw'
    · exact hd w (List.mem_of_mem_filter hw')

/-- The grant rule passes the floor to somebody who waits. -/
theorem FloorAct.grantRule_lacks {a : FloorAct} {p : Pos} (h : a.floor.Lacks p) (limit : Level) :
    (a.grantRule limit).floor.Lacks p := by
  unfold FloorAct.grantRule
  split
  · exact h
  · next w hw =>
    obtain ⟨he, hs⟩ := h
    obtain ⟨-, hwait, hd, ht⟩ := Floor.engaged_eq_false.mp he
    have hne : w.pos ≠ p := hwait w (topWaiter_mem hw)
    refine FloorAct.moveDeferred_lacks ?_ _
    refine ⟨Floor.engaged_eq_false.mpr ⟨fun e => hne (Option.some.inj e), fun x hx => ?_, hd, ht⟩, hs⟩
    exact hwait x (List.mem_of_mem_filter hx)

/-- A position that leaves a sound floor is nowhere on it (R76). -/
theorem FloorAct.leave_lacks {f : Floor} (hf : f.everyone.Nodup) (limit : Level) (why : Option LostReason) (p : Pos) :
    (FloorAct.leave { floor := f } limit why p).floor.Lacks p := by
  by_cases hp : f.holderPos = some p
  · obtain ⟨h, hh, rfl⟩ : ∃ h, f.holder = some h ∧ h.pos = p := by simpa [Floor.holderPos] using hp
    rw [FloorAct.leave, if_pos hp]
    refine FloorAct.grantRule_lacks ⟨Floor.engaged_eq_false.mpr ?_, by simp [FloorAct.endGrant, hh, unmark]⟩ limit
    simp only [Floor.everyone, hh, Option.toList_some, List.map_cons, List.map_nil, List.append_assoc,
      List.cons_append, List.nil_append, List.nodup_cons, List.mem_append, List.mem_map, not_or, not_exists, not_and] at hf
    obtain ⟨⟨hw, hd, ht⟩, -⟩ := hf
    simp only [FloorAct.endGrant, hh]
    exact ⟨by simp [Floor.holderPos], hw, hd, ht⟩
  · rw [FloorAct.leave_of_other hp]
    have fold (ws : List Waiter) (c : FloorAct) (hc : c.floor.Lacks p) :
        (ws.foldl (fun c w => c.moveDeferred w.level) c).floor.Lacks p := by
      induction ws generalizing c with
      | nil => exact hc
      | cons w ws ih => exact ih _ (FloorAct.moveDeferred_lacks hc _)
    refine fold _ _ ⟨Floor.engaged_eq_false.mpr ⟨hp, fun w hw => ?_, fun w hw => ?_, fun k hk => ?_⟩, by simp⟩
    · simpa using List.of_mem_filter hw
    · simpa using List.of_mem_filter hw
    · simpa using List.of_mem_filter hk

/-- A list gathered from numbers of which one alone gives anything. -/
theorem flatMap_finRange_of_one {n : Nat} {α : Type} {f : Fin n → List α} (i : Fin n) (h : ∀ k, k ≠ i → f k = []) :
    (List.finRange n).flatMap f = f i := by
  obtain ⟨before, after, hb⟩ := List.append_of_mem (List.mem_finRange i)
  have hn := hb ▸ List.nodup_finRange n
  obtain ⟨hi, -⟩ := List.nodup_cons.mp (List.nodup_middle.mp hn)
  have hnil (l : List (Fin n)) (hl : i ∉ l) : l.flatMap f = [] :=
    List.flatMap_eq_nil_iff.mpr fun k hk => h k fun e => hl (e ▸ hk)
  rw [hb, List.flatMap_append, List.flatMap_cons, hnil before fun hm => hi (List.mem_append_left _ hm),
    hnil after fun hm => hi (List.mem_append_right _ hm), List.nil_append, List.append_nil]

end Sys2Proof.Machine
end

section
/-! What every block does at the DOWN notice of a position (R49 to R51, R56, R74, R94, R154, R168). -/

namespace Sys2Proof.Machine

/-! ### What LCU gives -/

theorem exec_positionDownAtLcu_of_first {s : State} {p : Pos} {rest : List Pos}
    (h : takeFirst (· == p) s.chan.downLcu = some (p, rest)) :
    exec (.positionDownAtLcu p) s = .next { s with
      lcu := { s.lcu with
        lines := Table.build fun l => (s.line l).lost p
        waiting := s.lcu.waiting.map fun w => if w.pos = p ∧ w.ended = none then { w with ended := some false } else w }
      chan := { s.chan with
        downLcu := rest
        given := s.chan.given ++ (List.finRange 64).flatMap fun l =>
          (if (s.line l).connected.filter (fun c => c.pos == p) = [] then []
            else lineStates l (s.row l) ((s.line l).bereft p) .none)
          ++ if ((s.line l).lost p).state = ((s.line l).bereft p).state then []
            else lineStates l (s.row l) ((s.line l).lost p) .none
        notices := s.chan.notices ++ (List.finRange 64).flatMap fun l =>
          ((s.line l).connected.filter fun c => c.pos == p).map (fun _ => .position p)
            ++ (if (s.line l).connected.filter (fun c => c.pos == p) = [] then [] else [.line l])
            ++ if ((s.line l).lost p).state = ((s.line l).bereft p).state then [] else [.line l]
        fromLcu := s.chan.fromLcu
          ++ (if p ∈ s.chan.downPtb then [] else (List.finRange 64).flatMap fun l =>
            ((s.line l).connected.filter fun c => c.pos == p).map fun c => .released p c.hs (.line l))
          ++ (s.lcu.waiting.filter fun w => decide (w.pos = p ∧ w.ended = none)).map fun w =>
            .outcome p w.hs w.via (.inr .handsetBusy)
        toRtu := s.chan.toRtu ++ (List.finRange 64).flatMap fun l =>
          (((s.line l).connected.filter fun c => c.pos == p).filter fun c => c.covered).map fun c =>
            .release p c.hs l false } } := by
  change execPositionDownAtLcu p s = _
  simp only [execPositionDownAtLcu, h, State.lcuDown_eq, State.emit, Chan.add, List.append_nil, List.append_assoc]
  rfl

/-! ### What GFU sends -/

theorem all_withoutSends_groups (s : State) (p : Pos) :
    Sends.all ((List.finRange 16).map fun g => (s.group g).withoutSends g p) =
      { given := (List.finRange 16).flatMap fun g => if ∃ m ∈ (s.group g).joined, m.1 = p then
          ((s.group g).without p).joined.map fun m =>
            ⟨.gfu, portOf m.1, .groupState g ((s.group g).without p).joined.length p true⟩ else []
        notices := (List.finRange 16).flatMap fun g => if ∃ m ∈ (s.group g).joined, m.1 = p then [.group g] else [] } := by
  have hnil (α : Type) : (List.finRange 16).flatMap (fun _ => ([] : List α)) = [] := by simp
  simp only [Sends.all_eq, List.flatMap_map, GroupRec.withoutSends, apply_ite Sends.given, apply_ite Sends.notices,
    apply_ite Sends.fromLcu, apply_ite Sends.fromGfu, apply_ite Sends.toLcu, apply_ite Sends.toGfu, apply_ite Sends.toRtu,
    apply_ite Sends.listening, ite_self, hnil]

theorem all_withoutSends_calls (s : State) (p : Pos) :
    Sends.all ((List.finRange 8).map fun c => (s.call c).withoutSends c p) =
      { given := (List.finRange 8).flatMap fun c => ((s.call c).withoutSends c p).given
        notices := (List.finRange 8).flatMap fun c => ((s.call c).withoutSends c p).notices
        fromGfu := (List.finRange 8).flatMap fun c => ((s.call c).withoutSends c p).fromGfu } := by
  have hnil (α : Type) : (List.finRange 8).flatMap (fun _ => ([] : List α)) = [] := by simp
  simp only [Sends.all_eq, List.flatMap_map, CallRec.withoutSends, hnil]

theorem all_floorSends (s : State) (p : Pos) :
    Sends.all ((List.finRange 16).map fun g => (s.group g).floorSends g p) =
      { given := (List.finRange 16).flatMap fun g => ((s.group g).floorSends g p).given
        notices := (List.finRange 16).flatMap fun g => ((s.group g).floorSends g p).notices } := by
  have hnil (α : Type) : (List.finRange 16).flatMap (fun _ => ([] : List α)) = [] := by simp
  simp only [Sends.all_eq, List.flatMap_map, GroupRec.floorSends, FloorAct.sends, hnil]

/-- The release notices of a position's own handsets, group by group and call by call (R36). -/
theorem State.gfuReleases_of_position (s : State) (p : Pos) :
    s.gfuReleases (fun q => q == p) =
      ((List.finRange 16).flatMap fun g =>
        ((s.group g).joined.filter fun m => m.1 == p).map fun m => .released p m.2 (.group g))
      ++ (List.finRange 8).flatMap fun c => match s.call c with
        | .free => []
        | .alerting q k _ _ _ => if q = p then [.released p k (.call c)] else []
        | .active q k a i _ => (if q = p then [.released p k (.call c)] else [])
          ++ if a = p then [.released p i (.call c)] else [] := by
  have hgroup (g : Grp) : ((s.group g).joined.filter fun m => m.1 == p).map (fun m => ToPtb.released m.1 m.2 (.group g)) =
      ((s.group g).joined.filter fun m => m.1 == p).map fun m => .released p m.2 (.group g) :=
    List.map_congr_left fun m hm => by
      obtain rfl : m.1 = p := by simpa using List.of_mem_filter hm
      rfl
  unfold State.gfuReleases
  refine congrArg₂ (· ++ ·) (by simp only [hgroup]) (congrArg (List.flatMap · _) (funext fun c => ?_))
  cases s.call c with
  | free => rfl
  | alerting q k a voice x => by_cases hq : q = p <;> simp [CallRec.handsets, hq]
  | active q k a i voice => by_cases hq : q = p <;> by_cases ha : a = p <;> simp [CallRec.handsets, hq, ha]

theorem exec_positionDownAtGfu_of_first {s : State} {p : Pos} {rest : List Pos}
    (h : takeFirst (· == p) s.chan.downGfu = some (p, rest)) :
    exec (.positionDownAtGfu p) s = .next (((s.setChan { s.chan with downGfu := rest }).withGfu (s.gfu.without p)).emit
      (((Sends.all ((List.finRange 16).map fun g => (s.group g).withoutSends g p)).and
        ((Sends.all ((List.finRange 8).map fun c => (s.call c).withoutSends c p)).and
          (Sends.all ((List.finRange 16).map fun g => (s.group g).floorSends g p)))).and
        { fromGfu := if p ∈ s.chan.downPtb then [] else s.gfuReleases fun q => q == p })) := by
  have hrel (c : Chan) : (s.setChan c).gfuReleases (fun q => q == p) = s.gfuReleases fun q => q == p := rfl
  have htell : (if (s.setChan { s.chan with downGfu := rest }).lossTakenAtPtb p then s.gfuReleases fun q => q == p else []) =
      if p ∈ s.chan.downPtb then [] else s.gfuReleases fun q => q == p := by
    by_cases hp : p ∈ s.chan.downPtb <;> simp [State.lossTakenAtPtb, hp]
  change execPositionDownAtGfu p s = _
  simp only [execPositionDownAtGfu, h, State.gfuDown_whole, hrel, htell]
  rfl

/-- The records and the notices of the floors, group by group. -/
def State.floorRecords (s : State) (p : Pos) : List Given :=
  (List.finRange 16).flatMap fun g => ((s.group g).floorSends g p).given
def State.floorNotices (s : State) (p : Pos) : List Subject :=
  (List.finRange 16).flatMap fun g => ((s.group g).floorSends g p).notices

/-- The state after GFU has taken the notice: its records and its paths. -/
def State.lostAtGfu (s : State) (p : Pos) (rest : List Pos) : State := { s with
  gfu := s.gfu.without p
  chan := { s.chan with
    downGfu := rest
    given := s.chan.given
      ++ ((List.finRange 16).flatMap fun g => if ∃ m ∈ (s.group g).joined, m.1 = p then
        ((s.group g).without p).joined.map fun m =>
          ⟨.gfu, portOf m.1, .groupState g ((s.group g).without p).joined.length p true⟩ else [])
      ++ ((List.finRange 8).flatMap fun c => ((s.call c).withoutSends c p).given)
      ++ s.floorRecords p
    notices := s.chan.notices
      ++ ((List.finRange 16).flatMap fun g => if ∃ m ∈ (s.group g).joined, m.1 = p then [.group g] else [])
      ++ ((List.finRange 8).flatMap fun c => ((s.call c).withoutSends c p).notices)
      ++ s.floorNotices p
    fromGfu := s.chan.fromGfu
      ++ ((List.finRange 8).flatMap fun c => ((s.call c).withoutSends c p).fromGfu)
      ++ if p ∈ s.chan.downPtb then [] else s.gfuReleases fun q => q == p } }

theorem exec_positionDownAtGfu_eq {s : State} {p : Pos} {rest : List Pos}
    (h : takeFirst (· == p) s.chan.downGfu = some (p, rest)) :
    exec (.positionDownAtGfu p) s = .next (s.lostAtGfu p rest) := by
  rw [exec_positionDownAtGfu_of_first h, all_withoutSends_groups, all_withoutSends_calls, all_floorSends]
  simp only [Sends.and, List.nil_append, List.append_nil, State.emit, Chan.add, List.append_assoc, State.lostAtGfu,
    State.floorRecords, State.floorNotices]
  rfl

@[simp] theorem State.lostAtGfu_group (s : State) (p : Pos) (rest : List Pos) (g : Grp) :
    (s.lostAtGfu p rest).group g = { (s.group g).without p with floor := ((s.group g).floorAct p).floor } :=
  Table.look_build ..
@[simp] theorem State.lostAtGfu_call (s : State) (p : Pos) (rest : List Pos) (c : CallNo) :
    (s.lostAtGfu p rest).call c = (s.call c).without p := Table.look_build ..

/-! ### What a floor loses -/

theorem GroupRec.floorSends_of_free {r : GroupRec} {p : Pos} (h : r.floor.engaged p = false) (g : Grp) :
    r.floorSends g p = {} := FloorAct.leave_sends_of_free h

/-- Where a position is engaged on one floor at most, that floor alone gives records and notices. -/
theorem State.floorRecords_of_one {s : State} {p : Pos} {g : Grp} (h : ∀ k, k ≠ g → (s.group k).floor.engaged p = false) :
    s.floorRecords p = ((s.group g).floorSends g p).given ∧ s.floorNotices p = ((s.group g).floorSends g p).notices :=
  ⟨flatMap_finRange_of_one g fun k hk => by rw [GroupRec.floorSends_of_free (h k hk)],
    flatMap_finRange_of_one g fun k hk => by rw [GroupRec.floorSends_of_free (h k hk)]⟩

theorem State.floorRecords_of_none {s : State} {p : Pos} (h : ∀ g, (s.group g).floor.engaged p = false) :
    s.floorRecords p = [] ∧ s.floorNotices p = [] := by
  obtain ⟨hr, hn⟩ := State.floorRecords_of_one (g := 0) fun k _ => h k
  rw [hr, hn, GroupRec.floorSends_of_free (h 0)]
  exact ⟨rfl, rfl⟩

/-- Settles O24: each block's part is one rule, and GFU's is the three losses in their order. -/
theorem blocksTakeTheDownNotice : Obligations.BlocksTakeTheDownNotice := by
  intro s p rest
  refine ⟨fun h => ?ptb, fun hits first last h hhits hfirst hlast => ?lcu, fun h => ?squ, fun n left h => ?evu,
    exec_standingUpNotice_of_first, fun h => ?gfu⟩
  case ptb =>
    rw [exec_positionDownAtPtb_of_first h]
    simp only [returnOf_lcu, returnOf_gfu]
    rfl
  case lcu =>
    have hf (l : Line) : first l = (s.line l).bereft p := by rw [hfirst, hhits, LineRec.bereft_eq]
    have hl (l : Line) : last l = (s.line l).lost p := by rw [hlast, LineRec.lost, LineRec.settledAt_bereft, ← hf]
    have hlines : Table.build last = Table.build fun l => (s.line l).lost p := congrArg _ (funext hl)
    simp only [exec_positionDownAtLcu_of_first h, hlines, hf, hl, hhits]
  case squ => exact exec_positionDownAtSqu_of_first h
  case evu => exact exec_positionDownAtEvu_of_first h
  case gfu =>
    refine ⟨s.lostAtGfu p rest, s.floorRecords p, s.floorNotices p, exec_positionDownAtGfu_eq h, rfl, rfl, fun g => ?group,
      fun c => ?call, ?chan, fun hs g => ?lacks,
      fun g f hf => ⟨fun he => ?free, fun hp hd => ?noDeferred, fun hp hw => ?holderAlone, fun hp hw => ?unqueued⟩,
      State.floorRecords_of_none, fun g f hf hone => ⟨fun hp hw => ?sendsHolder, fun hp hw => ?sendsOther⟩,
      fun g f w a b up stay hf => ⟨fun hp hw => ⟨?picks, fun hne hone => ?sendsPicks⟩,
        fun hp hw hpos hd => ⟨?queued, fun hone => ?sendsQueued⟩⟩⟩
    case group =>
      rw [State.lostAtGfu_group]
      rfl
    case call =>
      rw [State.lostAtGfu_call]
      cases s.call c <;> rfl
    case chan =>
      simp only [State.lostAtGfu, State.gfuReleases_of_position]
      rfl
    case lacks =>
      rw [State.lostAtGfu_group]
      obtain ⟨⟨hn, -⟩, -⟩ := hs g
      exact FloorAct.leave_lacks hn _ _ _
    case free =>
      subst hf
      rw [State.lostAtGfu_group]
      exact congrArg FloorAct.floor (FloorAct.leave_of_free he)
    case noDeferred =>
      subst hf
      rw [State.lostAtGfu_group]
      exact congrArg FloorAct.floor (FloorAct.leave_of_no_deferred hp hd)
    case holderAlone =>
      subst hf
      rw [State.lostAtGfu_group]
      exact congrArg FloorAct.floor (FloorAct.leave_of_holder_alone hp hw)
    case unqueued =>
      subst hf
      rw [State.lostAtGfu_group]
      exact congrArg FloorAct.floor (FloorAct.leave_of_unqueued hp hw)
    case picks =>
      subst hf
      rw [State.lostAtGfu_group]
      exact congrArg FloorAct.floor (FloorAct.leave_of_holder_picks hp hw)
    case queued =>
      subst hf
      rw [State.lostAtGfu_group]
      exact congrArg FloorAct.floor (FloorAct.leave_of_queued hp hw hpos hd)
    case sendsHolder =>
      subst hf
      obtain ⟨hr, hn⟩ := State.floorRecords_of_one hone
      rw [hr, hn, GroupRec.floorSends, GroupRec.floorAct, FloorAct.leave_sends_of_holder_alone hp hw]
      exact ⟨rfl, rfl⟩
    case sendsOther =>
      subst hf
      obtain ⟨hr, hn⟩ := State.floorRecords_of_one hone
      rw [hr, hn, GroupRec.floorSends, GroupRec.floorAct, FloorAct.leave_sends_of_other hp hw]
      exact ⟨ite_self _, rfl⟩
    case sendsPicks =>
      subst hf
      obtain ⟨hr, hn⟩ := State.floorRecords_of_one hone
      rw [hr, hn, GroupRec.floorSends, GroupRec.floorAct, FloorAct.leave_sends_of_holder_picks hp hw hne]
      exact ⟨rfl, rfl⟩
    case sendsQueued =>
      subst hf
      obtain ⟨hr, hn⟩ := State.floorRecords_of_one hone
      rw [hr, hn, GroupRec.floorSends, GroupRec.floorAct, FloorAct.leave_sends_of_queued hp hw hpos hd]
      exact ⟨rfl, rfl⟩

end Sys2Proof.Machine
end

section
/-! What a command of another block, or of a line or a floor, leaves of the records that O57 reads: PTB's positions, GFU's
calls and GFU's standing images. -/

namespace Sys2Proof.Machine

/-- PTB's positions, and GFU's calls and standing images. -/
def State.standing (s : State) : Ptb × Table 8 CallRec × PosSet := (s.ptb, s.gfu.calls, s.gfu.up)

theorem State.standing_eq {s t : State} (hp : t.ptb = s.ptb) (hg : t.gfu = s.gfu) : t.standing = s.standing := by
  simp [State.standing, hp, hg]

/-! ### The shared operations -/

@[simp] theorem State.emit_standing (s : State) (o : Sends) : (s.emit o).standing = s.standing := rfl
@[simp] theorem State.setChan_standing (s : State) (c : Chan) : (s.setChan c).standing = s.standing := rfl
@[simp] theorem State.setPort_standing (s : State) (n : Port) (r : PortRec) : (s.setPort n r).standing = s.standing := rfl
@[simp] theorem State.setLine_standing (s : State) (l : Line) (r : LineRec) : (s.setLine l r).standing = s.standing := rfl
@[simp] theorem State.applyLine_standing (s : State) (l : Line) (fx : LineFx) : (s.applyLine l fx).standing = s.standing := rfl
@[simp] theorem State.setGroup_standing (s : State) (g : Grp) (r : GroupRec) : (s.setGroup g r).standing = s.standing := rfl
@[simp] theorem State.setTap_standing (s : State) (r : TapNo) (t : TapRec) : (s.setTap r t).standing = s.standing := rfl
@[simp] theorem State.setRun_standing (s : State) (p : Pos) (r : RunRec) : (s.setRun p r).standing = s.standing := rfl
@[simp] theorem State.setEvents_standing (s : State) (n : Port) (e : EventPort) : (s.setEvents n e).standing = s.standing := rfl
@[simp] theorem State.setLeg_standing (s : State) (k : Leg) (r : LegRec) : (s.setLeg k r).standing = s.standing := rfl
@[simp] theorem State.setReset_standing (s : State) (r : Option ResetProgress) : (s.setReset r).standing = s.standing := rfl
@[simp] theorem State.takeFrame_standing (s : State) (n : Port) (f : Frame) : (s.takeFrame n f).standing = s.standing := rfl
@[simp] theorem State.answer_standing (s : State) (r : Requester) (c : Code) (b : List Byte) :
    (s.answer r c b).standing = s.standing := State.standing_eq (by simp) (by simp)
@[simp] theorem State.reply_standing (s : State) (p : Pos) (v : Via) (c : Code) : (s.reply p v c).standing = s.standing :=
  State.answer_standing ..
@[simp] theorem State.forward_standing (s : State) (o : Owner) (m : ToOwner) : (s.forward o m).standing = s.standing :=
  State.standing_eq (by simp) (by simp)

theorem State.nextForHandset_standing {s t : State} {o : Owner} {p : Pos} {h : Handset} {m : ToOwner}
    (e : s.nextForHandset o p h = some (m, t)) : t.standing = s.standing := by
  obtain ⟨-, _, _, -, rfl, -⟩ := State.nextForHandset_some e
  exact State.standing_eq (by simp) (by simp)
theorem State.nextForSpeaker_standing {s t : State} {o : Owner} {p : Pos} {k : Spk} {m : ToOwner}
    (e : s.nextForSpeaker o p k = some (m, t)) : t.standing = s.standing := by
  obtain ⟨-, _, _, -, rfl, -⟩ := State.nextForSpeaker_some e
  exact State.standing_eq (by simp) (by simp)
theorem State.heardOfHandset_standing {s t : State} {o : Owner} {p : Pos} {h : Handset} {m : ToPtb}
    (e : s.heardOfHandset o p h = some (m, t)) : t.standing = s.standing := by
  obtain ⟨-, _, _, -, rfl, -⟩ := State.heardOfHandset_some e
  exact State.standing_eq (by simp) (by simp)
theorem State.heardOfSpeakers_standing {s t : State} {o : Owner} {p : Pos} {m : ToPtb}
    (e : s.heardOfSpeakers o p = some (m, t)) : t.standing = s.standing := by
  obtain ⟨-, _, _, -, rfl, -⟩ := State.heardOfSpeakers_some e
  exact State.standing_eq (by simp) (by simp)

theorem foldl_standing {α : Type} {f : State → α → State} (h : ∀ u a, (f u a).standing = u.standing) (l : List α) (s : State) :
    (l.foldl f s).standing = s.standing := by
  induction l generalizing s with
  | nil => rfl
  | cons a l ih => exact (ih _).trans (h s a)

/-! ### LCU -/

@[simp] theorem State.dropGrant_standing (s : State) (w : Waiting) (granted ofReset : Bool) :
    (s.dropGrant w granted ofReset).standing = s.standing := by
  unfold State.dropGrant
  split <;> rfl
@[simp] theorem State.refuseTake_standing (s : State) (p : Pos) (h : Handset) (v : Via) (c : Code) :
    (s.refuseTake p h v c).standing = s.standing := rfl
@[simp] theorem State.askCoverage_standing (s : State) (p : Pos) (h : Handset) (v : Via) (l : Line) :
    (s.askCoverage p h v l).standing = s.standing := rfl
@[simp] theorem State.finishTake_standing (s : State) (p : Pos) (h : Handset) (v : Via) (l : Line) (covered : Bool) :
    (s.finishTake p h v l covered).standing = s.standing := rfl

@[simp] theorem State.lcuTake_standing (s : State) (p : Pos) (h : Handset) (v : Via) (l : Line) :
    (s.lcuTake p h v l).standing = s.standing := by
  unfold State.lcuTake
  repeat' split
  all_goals rfl

@[simp] theorem State.lcuAnswer_standing (s : State) (w : Waiting) (granted : Bool) : (s.lcuAnswer w granted).standing = s.standing := by
  unfold State.lcuAnswer
  repeat' split
  all_goals simp

@[simp] theorem State.setPrivacy_standing (s : State) (p : Pos) (v : Via) (b : List Byte) :
    (s.setPrivacy p v b).standing = s.standing := by
  unfold State.setPrivacy
  repeat' split
  all_goals simp

@[simp] theorem State.signalLine_standing (s : State) (p : Pos) (v : Via) (b : List Byte) :
    (s.signalLine p v b).standing = s.standing := by
  unfold State.signalLine
  repeat' split
  all_goals simp

@[simp] theorem State.lineConfig_standing (s : State) (n : Port) (b : List Byte) : (s.lineConfig n b).standing = s.standing := by
  unfold State.lineConfig
  repeat' split
  all_goals simp

@[simp] theorem State.lineOut_standing (s : State) (l : Line) : (s.lineOut l).standing = s.standing := by
  simp only [State.lineOut]
  repeat' split
  all_goals rfl

@[simp] theorem State.lineIn_standing (s : State) (n : Port) (l : Line) : (s.lineIn n l).standing = s.standing := by
  unfold State.lineIn
  repeat' split
  all_goals simp

@[simp] theorem State.changeApp_standing (s : State) (l : Line) (p : Pos) (m : AppMode) :
    (s.changeApp l p m).standing = s.standing := by
  simp only [State.changeApp]
  repeat' split
  all_goals rfl

@[simp] theorem State.setBars_standing (s : State) (q : Line → Pos → Bool) (on : Bool) :
    (s.setBars q on).standing = s.standing := by
  simp only [State.setBars]
  split <;> rfl

@[simp] theorem State.lineDetach_standing (s : State) (l : Line) (g : Grp) : (s.lineDetach l g).standing = s.standing := by
  unfold State.lineDetach
  split <;> rfl

@[simp] theorem State.lcuComplete_standing (s : State) : s.lcuComplete.standing = s.standing :=
  foldl_standing (fun u l => u.applyLine_standing l _) _ s

@[simp] theorem State.completeReset_standing (s : State) : s.completeReset.standing = s.standing := by
  simp only [State.completeReset, State.answer_standing]
  exact s.lcuComplete_standing

/-! ### The groups and floors of GFU -/

@[simp] theorem State.actFloorFor_standing (s : State) (g : Grp) (hearers : PosSet) (act : FloorAct → FloorAct) :
    (s.actFloorFor g hearers act).standing = s.standing := rfl
@[simp] theorem State.actFloor_standing (s : State) (g : Grp) (act : FloorAct → FloorAct) :
    (s.actFloor g act).standing = s.standing := rfl
@[simp] theorem State.takeFloor_standing (s : State) (p : Pos) (g : Grp) (latched : Bool) (o : Origin) :
    (s.takeFloor p g latched o).standing = s.standing := rfl
@[simp] theorem State.setAttached_standing (s : State) (g : Grp) (ls : List Line) :
    (s.setAttached g ls).standing = s.standing := rfl
@[simp] theorem State.setListening_standing (s : State) (m : Listening) : (s.setListening m).standing = s.standing := rfl
@[simp] theorem State.tellLcu_standing (s : State) (m : AttachToLcu) : (s.tellLcu m).standing = s.standing := rfl
@[simp] theorem State.leaveGroup_standing (s : State) (g : Grp) (p : Pos) : (s.leaveGroup g p).standing = s.standing := rfl

@[simp] theorem State.floorRequest_standing (s : State) (p : Pos) (v : Via) (b : List Byte) :
    (s.floorRequest p v b).standing = s.standing := by
  unfold State.floorRequest
  repeat' split
  all_goals simp

@[simp] theorem State.floorRelease_standing (s : State) (p : Pos) (v : Via) (b : List Byte) :
    (s.floorRelease p v b).standing = s.standing := by
  simp only [State.floorRelease]
  repeat' split
  all_goals simp

@[simp] theorem State.voxActive_standing (s : State) (p : Pos) : (s.voxActive p).standing = s.standing := by
  unfold State.voxActive
  repeat' split
  all_goals rfl

@[simp] theorem State.voxQuiet_standing (s : State) (p : Pos) : (s.voxQuiet p).standing = s.standing := by
  unfold State.voxQuiet
  split <;> rfl

theorem State.nextVox_standing {s t : State} {p : Pos} {on : Bool} (h : s.nextVox p on = some t) : t.standing = s.standing := by
  unfold State.nextVox at h
  repeat' split at h
  · obtain rfl := Option.some.inj h
    rfl
  all_goals simp at h

theorem State.nextListening_standing {s t : State} {on : Bool} {m : Listening} (h : s.nextListening on = some (m, t)) :
    t.standing = s.standing := by
  unfold State.nextListening at h
  repeat' split at h
  case h_2.isTrue =>
    obtain ⟨-, rfl⟩ := Prod.ext_iff.mp (Option.some.inj h)
    rfl
  all_goals simp at h

theorem State.nextAttach_standing {s t : State} {l : Line} {m : AttachToGfu} (h : s.nextAttach l = some (m, t)) :
    t.standing = s.standing := by
  obtain ⟨_, -, e⟩ := Option.map_eq_some_iff.mp h
  obtain ⟨-, rfl⟩ := Prod.ext_iff.mp e
  rfl

@[simp] theorem State.loseStanding_standing (s : State) (kind : GroupKind) (g : Grp) (p : Pos) :
    (s.loseStanding kind g p).standing = s.standing := by
  unfold State.loseStanding
  repeat' split
  all_goals rfl

@[simp] theorem State.configGroup_standing (s : State) (g : Grp) (c : GroupConfig) : (s.configGroup g c).standing = s.standing := by
  have h (ps : List Pos) : (ps.foldl (fun u p => u.loseStanding (s.group g).kind g p)
      (s.setGroup g ((s.group g).configured c))).standing = s.standing :=
    foldl_standing (fun u p => u.loseStanding_standing _ g p) ps _
  simp only [State.configGroup]
  repeat' split
  all_goals simp [h]

@[simp] theorem State.gfuJoin_standing (s : State) (p : Pos) (h : Handset) (v : Via) (g : Grp) :
    (s.gfuJoin p h v g).standing = s.standing := by
  unfold State.gfuJoin
  split <;> rfl

@[simp] theorem State.queryGroupRec_standing (s : State) (n : Port) (b : Byte) (body : GroupRec → List Byte) :
    (s.queryGroupRec n b body).standing = s.standing := by
  unfold State.queryGroupRec
  repeat' split
  all_goals simp

@[simp] theorem State.answerSpeaker_standing (s : State) (p : Pos) (k : Spk) (t : Target) :
    (s.answerSpeaker p k t).standing = s.standing := by
  cases t <;> rfl

/-! ### PTB's forwarded requests -/

theorem State.ptbRelease_standing (s : State) (p : Pos) (v : Via) (b : List Byte) :
    (s.ptbRelease p v b).standing = s.standing := by
  unfold State.ptbRelease
  repeat' split
  all_goals simp

theorem State.ptbHold_standing (s : State) (p : Pos) (v : Via) (b : List Byte) : (s.ptbHold p v b).standing = s.standing := by
  unfold State.ptbHold
  repeat' split
  all_goals simp

/-! ### EVU and LKI -/

@[simp] theorem State.evuDown_standing (s : State) (n : Port) : (s.evuDown n).standing = s.standing := by
  unfold State.evuDown
  split <;> simp

@[simp] theorem State.portDown_standing (s : State) (n : Port) : (s.portDown n).standing = s.standing := by
  simp only [State.portDown]
  split <;> rfl

@[simp] theorem State.changeMode_standing (s : State) (n : Port) (m : PortMode) : (s.changeMode n m).standing = s.standing := by
  simp only [State.changeMode]
  split <;> simp

@[simp] theorem State.endTest_standing (s : State) (n : Port) (o : LoopOutcome) : (s.endTest n o).standing = s.standing := by
  unfold State.endTest
  repeat' split
  all_goals simp

@[simp] theorem State.rxEvent_standing (s : State) (n : Port) (e : RxEvent) : (s.rxEvent n e).standing = s.standing := by
  cases e <;> simp [State.rxEvent, State.endTest_standing]

@[simp] theorem State.takeLoop_standing (s : State) (n : Port) (bytes : List Byte) (named : RxEvent → Bool) :
    (s.takeLoop n bytes named).standing = s.standing := by
  simp only [State.takeLoop]
  split
  · split
    · split
      · exact foldl_standing (fun u a => State.rxEvent_standing u n a) _ _
      · rfl
    · rfl
  · rfl

@[simp] theorem State.takeOpen_standing (s : State) (n : Port) : (s.takeOpen n).standing = s.standing := by
  unfold State.takeOpen
  split <;> simp

@[simp] theorem State.hear_standing (s : State) (n : Port) (due : RxState) (bytes : List Byte) (named : RxEvent → Bool) :
    (s.hear n due bytes named).standing = s.standing := by
  simp only [State.hear]
  repeat' split
  · exact State.takeLoop_standing ..
  · exact foldl_standing (fun u a => State.rxEvent_standing u n a) _ _
  · rfl

/-! ### SQU and RTU -/

@[simp] theorem State.endRun_standing (s : State) (p : Pos) (e : Event) : (s.endRun p e).standing = s.standing := rfl
@[simp] theorem State.submit_standing (s : State) (p : Pos) (q : Submission) : (s.submit p q).standing = s.standing := rfl

@[simp] theorem State.seqStep_standing (s : State) (p : Pos) (k : StepNo) (done : Nat) : (s.seqStep p k done).standing = s.standing := by
  unfold State.seqStep
  split <;> simp

@[simp] theorem State.beginStep_standing (s : State) (p : Pos) (k first : StepNo) (done fuel : Nat) :
    (s.beginStep p k first done fuel).standing = s.standing := by
  induction fuel generalizing s k done with
  | zero => rfl
  | succ n ih =>
    simp only [State.beginStep]
    repeat' split
    all_goals simp [ih]

@[simp] theorem State.begin_standing (s : State) (p : Pos) (k first : StepNo) (done : Nat) :
    (s.begin p k first done).standing = s.standing := State.beginStep_standing ..

@[simp] theorem State.goOn_standing (s : State) (p : Pos) (k first : StepNo) (done : Nat) :
    (s.goOn p k first done).standing = s.standing := by
  unfold State.goOn
  split <;> simp

@[simp] theorem State.stepOutcome_standing (s : State) (p : Pos) (k first : StepNo) (abort : Bool) (done : Nat) (c : Code) :
    (s.stepOutcome p k first abort done c).standing = s.standing := by
  simp only [State.stepOutcome]
  repeat' split
  all_goals simp

@[simp] theorem State.abortRun_standing (s : State) (p : Pos) (v : Via) : (s.abortRun p v).standing = s.standing := by
  unfold State.abortRun
  split <;> simp

@[simp] theorem State.moveFaults_standing (s : State) (r : TapNo) (cs : List Cover) (on quiet : Bool) :
    (s.moveFaults r cs on quiet).standing = s.standing := by
  have h (l : List Cover) : (l.foldl (fun u c => u.setFault c.pos c.hs on) s).standing = s.standing :=
    foldl_standing (fun u c => show (u.setFault c.pos c.hs on).standing = u.standing from rfl) l s
  simp only [State.moveFaults]
  repeat' split
  all_goals simp [h]

@[simp] theorem State.reserve_standing (s : State) (p : Pos) (h : Handset) (l : Line) (d : Direction) :
    (s.reserve p h l d).standing = s.standing := by
  simp only [State.reserve, State.answerLcu]
  repeat' split
  all_goals simp

@[simp] theorem State.releaseCover_standing (s : State) (c : Cover) (ofReset : Bool) : (s.releaseCover c ofReset).standing = s.standing := by
  unfold State.releaseCover
  split <;> simp

@[simp] theorem State.recorderChange_standing (s : State) (r : TapNo) (present : Bool) : (s.recorderChange r present).standing = s.standing := by
  simp only [State.recorderChange]
  split <;> simp

@[simp] theorem State.tapSet_standing (s : State) (n : Port) (r : TapNo) (b : List Byte) : (s.tapSet n r b).standing = s.standing := by
  unfold State.tapSet
  repeat' split
  all_goals simp

/-! ### CMX -/

@[simp] theorem State.install_standing (s : State) (d : Derivation) :
    (s.install d).standing = s.standing := by
  simp only [State.install]
  repeat' split
  all_goals rfl

end Sys2Proof.Machine
end

section
/-! What every command keeps of the two invariants of O57 (R49, R65, R74): PTB assigns, claims and mutes for UP positions alone, and
GFU names UP positions alone in its calls. -/

namespace Sys2Proof.Machine

/-- A position record as R49 leaves it: a DOWN position has nothing. -/
def PosRec.EmptyWhenDown (r : PosRec) : Prop :=
  r.up = false → r.claim = ⟨.none, .none⟩ ∧ r.mute = ⟨false, false⟩ ∧ ∀ k, r.assign.look k = .none

theorem PosRec.EmptyWhenDown.of_up {r : PosRec} (h : r.up = true) : r.EmptyWhenDown := fun e => by simp [h] at e

theorem PosRec.EmptyWhenDown.up_of_claim {r : PosRec} (hr : r.EmptyWhenDown) {h : Handset} (hc : r.claim.of h ≠ .none) :
    r.up = true := by
  by_contra hu
  obtain ⟨hn, -⟩ := hr (by simpa using hu)
  exact hc (by cases h <;> simp [hn, Pair.of])

/-- A handset that is freed (R36). -/
theorem PosRec.EmptyWhenDown.freed {r : PosRec} (hr : r.EmptyWhenDown) (h : Handset) :
    PosRec.EmptyWhenDown { r with claim := r.claim.set h .none, mute := r.mute.set h false } := by
  intro hu
  obtain ⟨hc, hm, ha⟩ := hr hu
  exact ⟨by cases h <;> simp [hc, Pair.set], by cases h <;> simp [hm, Pair.set], ha⟩

/-- The next state keeps both invariants. -/
structure State.HoldsDown (s t : State) : Prop where
  down : s.DownIsEmpty → t.DownIsEmpty
  calls : s.CallsNameUp → t.CallsNameUp

namespace State.HoldsDown

theorem refl (s : State) : s.HoldsDown s := ⟨id, id⟩

theorem trans {s t u : State} (h : s.HoldsDown t) (k : t.HoldsDown u) : s.HoldsDown u := ⟨k.down ∘ h.down, k.calls ∘ h.calls⟩

theorem of_standing {s t : State} (h : t.standing = s.standing) : s.HoldsDown t := by
  obtain ⟨hp, hc, hu⟩ : t.ptb = s.ptb ∧ t.gfu.calls = s.gfu.calls ∧ t.gfu.up = s.gfu.up := by
    simpa [State.standing] using h
  refine ⟨fun hs => ?_, fun hs => ?_⟩
  · simpa only [State.DownIsEmpty, State.pos, hp] using hs
  · simpa only [State.CallsNameUp, State.call, hc, hu] using hs

/-- What comes after and leaves PTB, the calls and the standing images alone makes no difference. -/
theorem then_standing {s t u : State} (h : s.HoldsDown t) (e : u.standing = t.standing) : s.HoldsDown u :=
  h.trans (of_standing e)

/-- What comes before and leaves them alone makes no difference either. -/
theorem after {s t u : State} (e : t.standing = s.standing) (h : t.HoldsDown u) : s.HoldsDown u := (of_standing e).trans h

/-- A change of one position record. -/
theorem setPos {s : State} {p : Pos} {r : PosRec} (h : (s.pos p).EmptyWhenDown → r.EmptyWhenDown) :
    s.HoldsDown (s.setPos p r) := by
  refine ⟨fun hs q => ?_, id⟩
  rw [State.setPos_pos]
  split
  · exact h (hs p)
  · exact hs q

/-- A change of one call record that names nobody who is not UP. -/
theorem setCall {s : State} {c : CallNo} {r : CallRec}
    (h : ∀ q, r.names q = true → (s.call c).names q = true ∨ s.gfu.up.look q = true) : s.HoldsDown (s.setCall c r) := by
  refine ⟨id, fun hs d q hq => ?_⟩
  rw [State.setCall_call] at hq
  split at hq
  · exact (h q hq).elim (hs c q) id
  · exact hs d q hq

theorem dispatchIf {k : ReqKind} {n : Port} {ok : List Byte → Bool} {own : List Byte → State → State}
    (h : ∀ b (t : State), t.HoldsDown (own b t)) (s : State) : s.HoldsDown (s.dispatchIf k n ok own) :=
  State.dispatchIf_preserves (s.HoldsDown ·) (fun _ _ _ ht => ht.then_standing rfl)
    (fun _ _ _ _ ht => ht.then_standing (State.answer_standing ..)) (fun b t ht => ht.trans (h b t)) s (.refl s)

theorem request {k : ReqKind} {r : Requester} {own : Pos → Via → List Byte → State → State}
    (h : ∀ p v b (t : State), t.HoldsDown (own p v b t)) (s : State) : s.HoldsDown (s.request k r own) :=
  State.request_preserves (s.HoldsDown ·) (fun _ _ _ ht => ht.then_standing rfl)
    (fun _ _ _ _ ht => ht.then_standing (State.answer_standing ..)) (fun _ _ ht => ht.then_standing rfl)
    (fun p v b t ht => ht.trans (h p v b t)) s (.refl s)

theorem reply (s : State) (p : Pos) (v : Via) (c : Code) : s.HoldsDown (s.reply p v c) := of_standing (State.reply_standing ..)

theorem answer (s : State) (r : Requester) (c : Code) (b : List Byte) : s.HoldsDown (s.answer r c b) :=
  of_standing (State.answer_standing ..)

end State.HoldsDown

open State (HoldsDown)

/-! ### Claims and mutes (R35, R36, R42 to R47) -/

theorem State.freeClaimOf_holdsDown (s : State) (p : Pos) (h : Handset) (c : Claim) : s.HoldsDown (s.freeClaimOf p h c) := by
  unfold State.freeClaimOf
  split
  · exact (HoldsDown.setPos fun hr => hr.freed h).then_standing rfl
  · exact .refl s

theorem State.claimFor_holdsDown (s : State) (p : Pos) (h : Handset) (v : Via) (o : Owner) (m : ToOwner) :
    s.HoldsDown (s.claimFor p h v o m) := by
  unfold State.claimFor
  split
  · next hc =>
    have hclaimed : s.HoldsDown (s.setPos p { s.pos p with claim := (s.pos p).claim.set h (.pending v) }) :=
      .setPos fun _ => .of_up hc.1
    exact hclaimed.then_standing (State.forward_standing ..)
  · exact .reply ..

/-- A final claim replaces a PENDING, which a DOWN position has not (R35, R49). -/
theorem State.takeOutcome_holdsDown (s : State) (o : Owner) (p : Pos) (h : Handset) (v : Via) (x : Claim ⊕ Code) :
    s.HoldsDown (s.takeOutcome o p h v x) := by
  cases x with
  | inl c =>
    simp only [State.takeOutcome]
    split
    · next hm =>
      have hclaimed : s.HoldsDown (s.setPos p { s.pos p with claim := (s.pos p).claim.set h c }) :=
        .setPos fun hr => .of_up (hr.up_of_claim (h := h) (by simp [hm]))
      exact hclaimed.then_standing (State.reply_standing ..)
    · exact .of_standing (by simp)
  | inr code => exact (s.freeClaimOf_holdsDown ..).then_standing (State.reply_standing ..)

theorem State.ptbMute_holdsDown (s : State) (p : Pos) (v : Via) (b : List Byte) : s.HoldsDown (s.ptbMute p v b) := by
  unfold State.ptbMute
  split
  · next h on _ _ =>
    split
    · exact .reply ..
    · exact .reply ..
    · next hn _ =>
      have hmuted : s.HoldsDown (s.setPos p { s.pos p with mute := (s.pos p).mute.set h on }) :=
        .setPos fun hr => .of_up (hr.up_of_claim hn)
      refine hmuted.then_standing ((State.reply_standing ..).trans ?_)
      split <;> rfl
  · exact .reply ..

/-! ### Speakers and settings (R33, R34, R37, R65) -/

theorem State.setAsking_holdsDown (s : State) (p : Pos) (k : Spk) (m : Option Asking) : s.HoldsDown (s.setAsking p k m) :=
  .setPos id

theorem State.assignTo_holdsDown {s : State} {p : Pos} (k : Spk) (t : Target) (hu : (s.pos p).up = true) :
    s.HoldsDown (s.assignTo p k t) :=
  (HoldsDown.setPos (r := { s.pos p with assign := (s.pos p).assign.put k t }) fun _ => .of_up hu).then_standing rfl

theorem State.ptbAssign_holdsDown (s : State) (p : Pos) (v : Via) (b : List Byte) : s.HoldsDown (s.ptbAssign p v b) := by
  have ask (k : Spk) (o : Owner) (t : Target) : s.HoldsDown (s.askSpeaker p v k o t) :=
    (s.setAsking_holdsDown ..).then_standing (State.forward_standing ..)
  unfold State.ptbAssign
  split
  · exact .reply ..
  · next hu =>
    split
    · next k t _ _ =>
      split
      · exact .reply ..
      · split
        · exact .reply ..
        · cases t with
          | none => exact (s.assignTo_holdsDown k .none (by simpa using hu)).then_standing (State.reply_standing ..)
          | line l => exact ask ..
          | group g => exact ask ..
    · exact .reply ..

/-- A grant that finds the position DOWN is refused (R65). -/
theorem State.takeAnswer_holdsDown (s : State) (p : Pos) (k : Spk) (t : Target) (x : Option Code) (early : Bool) :
    s.HoldsDown (s.takeAnswer p k t x early) := by
  cases h : (s.pos p).asking.look k with
  | none =>
    rw [State.takeAnswer, h]
    exact .refl s
  | some m =>
    have hasked := s.setAsking_holdsDown p k none
    obtain ⟨c, e, -⟩ | ⟨-, -, hu, -, -, e⟩ := State.takeAnswer_cases s h t x early <;> rw [e]
    · exact hasked.then_standing (State.reply_standing ..)
    · exact (hasked.trans (State.assignTo_holdsDown k t (by simpa [State.setAsking] using hu))).then_standing
        (State.reply_standing ..)

theorem State.offTarget_holdsDown (s : State) (p : Pos) (t : Target) : s.HoldsDown (s.offTarget p t) := by
  simp only [State.offTarget]
  split
  · exact .refl s
  · refine (HoldsDown.setPos (r := { s.pos p with
      assign := Table.build fun k => if (s.pos p).assign.look k = t then .none else (s.pos p).assign.look k })
      fun hr hu => ?_).then_standing rfl
    obtain ⟨hc, hm, ha⟩ := hr hu
    exact ⟨hc, hm, fun k => by simp [ha]⟩

theorem State.setVolume_holdsDown (s : State) (r : Requester) (p : Option Pos) (b : List Byte) :
    s.HoldsDown (s.setVolume r p b) := by
  unfold State.setVolume
  split
  · next q k _ =>
    have hset : s.HoldsDown (s.setPos q { s.pos q with volume := (s.pos q).volume.put k (levelOf (byteAt b 1)) }) := .setPos id
    exact hset.then_standing (State.answer_standing ..)
  · exact .answer ..

/-! ### The standing of a position at PTB (R49, R52, R175) -/

theorem State.ptbDown_holdsDown (s : State) (p : Pos) : s.HoldsDown (s.ptbDown p) :=
  (HoldsDown.setPos fun _ _ => ⟨rfl, rfl, fun k => by simp [PosRec.down]⟩).then_standing rfl

theorem State.ptbReset_holdsDown (s : State) : s.HoldsDown s.ptbReset := by
  refine ⟨fun hs p => ?_, id⟩
  have e : s.ptbReset.pos p = (s.pos p).soft := by simp [State.ptbReset, State.emit, State.pos]
  rw [e]
  exact fun _ => ⟨rfl, rfl, fun k => by simp [PosRec.soft]⟩

theorem State.portUp_holdsDown (s : State) (n : Port) : s.HoldsDown (s.portUp n) := by
  have hcatch (u : State) (p : Pos) : u.HoldsDown (u.ptbCatchUp p) := by
    unfold State.ptbCatchUp
    split
    · exact .refl u
    · next rest _ => exact (HoldsDown.of_standing (u.setChan_standing _)).trans (State.ptbDown_holdsDown ..)
  have hup (u : State) (p : Pos) : u.HoldsDown (u.ptbUp p) :=
    (HoldsDown.setPos (r := { u.pos p with up := true }) fun _ => .of_up rfl).then_standing rfl
  simp only [State.portUp]
  split
  · exact .of_standing (by simp)
  · exact (((HoldsDown.of_standing (by simp)).trans (hcatch ..)).trans (hup ..)).then_standing rfl

/-! ### Calls (R68, R70 to R74) -/

/-- A call that GFU sets up is between two UP positions (R68, R74). -/
theorem State.callCheck_up {s : State} {p : Pos} {h : Handset} {callee : Byte} {q : Pos} {c : CallNo}
    (e : s.callCheck p h callee = .inr (q, c)) : s.gfu.up.look p = true ∧ s.gfu.up.look q = true := by
  unfold State.callCheck at e
  repeat' split at e
  all_goals cases e
  exact ⟨by simp_all, by simp_all⟩

theorem State.gfuCall_holdsDown (s : State) (p : Pos) (h : Handset) (v : Via) (callee : Byte) (voice : Bool) :
    s.HoldsDown (s.gfuCall p h v callee voice) := by
  unfold State.gfuCall
  split
  · exact .of_standing rfl
  · next q c e =>
    obtain ⟨hp, hq⟩ := State.callCheck_up e
    refine (HoldsDown.setCall fun a ha => .inr ?_).then_standing rfl
    obtain rfl | rfl : p = a ∨ q = a := by simpa [CallRec.names] using ha
    · exact hp
    · exact hq

/-- An answered call names whom it named (R70). -/
theorem State.gfuAnswer_holdsDown (s : State) (p : Pos) (h : Handset) (v : Via) (c : CallNo) :
    s.HoldsDown (s.gfuAnswer p h v c) := by
  unfold State.gfuAnswer
  split
  · next q k callee voice x hc =>
    split
    · next hp =>
      split
      · exact .of_standing rfl
      · exact (HoldsDown.setCall fun a ha => .inl (by simpa [CallRec.names, hc, hp] using ha)).then_standing rfl
    · exact .of_standing rfl
  · exact .of_standing rfl

theorem State.endCall_holdsDown (s : State) (c : CallNo) (p q : Pos) (o : Sends) : s.HoldsDown (s.endCall c p q o) :=
  (HoldsDown.setCall fun a ha => by simp [CallRec.names] at ha).then_standing rfl

theorem State.declineCall_holdsDown (s : State) (p : Pos) (v : Via) (b : List Byte) : s.HoldsDown (s.declineCall p v b) := by
  unfold State.declineCall
  repeat' split
  case isTrue => exact (s.endCall_holdsDown ..).then_standing (State.reply_standing ..)
  all_goals exact .reply ..

theorem CallRec.names_without {r : CallRec} {p q : Pos} (h : (r.without p).names q = true) :
    r.names q = true ∧ q ≠ p := by
  cases r with
  | free => simp [CallRec.without, CallRec.names] at h
  | alerting a k b voice x | active a k b j voice =>
    simp only [CallRec.without] at h
    split at h
    · simp [CallRec.names] at h
    · next hp =>
      refine ⟨by simpa [CallRec.names] using h, ?_⟩
      rintro rfl
      exact hp (by simpa [CallRec.names] using h)

/-- The loss of a position ends the calls that name it, before its image goes DOWN (R74). -/
theorem State.gfuDown_holdsDown (s : State) (p : Pos) : s.HoldsDown (s.gfuDown p) := by
  rw [s.gfuDown_whole p]
  refine ⟨id, fun hs c q hq => ?_⟩
  obtain ⟨hn, hne⟩ := CallRec.names_without (r := s.call c) (p := p) (q := q)
    (by simpa [Gfu.without, State.call] using hq)
  simpa [Gfu.without, Ne.symm hne] using hs c q hn

theorem State.gfuReset_holdsDown (s : State) : s.HoldsDown s.gfuReset := by
  refine ⟨id, fun _ c q hq => ?_⟩
  have e : s.gfuReset.call c = .free := by simp [State.gfuReset, State.emit, State.call]
  simp [e, CallRec.names] at hq

/-! ### Handsets that leave -/

theorem State.leave_holdsDown {s t : State} {p : Pos} {h : Handset} {c : Claim} (e : s.leave p h c = some t) :
    s.HoldsDown t := by
  cases c with
  | line l =>
    obtain ⟨_, -, rfl⟩ := Option.map_eq_some_iff.mp e
    exact .of_standing rfl
  | group g =>
    simp only [State.leave, State.leaveJoined] at e
    split at e
    · obtain rfl := Option.some.inj e
      exact .of_standing rfl
    · simp at e
  | call n =>
    simp only [State.leave, State.leaveCall] at e
    repeat' split at e
    case h_2.isTrue | h_3.isTrue | h_3.isFalse.isTrue =>
      obtain rfl := Option.some.inj e
      exact s.endCall_holdsDown ..
    all_goals simp at e
  | none | pending => simp [State.leave] at e

theorem State.ownerRelease_holdsDown (s : State) (p : Pos) (h : Handset) (v : Via) (c : Claim) :
    s.HoldsDown (s.ownerRelease p h v c) := by
  unfold State.ownerRelease
  split
  · exact .reply ..
  · next e => exact ((State.leave_holdsDown e).trans (State.freeClaimOf_holdsDown ..)).then_standing (State.reply_standing ..)

theorem State.ownerReturn_holdsDown (s : State) (o : Owner) (p : Pos) (h : Handset) (c : Claim) :
    s.HoldsDown (s.ownerReturn o p h c) := by
  obtain ⟨-, e⟩ | ⟨t, ht, e⟩ := s.ownerReturn_cases o p h c <;> rw [e]
  · exact .refl s
  · exact (State.leave_holdsDown ht).then_standing rfl

theorem State.lcuHold_holdsDown (s : State) (p : Pos) (h : Handset) (v : Via) (l : Line) : s.HoldsDown (s.lcuHold p h v l) := by
  unfold State.lcuHold
  repeat' split
  case h_2.isFalse.isFalse =>
    exact ((HoldsDown.of_standing (State.applyLine_standing ..)).trans (State.freeClaimOf_holdsDown ..)).then_standing
      (State.reply_standing ..)
  all_goals exact .reply ..

/-! ### The tick and the power-on reset -/

theorem CallRec.names_tick (r : CallRec) (second : Bool) (q : Pos) : (r.tick second).names q = r.names q := by
  cases r <;> rfl

theorem State.tick_holdsDown (s : State) : s.HoldsDown s.tick := by
  refine ⟨id, fun hs c q hq => hs c q ?_⟩
  rwa [State.tick_call, CallRec.names_tick] at hq

theorem State.poweredOn_holdsDown (s : State) (far : Vector Bool 64) (present : Vector Bool 16) (cs : List Instr) :
    s.HoldsDown (State.poweredOn far present cs) := by
  refine ⟨fun _ p _ => ?_, fun _ c q hq => ?_⟩
  · rw [State.poweredOn_pos]
    exact ⟨rfl, rfl, fun k => by simp [PosRec.reset]⟩
  · simp [CallRec.names] at hq

end Sys2Proof.Machine
end

section
/-! O57, command by command. -/

namespace Sys2Proof.Machine

open State (HoldsDown)

/-! ### Requests that leave both records alone -/

theorem State.dispatchIf_standing {k : ReqKind} {n : Port} {ok : List Byte → Bool} {own : List Byte → State → State}
    (h : ∀ b t, (own b t).standing = t.standing) (s : State) : (s.dispatchIf k n ok own).standing = s.standing :=
  State.dispatchIf_keeps State.standing (fun _ _ _ => rfl) State.answer_standing h s

theorem State.dispatch_standing {k : ReqKind} {n : Port} {own : List Byte → State → State}
    (h : ∀ b t, (own b t).standing = t.standing) (s : State) : (s.dispatch k n own).standing = s.standing :=
  State.dispatchIf_standing h s

theorem State.request_standing {k : ReqKind} {r : Requester} {own : Pos → Via → List Byte → State → State}
    (h : ∀ p v b t, (own p v b t).standing = t.standing) (s : State) : (s.request k r own).standing = s.standing :=
  State.request_keeps State.standing (fun _ _ _ => rfl) State.answer_standing (fun _ _ => rfl) h s

theorem State.portRequest_standing {n : Port} {b : Byte} {own : Port → State → State}
    (h : ∀ m t, (own m t).standing = t.standing) (s : State) : (s.portRequest n b own).standing = s.standing := by
  unfold State.portRequest
  repeat' split
  all_goals simp [h]

theorem State.tapRequest_standing {k : ReqKind} {n : Port} {own : TapNo → List Byte → State → State}
    (h : ∀ r b t, (own r b t).standing = t.standing) (s : State) : (s.tapRequest k n own).standing = s.standing := by
  refine State.dispatch_standing (fun b t => ?_) s
  split
  · simp
  · exact h _ _ _

@[simp] theorem State.lockTo_standing (s : State) (n : Port) (r : TapNo) (l : Lock) : (s.lockTo n r l).standing = s.standing :=
  State.answer_standing ..

@[simp] theorem State.resetPort_standing (s : State) (m : Port) : (s.resetPort m).standing = s.standing := rfl

/-! ### Commands that leave both records alone -/

/-- The commands that move PTB's positions, GFU's calls or its standing images. -/
def Instr.movesStanding : Instr → Bool
  | .powerOnReset .. | .takeLine .. | .joinGroup .. | .callPosition .. | .answerCall .. | .finalClaim .. | .releaseNotice ..
  | .returnNotice .. | .releaseAtOwner .. | .holdAtLcu .. | .mute .. | .assignSpeaker .. | .assignmentAnswer ..
  | .removalNotice .. | .setVolume .. | .positionConfig .. | .positionDownAtPtb .. | .linkUpTimerExpiry ..
  | .callPositionAtGfu .. | .answerCallAtGfu .. | .declineCall .. | .callAlertExpiry .. | .positionDownAtGfu ..
  | .standingUpNotice .. | .softResetAtPtb | .softResetAtGfu => true
  | _ => false

theorem exec_standing {i : Instr} (hi : Instr.movesStanding i = false) (s : State) :
    ∃ t, exec i s = .next t ∧ t.standing = s.standing := by
  cases i with
  | powerOnReset | takeLine | joinGroup | callPosition | answerCall | finalClaim | releaseNotice | returnNotice
  | releaseAtOwner | holdAtLcu | mute | assignSpeaker | assignmentAnswer | removalNotice | setVolume | positionConfig
  | positionDownAtPtb | linkUpTimerExpiry | callPositionAtGfu | answerCallAtGfu | declineCall | callAlertExpiry
  | positionDownAtGfu | standingUpNotice | softResetAtPtb | softResetAtGfu => simp [Instr.movesStanding] at hi
  -- One record of LCU, CMX, SQU, EVU or LKI, or a floor, moves.
  | farSeizeChange | qualifyExpiry | answerExpiry | ringOutExpiry | holdRecallExpiry | guardExpiry | talkReport
  | positionDownAtLcu | attachQuestion | attachOutcome | holdTimerExpiry | positionDownAtSqu | changeNotice | derivationStart
  | audioFrame | syncFound | replySend | eventFrame | testFrameSend | frameSent | recordPlacement =>
    simp only [exec, execFarSeizeChange, execQualifyExpiry, execAnswerExpiry, execRingOutExpiry, execHoldRecallExpiry,
      execGuardExpiry, execTalkReport, execPositionDownAtLcu, execAttachQuestion, execAttachOutcome, execHoldTimerExpiry,
      execPositionDownAtSqu, execChangeNotice, execDerivationStart, execAudioFrame, execSyncFound, execReplySend,
      execEventFrame, execTestFrameSend, execFrameSent, execRecordPlacement]
    repeat' split
    all_goals exact ⟨_, rfl, rfl⟩
  | coverageReservation | coverageRelease | recorderPresentChange | listInstall | linkLossTimerExpiry | positionDownAtEvu
  | frameOpen | receiverHunt | frameClose | frameAbort | frameError | unknownRequest | softResetCompletion =>
    simp only [exec, execCoverageReservation, execCoverageRelease, execRecorderPresentChange, execListInstall,
      execLinkLossTimerExpiry, execPositionDownAtEvu, execFrameOpen, execReceiverHunt, execFrameClose, execFrameAbort,
      execFrameError, execUnknownRequest, execSoftResetCompletion]
    repeat' split
    all_goals exact ⟨_, rfl, by simp⟩
  -- A message of another block is taken from its path.
  | takeLineAtLcu | joinGroupAtGfu =>
    simp only [exec, execTakeLineAtLcu, execJoinGroupAtGfu]
    split
    · next e =>
      have ht := State.nextForHandset_standing e
      repeat' split
      all_goals exact ⟨_, rfl, by simp [ht]⟩
    · exact ⟨_, rfl, rfl⟩
  | speakerQuestion =>
    simp only [exec, execSpeakerQuestion]
    split
    · next e =>
      have ht := State.nextForSpeaker_standing e
      exact ⟨_, rfl, by simp [ht]⟩
    · exact ⟨_, rfl, rfl⟩
  | attachAnswer | hootLineRemoval =>
    simp only [exec, execAttachAnswer, execHootLineRemoval]
    split
    · next e =>
      have ht := State.nextAttach_standing e
      repeat' split
      all_goals exact ⟨_, rfl, by simp [ht]⟩
    · exact ⟨_, rfl, rfl⟩
  | listenOn | listenOff =>
    simp only [exec, execListenOn, execListenOff]
    split
    · next e =>
      have ht := State.nextListening_standing e
      repeat' split
      all_goals exact ⟨_, rfl, by simp [ht]⟩
    · exact ⟨_, rfl, rfl⟩
  | voxActiveReport | voxQuietReport =>
    simp only [exec, execVoxActiveReport, execVoxQuietReport]
    split
    · next e =>
      have ht := State.nextVox_standing e
      exact ⟨_, rfl, by simp [ht]⟩
    · exact ⟨_, rfl, rfl⟩
  | reservationAnswer p h =>
    change ∃ t, execReservationAnswer p h s = .next t ∧ _
    unfold execReservationAnswer
    split
    · exact ⟨_, rfl, State.lcuAnswer_standing ..⟩
    · exact ⟨_, rfl, rfl⟩
  | stepOutcome p =>
    change ∃ t, execStepOutcome p s = .next t ∧ _
    cases ho : s.chan.outcomes.look p with
    | none => exact ⟨s, by simp only [execStepOutcome, ho], rfl⟩
    | some c =>
      rcases hr : (s.runOf p).state with _ | ⟨k, first, abort⟩ | _ | _ <;> simp only [execStepOutcome, ho, hr]
      case waiting => exact ⟨_, rfl, State.stepOutcome_standing ..⟩
      all_goals exact ⟨_, rfl, rfl⟩
  | pauseExpiry p =>
    change ∃ t, execPauseExpiry p s = .next t ∧ _
    unfold execPauseExpiry
    split
    · exact ⟨_, rfl, by simp⟩
    · exact ⟨_, rfl, rfl⟩
  -- A request of a position.
  | setPrivacy r => exact ⟨_, rfl, State.request_standing (fun p v b t => t.setPrivacy_standing p v b) s⟩
  | signalLine r => exact ⟨_, rfl, State.request_standing (fun p v b t => t.signalLine_standing p v b) s⟩
  | release r => exact ⟨_, rfl, State.request_standing (fun p v b t => t.ptbRelease_standing p v b) s⟩
  | hold r => exact ⟨_, rfl, State.request_standing (fun p v b t => t.ptbHold_standing p v b) s⟩
  | floorRequest r => exact ⟨_, rfl, State.request_standing (fun p v b t => t.floorRequest_standing p v b) s⟩
  | floorRelease r => exact ⟨_, rfl, State.request_standing (fun p v b t => t.floorRelease_standing p v b) s⟩
  | abortSequence n => exact ⟨_, rfl, State.request_standing (fun p v _ t => t.abortRun_standing p v) s⟩
  | runSequence n =>
    refine ⟨_, rfl, State.request_standing (fun p v b t => ?_) s⟩
    split <;> simp
  -- A request of a port about a tap or about a port.
  | tapSet | tapDisable | tapEnable | tapLock | tapUnlock | tapFix | queryTap =>
    refine ⟨_, rfl, State.tapRequest_standing (fun r b t => ?_) s⟩
    repeat' split
    all_goals simp
  | statusRead | eventSetup | portReset =>
    refine ⟨_, rfl, State.dispatch_standing (fun b t => State.portRequest_standing (fun m u => ?_) t) s⟩
    repeat' split
    all_goals simp
  -- Any other request of a port.
  | lineConfig | lineServiceOut | lineServiceIn | hootDetach | appearanceSet | appearanceBar | queryPosition | groupConfig
  | hootAttach | queryGroup | pinFloor | unpin | legLevel | queryLeg | querySource | stepRead | portMode | testFrame
  | fetchEvents | summary | resetArm =>
    refine ⟨_, rfl, State.dispatchIf_standing (fun b t => ?_) s⟩
    repeat' split
    all_goals simp
  | queryLine | callConfig | detectorConfig | stepWrite | identify =>
    refine ⟨_, rfl, State.dispatchIf_standing (fun b t => ?_) s⟩
    dsimp only
    repeat' split
    all_goals exact State.answer_standing ..
  | resetExecute =>
    refine ⟨_, rfl, State.dispatchIf_standing (fun b t => ?_) s⟩
    split
    · rfl
    · simp
  -- The soft reset at the owners that hold no position and no call.
  | softResetAtLcu | softResetAtCmx | softResetAtRtu | softResetAtSqu =>
    refine ⟨_, rfl, ?_⟩
    unfold State.ownerReset
    repeat' split
    all_goals rfl

/-! ### Commands that move them -/

theorem State.ptbTake_holdsDown (s : State) (p : Pos) (v : Via) (b : List Byte) : s.HoldsDown (s.ptbTake p v b) := by
  unfold State.ptbTake
  split
  · exact State.claimFor_holdsDown ..
  · exact .reply ..

theorem State.ptbJoin_holdsDown (s : State) (p : Pos) (v : Via) (b : List Byte) : s.HoldsDown (s.ptbJoin p v b) := by
  unfold State.ptbJoin
  split
  · exact State.claimFor_holdsDown ..
  · exact .reply ..

theorem State.ptbCall_holdsDown (s : State) (p : Pos) (v : Via) (b : List Byte) : s.HoldsDown (s.ptbCall p v b) := by
  unfold State.ptbCall
  split
  · exact State.claimFor_holdsDown ..
  · exact .reply ..

theorem State.ptbAnswer_holdsDown (s : State) (p : Pos) (v : Via) (b : List Byte) : s.HoldsDown (s.ptbAnswer p v b) := by
  unfold State.ptbAnswer
  split
  · exact State.claimFor_holdsDown ..
  · exact .reply ..

theorem State.takeStep_holdsDown {k : ReqKind} {p : Pos} {own : List Byte → State → State}
    (h : ∀ b (t : State), t.HoldsDown (own b t)) (s : State) : s.HoldsDown (s.takeStep k p own) := by
  unfold State.takeStep
  repeat' split
  case isTrue =>
    refine .after ?_ (h ..)
    rfl
  all_goals exact .refl s

theorem State.ownerReset_holdsDown {taken : ResetProgress → Bool} {mark : ResetProgress → ResetProgress} {act : State → State}
    (h : ∀ t : State, t.HoldsDown (act t)) (s : State) : s.HoldsDown (s.ownerReset taken mark act) := by
  unfold State.ownerReset
  repeat' split
  case h_2.isFalse => exact (h s).then_standing (State.setReset_standing ..)
  all_goals exact .refl s

/-- A position whose image GFU raises stays outside no call that names it (R74). -/
theorem State.raiseImage_holdsDown (s : State) (p : Pos) :
    s.HoldsDown { s with gfu := { s.gfu with up := s.gfu.up.put p true } } :=
  ⟨id, fun hs c q hq => by simp [hs c q hq]⟩

theorem exec_holdsDown {i : Instr} {s t : State} (e : exec i s = .next t) : s.HoldsDown t := by
  by_cases hi : Instr.movesStanding i = false
  · obtain ⟨u, hu, hstand⟩ := exec_standing hi s
    obtain rfl : u = t := by simpa [hu] using e
    exact .of_standing hstand
  cases i with
  | powerOnReset far present => cases e; exact s.poweredOn_holdsDown ..
  | takeLine r => cases e; exact .request (fun p v b t => t.ptbTake_holdsDown p v b) s
  | joinGroup r => cases e; exact .request (fun p v b t => t.ptbJoin_holdsDown p v b) s
  | callPosition r => cases e; exact .request (fun p v b t => t.ptbCall_holdsDown p v b) s
  | answerCall n => cases e; exact .request (fun p v b t => t.ptbAnswer_holdsDown p v b) s
  | declineCall n => cases e; exact .request (fun p v b t => t.declineCall_holdsDown p v b) s
  | mute n => cases e; exact .request (fun p v b t => t.ptbMute_holdsDown p v b) s
  | assignSpeaker r => cases e; exact .request (fun p v b t => t.ptbAssign_holdsDown p v b) s
  | setVolume r =>
    cases r with
    | port n => cases e; exact .dispatchIf (fun b t => t.setVolume_holdsDown ..) s
    | run p => cases e; exact State.takeStep_holdsDown (fun b t => t.setVolume_holdsDown ..) s
  | positionConfig n =>
    cases e
    refine .dispatchIf (fun b t => ?_) s
    split
    · next p v _ _ =>
      have hset : t.HoldsDown (t.setPos p { t.pos p with settings := v }) := .setPos id
      exact hset.then_standing (State.answer_standing ..)
    · exact .answer ..
  | finalClaim o p h =>
    change execFinalClaim o p h s = .next t at e
    unfold execFinalClaim at e
    split at e <;> cases e
    · next he => exact .after (State.heardOfHandset_standing he) (State.takeOutcome_holdsDown ..)
    · exact .refl s
  | releaseNotice o p h =>
    change execReleaseNotice o p h s = .next t at e
    unfold execReleaseNotice at e
    split at e <;> cases e
    · next he => exact .after (State.heardOfHandset_standing he) (State.freeClaimOf_holdsDown ..)
    · exact .refl s
  | assignmentAnswer o p =>
    change execAssignmentAnswer o p s = .next t at e
    unfold execAssignmentAnswer at e
    split at e <;> cases e
    · next he => exact .after (State.heardOfSpeakers_standing he) (State.takeAnswer_holdsDown ..)
    · exact .refl s
  | removalNotice o p =>
    change execRemovalNotice o p s = .next t at e
    unfold execRemovalNotice at e
    split at e <;> cases e
    · next he => exact .after (State.heardOfSpeakers_standing he) (State.offTarget_holdsDown ..)
    · exact .refl s
  | returnNotice o p h =>
    change execReturnNotice o p h s = .next t at e
    unfold execReturnNotice at e
    split at e <;> cases e
    · next he => exact .after (State.nextForHandset_standing he) (State.ownerReturn_holdsDown ..)
    · exact .refl s
  | releaseAtOwner o p h =>
    change execReleaseAtOwner o p h s = .next t at e
    unfold execReleaseAtOwner at e
    split at e <;> cases e
    · next he => exact .after (State.nextForHandset_standing he) (State.ownerRelease_holdsDown ..)
    · exact .refl s
  | holdAtLcu p h =>
    change execHoldAtLcu p h s = .next t at e
    unfold execHoldAtLcu at e
    split at e <;> cases e
    · next he => exact .after (State.nextForHandset_standing he) (State.lcuHold_holdsDown ..)
    · exact .refl s
  | callPositionAtGfu p h =>
    change execCallPositionAtGfu p h s = .next t at e
    unfold execCallPositionAtGfu at e
    split at e <;> cases e
    · next he => exact .after (State.nextForHandset_standing he) (State.gfuCall_holdsDown ..)
    · exact .refl s
  | answerCallAtGfu p h =>
    change execAnswerCallAtGfu p h s = .next t at e
    unfold execAnswerCallAtGfu at e
    split at e <;> cases e
    · next he => exact .after (State.nextForHandset_standing he) (State.gfuAnswer_holdsDown ..)
    · exact .refl s
  | positionDownAtPtb p =>
    change execPositionDownAtPtb p s = .next t at e
    unfold execPositionDownAtPtb at e
    split at e <;> cases e
    · exact .refl s
    · refine .after ?_ (State.ptbDown_holdsDown ..)
      rfl
  | positionDownAtGfu p =>
    change execPositionDownAtGfu p s = .next t at e
    unfold execPositionDownAtGfu at e
    split at e <;> obtain rfl := Host.Outcome.next.inj e
    · exact .refl s
    · exact .after (State.setChan_standing ..) (State.gfuDown_holdsDown ..)
  | linkUpTimerExpiry n =>
    change execLinkUpTimerExpiry n s = .next t at e
    unfold execLinkUpTimerExpiry at e
    split at e <;> cases e
    · exact s.portUp_holdsDown n
    · exact .refl s
  | callAlertExpiry c =>
    change execCallAlertExpiry c s = .next t at e
    unfold execCallAlertExpiry at e
    split at e <;> cases e
    · exact s.endCall_holdsDown ..
    · exact .refl s
  | standingUpNotice p =>
    change execStandingUpNotice p s = .next t at e
    unfold execStandingUpNotice at e
    dsimp only at e
    repeat' split at e
    all_goals cases e
    · exact .refl s
    · exact .of_standing rfl
    · exact .after (State.setChan_standing ..) (State.raiseImage_holdsDown ..)
  | softResetAtPtb => cases e; exact State.ownerReset_holdsDown State.ptbReset_holdsDown s
  | softResetAtGfu => cases e; exact State.ownerReset_holdsDown State.gfuReset_holdsDown s
  | _ => exact absurd rfl hi

theorem step_holdsDown {s t : State} (e : step s = .next t) : s.HoldsDown t := by
  unfold step at e
  split at e
  · cases e
    exact s.tick_holdsDown
  · next c rest _ =>
    have h : s.HoldsDown { s with pending := rest } := .of_standing rfl
    exact h.trans (exec_holdsDown e)

/-- Settles O57: every command leaves PTB's positions, GFU's calls and its images alone (`exec_standing`) or keeps both invariants
(`exec_holdsDown`). -/
theorem downPositionsStayEmpty : Obligations.DownPositionsStayEmpty :=
  fun _ _ e => ⟨(step_holdsDown e).down, (step_holdsDown e).calls⟩

end Sys2Proof.Machine
end

section
/-! A connecting request at PTB (R35, R38, R49, R60, R68, R70). -/

namespace Sys2Proof.Machine

/-- The state in which PTB takes a submitted request holds the same positions. -/
theorem State.pos_of_submits {s t : State} {r : Requester} {k : ReqKind} {p : Pos} {body : List Byte}
    (h : s.Submits r k p body t) (q : Pos) : t.pos q = s.pos q := by
  cases r with
  | port n =>
    obtain ⟨-, f, -, -, rfl⟩ := h
    rfl
  | run p' =>
    obtain ⟨-, o, -, -, rfl⟩ := h
    rfl

/-- Check 1 of a connecting request, for a request that PTB has taken (R35, R49). -/
theorem State.claimFor_of_submits {s t : State} {r : Requester} {k : ReqKind} {p : Pos} {b : List Byte}
    (hs : s.Submits r k p b t) (h : Handset) (o : Owner) (m : ToOwner) :
    t.claimFor p h (requesterVia r) o m =
      if (s.pos p).up = true ∧ (s.pos p).claim.of h = .none then
        (t.setPos p { s.pos p with claim := (s.pos p).claim.set h (.pending (requesterVia r)) }).forward o m
      else t.answer r .handsetBusy := by
  rw [State.claimFor, State.pos_of_submits hs, State.reply_of_sends hs]

theorem exec_takeLine_of_submits {s t : State} {r : Requester} {p : Pos} {b : List Byte} (hs : s.Submits r .takeLine p b t) :
    exec (.takeLine r) s = .next (t.ptbTake p (requesterVia r) b) :=
  congrArg Host.Outcome.next (State.request_of_sends hs _)

theorem exec_joinGroup_of_submits {s t : State} {r : Requester} {p : Pos} {b : List Byte} (hs : s.Submits r .joinGroup p b t) :
    exec (.joinGroup r) s = .next (t.ptbJoin p (requesterVia r) b) :=
  congrArg Host.Outcome.next (State.request_of_sends hs _)

theorem exec_callPosition_of_submits {s t : State} {r : Requester} {p : Pos} {b : List Byte}
    (hs : s.Submits r .callPosition p b t) : exec (.callPosition r) s = .next (t.ptbCall p (requesterVia r) b) :=
  congrArg Host.Outcome.next (State.request_of_sends hs _)

theorem exec_answerCall_of_submits {s t : State} {n : Port} {p : Pos} {b : List Byte}
    (hs : s.Submits (.port n) .answerCall p b t) : exec (.answerCall n) s = .next (t.ptbAnswer p .link b) :=
  congrArg Host.Outcome.next (State.request_of_sends hs _)

/-! ### Operands out of their codes -/

theorem State.ptbTake_bad {b : List Byte} (hb : numOf 64 (byteAt b 0) = none ∨ handsetOf (byteAt b 1) = none) (s : State) (p : Pos)
    (v : Via) : s.ptbTake p v b = s.reply p v .badValue := by
  rcases hb with hb | hb <;> simp [State.ptbTake, hb]

theorem State.ptbJoin_bad {b : List Byte} (hb : numOf 16 (byteAt b 0) = none ∨ handsetOf (byteAt b 1) = none) (s : State) (p : Pos)
    (v : Via) : s.ptbJoin p v b = s.reply p v .badValue := by
  rcases hb with hb | hb <;> simp [State.ptbJoin, hb]

theorem State.ptbCall_bad {b : List Byte} (hb : handsetOf (byteAt b 1) = none ∨ onOffOf (byteAt b 2) = none) (s : State) (p : Pos)
    (v : Via) : s.ptbCall p v b = s.reply p v .badValue := by
  rcases hb with hb | hb <;> simp [State.ptbCall, hb]

theorem State.ptbAnswer_bad {b : List Byte} (hb : numOf 8 (byteAt b 0) = none ∨ handsetOf (byteAt b 1) = none) (s : State) (p : Pos)
    (v : Via) : s.ptbAnswer p v b = s.reply p v .badValue := by
  rcases hb with hb | hb <;> simp [State.ptbAnswer, hb]

/-- Settles O12: each request by its operands, and then by check 1 (`State.claimFor_of_submits`). -/
theorem connectingRequestsClaimTheHandset : Obligations.ConnectingRequestsClaimTheHandset := by
  intro s t r p h b
  refine ⟨fun l hs hl hh => ?take, fun g hs hg hh => ?join, fun voice hs hh hv => ?call, fun n c hs hc hh => ?answer,
    fun hs hb => ?badTake, fun hs hb => ?badJoin, fun hs hb => ?badCall, fun n hs hb => ?badAnswer⟩
  case take => simp only [exec_takeLine_of_submits hs, State.ptbTake, hl, hh, State.claimFor_of_submits hs]
  case join => simp only [exec_joinGroup_of_submits hs, State.ptbJoin, hg, hh, State.claimFor_of_submits hs]
  case call => simp only [exec_callPosition_of_submits hs, State.ptbCall, hh, hv, State.claimFor_of_submits hs]
  case answer =>
    rw [exec_answerCall_of_submits hs]
    simp only [State.ptbAnswer, hc, hh]
    exact congrArg _ (State.claimFor_of_submits hs h .gfu (.answer p h .link c))
  case badTake => rw [exec_takeLine_of_submits hs, State.ptbTake_bad hb, State.reply_of_sends hs]
  case badJoin => rw [exec_joinGroup_of_submits hs, State.ptbJoin_bad hb, State.reply_of_sends hs]
  case badCall => rw [exec_callPosition_of_submits hs, State.ptbCall_bad hb, State.reply_of_sends hs]
  case badAnswer =>
    rw [exec_answerCall_of_submits hs, State.ptbAnswer_bad hb]
    exact congrArg _ (State.reply_of_sends hs ..)

end Sys2Proof.Machine
end

section
/-! An owner's message about a handset at PTB (R35, R36). -/

namespace Sys2Proof.Machine

/-- A message taken from an owner leaves the positions as they were. -/
theorem State.heardOfHandset_pos {s t : State} {o : Owner} {p : Pos} {h : Handset} {m : ToPtb}
    (e : s.heardOfHandset o p h = some (m, t)) (q : Pos) : t.pos q = s.pos q := by
  obtain ⟨-, front, back, -, rfl, -⟩ := State.heardOfHandset_some e
  rw [State.pos, State.setFromOwner_ptb, State.pos]

theorem exec_finalClaim_of_heard {s t : State} {o : Owner} {p : Pos} {h : Handset} {v : Via} {x : Claim ⊕ Code}
    (e : s.heardOfHandset o p h = some (.outcome p h v x, t)) :
    exec (.finalClaim o p h) s = .next (t.takeOutcome o p h v x) := by
  change execFinalClaim o p h s = _
  simp only [execFinalClaim, e]

theorem exec_releaseNotice_of_heard {s t : State} {o : Owner} {p : Pos} {h : Handset} {c : Claim}
    (e : s.heardOfHandset o p h = some (.released p h c, t)) :
    exec (.releaseNotice o p h) s = .next (t.freeClaimOf p h c) := by
  change execReleaseNotice o p h s = _
  simp only [execReleaseNotice, e]

theorem State.freeClaimOf_of_claim {s : State} {p : Pos} {h : Handset} {c : Claim} (hc : (s.pos p).claim.of h = c) :
    s.freeClaimOf p h c = s.freeClaim p h := if_pos hc

theorem State.freeClaimOf_of_other {s : State} {p : Pos} {h : Handset} {c : Claim} (hc : (s.pos p).claim.of h ≠ c) :
    s.freeClaimOf p h c = s := if_neg hc

/-- Settles O15: by the message and by whether the claim is still the one that it speaks of. -/
theorem ownersSettleTheClaim : Obligations.OwnersSettleTheClaim := by
  intro s t o p h v c code
  refine ⟨fun e hc => ?accepted, fun e hc => ?returned, fun e hc => ?refused, fun e hc => ?released, fun e hc => ?other⟩
  all_goals simp only [← State.heardOfHandset_pos e p] at hc ⊢
  case accepted => simp only [exec_finalClaim_of_heard e, State.takeOutcome, hc, if_true, State.reply]
  case returned => simp only [exec_finalClaim_of_heard e, State.takeOutcome, hc, if_false, State.reply]
  case refused => rw [exec_finalClaim_of_heard e, State.takeOutcome, State.freeClaimOf_of_claim hc]; rfl
  case released => rw [exec_releaseNotice_of_heard e, State.freeClaimOf_of_claim hc]; rfl
  case other => rw [exec_releaseNotice_of_heard e, State.freeClaimOf_of_other hc]

end Sys2Proof.Machine
end

section
/-! RELEASE, HOLD and MUTE at PTB (R42, R44, R47). -/

namespace Sys2Proof.Machine

theorem exec_release_of_submits {s t : State} {r : Requester} {p : Pos} {b : List Byte} (hs : s.Submits r .release p b t) :
    exec (.release r) s = .next (t.ptbRelease p (requesterVia r) b) :=
  congrArg Host.Outcome.next (State.request_of_sends hs _)

theorem exec_hold_of_submits {s t : State} {r : Requester} {p : Pos} {b : List Byte} (hs : s.Submits r .hold p b t) :
    exec (.hold r) s = .next (t.ptbHold p (requesterVia r) b) :=
  congrArg Host.Outcome.next (State.request_of_sends hs _)

theorem exec_mute_of_submits {s t : State} {n : Port} {p : Pos} {b : List Byte} (hs : s.Submits (.port n) .mute p b t) :
    exec (.mute n) s = .next (t.ptbMute p (requesterVia (.port n)) b) :=
  congrArg Host.Outcome.next (State.request_of_sends hs _)

theorem State.ptbMute_bad {b : List Byte} (hb : handsetOf (byteAt b 0) = none ∨ onOffOf (byteAt b 1) = none) (s : State) (p : Pos)
    (v : Via) : s.ptbMute p v b = s.reply p v .badValue := by
  rcases hb with hb | hb <;> simp [State.ptbMute, hb]

/-- A notice that goes out unless something holds. -/
theorem State.emit_unless (s : State) (c : Prop) [Decidable c] (q : Subject) :
    (if c then s else s.emit (notice q)) = s.emit { notices := if c then [] else [q] } := by
  split
  · exact (State.emit_nothing s).symm
  · rfl

/-- Settles O16: by the operands, and then by the claim of the handset. -/
theorem releaseHoldAndMuteReadTheClaim : Obligations.ReleaseHoldAndMuteReadTheClaim := by
  refine ⟨fun s t r p b => ⟨fun hh => ⟨fun hs => ?badRelease, fun hs => ?badHold⟩, fun n hs hb => ?badMute⟩,
    fun s t r p h b hh => ⟨fun hs => ?release, fun hs => ?hold, fun n on hs hon => ?mute⟩⟩
  case badRelease => simp only [exec_release_of_submits hs, State.ptbRelease, hh, State.reply_of_sends hs]
  case badHold => simp only [exec_hold_of_submits hs, State.ptbHold, hh, State.reply_of_sends hs]
  case badMute => rw [exec_mute_of_submits hs, State.ptbMute_bad hb, State.reply_of_sends hs]
  case release =>
    rw [exec_release_of_submits hs, ← State.pos_of_submits hs]
    cases hc : (t.pos p).claim.of h <;> simp only [State.ptbRelease, hh, hc, State.reply_of_sends hs]
  case hold =>
    rw [exec_hold_of_submits hs, ← State.pos_of_submits hs]
    cases hc : (t.pos p).claim.of h <;> simp only [State.ptbHold, hh, hc, State.reply_of_sends hs]
  case mute =>
    rw [exec_mute_of_submits hs, ← State.pos_of_submits hs, ← State.emit_unless]
    cases hc : (t.pos p).claim.of h <;> simp only [State.ptbMute, hh, hon, hc, State.reply_of_sends hs]

end Sys2Proof.Machine
end

section
/-! SET_VOLUME and POSITION_CONFIG (R33, R34). -/

namespace Sys2Proof.Machine

theorem posOf_mgmt : posOf mgmt = none := rfl

theorem exec_setVolume_of_submits {s t : State} {r : Requester} {p : Pos} {b : List Byte} (hs : s.Submits r .setVolume p b t) :
    exec (.setVolume r) s = .next (t.setVolume r (some p) b) := by
  cases r with
  | port n =>
    obtain ⟨hp, f, hf, rfl, rfl⟩ := hs
    have hn : n ≠ mgmt := by
      rintro rfl
      simp [posOf_mgmt] at hp
    refine congrArg Host.Outcome.next ((State.dispatch_of_offers hf _).trans ?_)
    rw [if_neg hn, hp]
  | run q =>
    obtain ⟨rfl, o, ho, rfl, rfl⟩ := hs
    change execSetVolume (.run q) s = _
    simp [execSetVolume, State.takeStep, ho]

theorem exec_setVolume_of_manager {s : State} {f : Frame} (hf : s.Offers mgmt .setVolume f) :
    exec (.setVolume (.port mgmt)) s =
      .next ((s.takeFrame mgmt f).setVolume (.port mgmt) (numOf 16 (byteAt f.body 2)) f.body) :=
  congrArg Host.Outcome.next (State.dispatch_of_offers hf _)

theorem State.setVolume_of_speaker {b : List Byte} {k : Spk} (hk : speakerOf (byteAt b 0) = some k) (s : State) (r : Requester)
    (p : Pos) :
    s.setVolume r (some p) b = ((s.setPos p { s.pos p with volume := (s.pos p).volume.put k (byteAt b 1).toFin }).emit
      { notices := [.leg (speakerLeg p k)] }).answer r .accepted := by
  simp only [State.setVolume, hk, levelOf, notice]

theorem State.setVolume_bad {b : List Byte} {p : Option Pos} (hb : p = none ∨ speakerOf (byteAt b 0) = none) (s : State)
    (r : Requester) : s.setVolume r p b = s.answer r .badValue := by
  rcases hb with rfl | hb
  · rfl
  · simp [State.setVolume, hb]

theorem exec_positionConfig_of_offers {s : State} {n : Port} {f : Frame} (hf : s.Offers n .positionConfig f) :
    exec (.positionConfig n) s = .next (match numOf 16 (byteAt f.body 0), settingsOf f.body with
      | some p, some v =>
        (((s.takeFrame n f).setPos p { s.pos p with settings := v }).emit (notice (.position p))).answer (.port n) .accepted
      | _, _ => (s.takeFrame n f).answer (.port n) .badValue) :=
  congrArg Host.Outcome.next (State.dispatch_of_offers hf _)

/-- Settles O21: by the sender, and by whether the operands are in their ranges. -/
theorem volumesAndSettings : Obligations.VolumesAndSettings := by
  refine ⟨fun s t r p b k hs hk => ?volume, fun s t r p b hs hk => ?badVolume, fun s f hf hb => ?badManager,
    fun s f p k hf hk hp => ?manager, fun s n f hf => ⟨fun p k lv hp hk hl => ?config, fun hb => ?badConfig⟩⟩
  case volume => rw [exec_setVolume_of_submits hs, State.setVolume_of_speaker hk, State.pos_of_submits hs]
  case badVolume => rw [exec_setVolume_of_submits hs, State.setVolume_bad (.inr hk)]
  case badManager => rw [exec_setVolume_of_manager hf, State.setVolume_bad hb.symm]
  case manager =>
    rw [exec_setVolume_of_manager hf, hp, State.setVolume_of_speaker hk]
    rfl
  case config => simp only [exec_positionConfig_of_offers hf, settingsOf, hp, hk, hl, levelOf, flagOf, notice]
  case badConfig =>
    rw [exec_positionConfig_of_offers hf]
    rcases hb with hb | hb | hb <;> simp [settingsOf, hb]

end Sys2Proof.Machine
end

section
/-! QUERY_LINE and QUERY_POSITION (R54, R55). -/

namespace Sys2Proof.Machine

/-! ### QUERY_LINE -/

theorem numOf_of_out_of_range {n : Nat} {b : Byte} (h : n ≤ b.toNat) : numOf n b = none := dif_neg (by omega)

theorem exec_queryLine_bad {s : State} {n : Port} {f : Frame} (hf : s.Offers n .queryLine f)
    (hl : numOf 64 (byteAt f.body 0) = none) :
    exec (.queryLine n) s = .next ((s.takeFrame n f).answer (.port n) .badValue) := by
  refine congrArg Host.Outcome.next ((State.dispatch_of_offers hf _).trans ?_)
  rw [hl]

theorem exec_queryLine_of_manager {s : State} {f : Frame} {l : Line} (hf : s.Offers mgmt .queryLine f)
    (hl : numOf 64 (byteAt f.body 0) = some l) :
    exec (.queryLine mgmt) s = .next ((s.takeFrame mgmt f).answer (.port mgmt) .accepted
      (lineBody (s.line l) ++ lineManagerBody (s.line l))) := by
  refine congrArg Host.Outcome.next ((State.dispatch_of_offers hf _).trans ?_)
  rw [hl]
  rfl

theorem exec_queryLine_of_position {s : State} {n : Port} {f : Frame} {l : Line} {p : Pos} (hf : s.Offers n .queryLine f)
    (hl : numOf 64 (byteAt f.body 0) = some l) (hp : posOf n = some p) :
    exec (.queryLine n) s = .next (
      if ((s.row l).look p).mode = .none then (s.takeFrame n f).answer (.port n) .notPermitted
      else (s.takeFrame n f).answer (.port n) .accepted
        (lineBody (s.line l) ++ [((s.row l).look p).mode.byte, onByte ((s.row l).look p).barred])) := by
  refine congrArg Host.Outcome.next ((State.dispatch_of_offers hf _).trans ?_)
  rw [hl, hp]
  rfl

/-! ### QUERY_POSITION -/

theorem exec_queryPosition_bad {s : State} {n : Port} {f : Frame} (hf : s.Offers n .queryPosition f)
    (hp : numOf 16 (byteAt f.body 0) = none) :
    exec (.queryPosition n) s = .next ((s.takeFrame n f).answer (.port n) .badValue) := by
  refine congrArg Host.Outcome.next ((State.dispatch_of_offers hf _).trans ?_)
  rw [hp]

theorem exec_queryPosition_of_position {s : State} {n : Port} {f : Frame} {p : Pos} (hf : s.Offers n .queryPosition f)
    (hp : numOf 16 (byteAt f.body 0) = some p) :
    exec (.queryPosition n) s = .next (
      if 2 ≤ (byteAt f.body 1).toNat then (s.takeFrame n f).answer (.port n) .badValue
      else if n ≠ mgmt ∧ n ≠ portOf p then (s.takeFrame n f).answer (.port n) .notPermitted
      else if byteAt f.body 1 = 0 then (s.takeFrame n f).answer (.port n) .accepted (positionBody (s.pos p))
      else (s.takeFrame n f).answer (.port n) .accepted (s.appearancesBody p)) := by
  refine congrArg Host.Outcome.next ((State.dispatch_of_offers hf _).trans ?_)
  rw [hp]
  rfl

theorem positionBody_eq {r : PosRec} {claim : Claim → List Byte} {speaker : Target → List Byte} (hc : Claim.bytes = claim)
    (ht : Target.bytes = speaker) :
    positionBody r = [onByte r.up] ++ claim r.claim.a ++ [onByte r.mute.a] ++ claim r.claim.b ++ [onByte r.mute.b]
      ++ (List.finRange 6).flatMap (fun k => speaker (r.assign.look k) ++ [byteOf (r.volume.look k).val])
      ++ [byteOf (r.settings.alertSpeaker.val + 1), byteOf r.settings.sidetone.val, byteOf r.settings.handsetDuck.val,
          byteOf r.settings.talkingDuck.val, byteOf r.settings.alertLevel.val, byteOf r.settings.attentionLevel.val,
          byteOf r.settings.floorLevel.val, onByte r.settings.fair, onByte r.settings.vox] := by
  subst hc ht
  rfl

/-- Settles O22: by the number, the part and the port that asks. -/
theorem queriesOfLinesAndPositions : Obligations.QueriesOfLinesAndPositions := by
  refine ⟨?line, fun s n f => ⟨fun hf hl => ?badLine, fun hf hp => ?badPosition⟩, ?position⟩
  case badLine => exact exec_queryLine_bad hf (numOf_of_out_of_range hl)
  case badPosition => exact exec_queryPosition_bad hf (numOf_of_out_of_range hp)
  case line =>
    rintro s n f l r hf hl rfl
    refine ⟨fun p hp hm => ?_, fun p hp hm => ?_, ?_⟩
    · rw [exec_queryLine_of_position hf hl hp, if_pos hm]
    · rw [exec_queryLine_of_position hf hl hp, if_neg hm]
      rfl
    · rintro rfl
      exact exec_queryLine_of_manager hf hl
  case position =>
    rintro s n f p r claim speaker bits hf hp rfl hclaim hspeaker hbits
    have hc : Claim.bytes = claim := by
      rw [hclaim]
      funext c
      cases c <;> rfl
    have ht : Target.bytes = speaker := by
      rw [hspeaker]
      funext t
      cases t <;> rfl
    have hb (l : Line) : appearanceBits ((s.row l).look p) = bits l := by
      rw [hbits]
      rcases hm : ((s.row l).look p).mode <;> simp [appearanceBits, hm, AppMode.byte]
    refine ⟨fun hpart hn hq => ?_, fun hpart hn => ?_, fun hpart hn => ?_, fun hpart => ?_⟩
    · rw [exec_queryPosition_of_position hf hp, if_neg (by rcases hpart with h | h <;> simp [h]), if_pos ⟨hn, hq⟩]
    · rw [exec_queryPosition_of_position hf hp, if_neg (by simp [hpart]), if_neg (by tauto), if_pos hpart, positionBody_eq hc ht]
    · rw [exec_queryPosition_of_position hf hp, if_neg (by simp [hpart]), if_neg (by tauto), if_neg (by simp [hpart])]
      simp only [State.appearancesBody, hb]
    · rw [exec_queryPosition_of_position hf hp, if_pos hpart]

end Sys2Proof.Machine
end

section
/-! The standing of a port (R52, R155, R160, R161, R166, R168, R173). -/

namespace Sys2Proof.Machine

theorem posOf_portOf (p : Pos) : posOf (portOf p) = some p := dif_pos p.isLt

theorem portOf_ne_mgmt (p : Pos) : portOf p ≠ mgmt := fun h => by simpa [h, posOf_mgmt] using posOf_portOf p

theorem takeFirst_eq_none_of_not_mem {α : Type} [DecidableEq α] {a : α} {l : List α} (h : a ∉ l) : takeFirst (· == a) l = none :=
  takeFirst_eq_none.mpr fun b hb => by
    have hne : b ≠ a := fun e => h (e ▸ hb)
    simpa using hne

/-! ### Down -/

theorem exec_linkLossTimerExpiry_of_ran {s : State} {n : Port} (h : (s.port n).lossTimer = some 0) :
    exec (.linkLossTimerExpiry n) s = .next (s.portDown n) := if_pos (by simp [h, Timer.ran])

theorem exec_linkLossTimerExpiry_of_running {s : State} {n : Port} (h : (s.port n).lossTimer ≠ some 0) :
    exec (.linkLossTimerExpiry n) s = .next s := if_neg (by simpa [Timer.ran] using h)

theorem State.portDown_of_position (s : State) (p : Pos) :
    s.portDown (portOf p) = ((s.setPort (portOf p) (s.port (portOf p)).down).setChan { s.chan with
      downPtb := s.chan.downPtb ++ [p], downLcu := s.chan.downLcu ++ [p], downGfu := s.chan.downGfu ++ [p]
      downSqu := s.chan.downSqu ++ [p], downEvu := s.chan.downEvu ++ [portOf p] }).emit
        { given := [⟨.lki, mgmt, .positionDown p⟩] } := by
  simp only [State.portDown, posOf_portOf]
  rfl

/-! ### Up -/

theorem exec_linkUpTimerExpiry_of_ran {s : State} {n : Port} (h : (s.port n).upTimer = some 0) :
    exec (.linkUpTimerExpiry n) s = .next (s.portUp n) := if_pos (by simp [h, Timer.ran])

theorem exec_linkUpTimerExpiry_of_running {s : State} {n : Port} (h : (s.port n).upTimer ≠ some 0) :
    exec (.linkUpTimerExpiry n) s = .next s := if_neg (by simpa [Timer.ran] using h)

/-- No down notice waits at EVU or PTB. -/
theorem State.evuDown_of_not_waiting {s : State} {n : Port} (h : n ∉ s.chan.downEvu) : s.evuDown n = s := by
  rw [State.evuDown, takeFirst_eq_none_of_not_mem h]

theorem State.ptbCatchUp_of_not_waiting {s : State} {p : Pos} (h : p ∉ s.chan.downPtb) : s.ptbCatchUp p = s := by
  rw [State.ptbCatchUp, takeFirst_eq_none_of_not_mem h]

theorem State.portUp_of_manager {s : State} (h : mgmt ∉ s.chan.downEvu) :
    s.portUp mgmt = (s.setPort mgmt { s.port mgmt with up := true, upTimer := none }).setEvents mgmt
      { s.events mgmt with up := true } := by
  rw [State.portUp, State.evuDown_of_not_waiting (by exact h)]
  rfl

theorem State.portUp_of_position {s : State} {p : Pos} (he : portOf p ∉ s.chan.downEvu) (hp : p ∉ s.chan.downPtb) :
    s.portUp (portOf p) =
      (((s.setPort (portOf p) { s.port (portOf p) with up := true, upTimer := none }).setEvents (portOf p)
        { s.events (portOf p) with up := true, queue := (s.events (portOf p)).queue ++ [.linkUp (portOf p)] }).setPos p
        { s.pos p with up := true }).setChan { s.chan with
          notices := s.chan.notices ++ [.position p], ups := s.chan.ups ++ [p]
          given := s.chan.given ++ [⟨.lki, mgmt, .positionUp p⟩] } := by
  rw [State.portUp, State.evuDown_of_not_waiting (by exact he)]
  simp only [posOf_portOf]
  rw [State.ptbCatchUp_of_not_waiting (by exact hp)]
  simp [State.ptbUp, EventPort.raised, portOf_ne_mgmt, State.emit, Chan.add, notice, record, State.setChan]

/-- Settles O49: by the timer, and by whether the port is a position's or the manager's. -/
theorem portsGoDownAndUp : Obligations.PortsGoDownAndUp := by
  rintro s n r rfl
  refine ⟨?down, fun hran he => ⟨?up, ?upManager⟩, exec_linkLossTimerExpiry_of_running, exec_linkUpTimerExpiry_of_running⟩
  case down =>
    rintro t hran rfl
    refine ⟨?_, ?_⟩
    · rintro p rfl
      rw [exec_linkLossTimerExpiry_of_ran hran, State.portDown_of_position]
      rfl
    · rintro rfl
      rw [exec_linkLossTimerExpiry_of_ran hran]
      rfl
  case up =>
    rintro p rfl hp
    rw [exec_linkUpTimerExpiry_of_ran hran, State.portUp_of_position he hp]
  case upManager =>
    rintro rfl
    rw [exec_linkUpTimerExpiry_of_ran hran, State.portUp_of_manager he]

end Sys2Proof.Machine
end

section
/-! Speakers: the owner's answer, PTB's taking of it and of a removal (R37, R59, R64 to R66, R175). -/

namespace Sys2Proof.Machine

/-! ### The owner's answer (R64) -/

theorem exec_speakerQuestion_of_next {s t : State} {o : Owner} {p : Pos} {k : Spk} {x : Target}
    (e : s.nextForSpeaker o p k = some (.speaker p k x, t)) : exec (.speakerQuestion o p k) s = .next (t.answerSpeaker p k x) := by
  change execSpeakerQuestion o p k s = _
  simp only [execSpeakerQuestion, e]

/-- A question taken moves its path alone. -/
theorem State.nextForSpeaker_eq {s t : State} {o : Owner} {p : Pos} {k : Spk} {m : ToOwner}
    (e : s.nextForSpeaker o p k = some (m, t)) : ∃ rest, t = s.setToOwner o rest := by
  obtain ⟨-, front, back, -, ht, -⟩ := State.nextForSpeaker_some e
  exact ⟨front ++ back, ht⟩

/-- The mark of an answer, as the soft reset stands (R175, notes/assumptions/52.md). -/
theorem State.behindPtb_eq {s t : State} {o : Owner} {early : Bool} (hl : t.lki = s.lki)
    (h : early = true ↔ ∃ q, s.lki.softReset = some q ∧ q.ptb = true ∧ q.takenBy o = false) : t.behindPtb o = early := by
  rw [Bool.eq_iff_iff, State.behindPtb_iff, hl, h]

/-! ### PTB takes the answer (R65) -/

/-- A message taken from an owner leaves the positions as they were. -/
theorem State.heardOfSpeakers_pos {s t : State} {o : Owner} {p : Pos} {m : ToPtb} (e : s.heardOfSpeakers o p = some (m, t))
    (q : Pos) : t.pos q = s.pos q := by
  obtain ⟨-, front, back, -, rfl, -⟩ := State.heardOfSpeakers_some e
  rw [State.pos, State.setFromOwner_ptb, State.pos]

theorem exec_assignmentAnswer_of_heard {s t : State} {o : Owner} {p : Pos} {k : Spk} {x : Target} {refusal : Option Code}
    {early : Bool} (e : s.heardOfSpeakers o p = some (.answer p k x refusal early, t)) :
    exec (.assignmentAnswer o p) s = .next (t.takeAnswer p k x refusal early) := by
  change execAssignmentAnswer o p s = _
  simp only [execAssignmentAnswer, e]

section
variable {s : State} {p : Pos} {k : Spk} {m : Asking} (hm : (s.pos p).asking.look k = some m)
include hm

theorem State.takeAnswer_refused (x : Target) (c : Code) (early : Bool) :
    s.takeAnswer p k x (some c) early = (s.setAsking p k none).reply p m.via c := by
  rw [State.takeAnswer, hm]

theorem State.takeAnswer_of_down (x : Target) (early : Bool) (hd : m.sawDown = true ∨ (s.pos p).up = false) :
    s.takeAnswer p k x none early = (s.setAsking p k none).reply p m.via .notPermitted := by
  simp only [State.takeAnswer, hm]
  exact if_pos (by simpa using hd)

theorem State.takeAnswer_of_reset (x : Target) {early : Bool} (hd : m.sawDown = false) (hu : (s.pos p).up = true)
    (hr : m.sawReset = true ∨ early = true) :
    s.takeAnswer p k x none early = (s.setAsking p k none).reply p m.via (resetRefusal x) := by
  have hr' : (m.sawReset || early) = true := by simpa using hr
  simp [State.takeAnswer, hm, hd, hu, hr']

theorem State.takeAnswer_granted (x : Target) (hd : m.sawDown = false) (hu : (s.pos p).up = true) (hr : m.sawReset = false) :
    s.takeAnswer p k x none false = ((s.setAsking p k none).assignTo p k x).reply p m.via .accepted := by
  simp [State.takeAnswer, hm, hd, hu, hr]

end

theorem State.setPos_setPos (s : State) (p : Pos) (a b : PosRec) : (s.setPos p a).setPos p b = s.setPos p b := by
  simp only [State.setPos, Table.put_put]

/-- The waiting mark goes OFF and the assignment is made, in one (R65, R66). -/
theorem State.assignTo_setAsking (s : State) (p : Pos) (k : Spk) (m : Option Asking) (x : Target) :
    (s.setAsking p k m).assignTo p k x =
      (s.setPos p { s.pos p with asking := (s.pos p).asking.put k m, assign := (s.pos p).assign.put k x }).emit
        { notices := [.leg (speakerLeg p k)]
          listening := listeningNotices p (s.pos p).assign ((s.pos p).assign.put k x) false } := by
  simp [State.assignTo, State.setAssign, State.setAsking, State.setPos_setPos, State.emit_emit, Sends.and, notice]

/-! ### PTB takes a removal (R37, R59) -/

theorem exec_removalNotice_of_heard {s t : State} {o : Owner} {p : Pos} {x : Target}
    (e : s.heardOfSpeakers o p = some (.remove p x, t)) : exec (.removalNotice o p) s = .next (t.offTarget p x) := by
  change execRemovalNotice o p s = _
  simp only [execRemovalNotice, e]

/-- What PTB sends for the speakers that it removes, speaker by speaker. -/
theorem Sends.all_removed (p : Pos) (hits : List Spk) (e : Spk → Event) :
    Sends.all (hits.map fun k => { given := [⟨.ptb, portOf p, e k⟩], notices := [.leg (speakerLeg p k)] }) =
      { given := hits.map fun k => ⟨.ptb, portOf p, e k⟩, notices := hits.map fun k => .leg (speakerLeg p k) } := by
  induction hits with
  | nil => rfl
  | cons k ks ih => simp [ih, Sends.and]

theorem State.offTarget_of_events {x : Target} {e : Spk → Event} (hx : x ≠ .none) (he : ∀ k, speakerRemoved k x = [e k]) (s : State)
    (p : Pos) :
    s.offTarget p x =
      (s.setPos p { s.pos p with
        assign := Table.build fun k => if (s.pos p).assign.look k = x then .none else (s.pos p).assign.look k }).emit
        { given := ((List.finRange 6).filter fun k => decide ((s.pos p).assign.look k = x)).map fun k => ⟨.ptb, portOf p, e k⟩
          notices := ((List.finRange 6).filter fun k => decide ((s.pos p).assign.look k = x)).map fun k => .leg (speakerLeg p k)
          listening := listeningNotices p (s.pos p).assign
            (Table.build fun k => if (s.pos p).assign.look k = x then .none else (s.pos p).assign.look k) false } := by
  simp only [State.offTarget, if_neg hx, State.setAssign, he, List.map_cons, List.map_nil, Sends.all_removed, State.emit_emit]
  simp [Sends.and]

/-- Settles O20: the answers by their checks, and a removal by its target. -/
theorem speakersFollowTheirOwners : Obligations.SpeakersFollowTheirOwners := by
  refine ⟨fun s t o p k => ⟨?line, ?group, ?taken⟩, ?removed⟩
  case line =>
    rintro l r a early e rfl rfl hearly
    obtain ⟨rest, rfl⟩ := State.nextForSpeaker_eq e
    rw [exec_speakerQuestion_of_next e, State.answerSpeaker, State.behindPtb_eq (by simp) hearly]
    simp [lineTargetCheck]
  case group =>
    intro g early e hearly
    obtain ⟨rest, rfl⟩ := State.nextForSpeaker_eq e
    rw [exec_speakerQuestion_of_next e, State.answerSpeaker, State.behindPtb_eq (by simp) hearly]
    simp [groupTargetCheck]
  case taken =>
    rintro x refusal early m u e hm rfl
    rw [exec_assignmentAnswer_of_heard e]
    simp only [← State.heardOfSpeakers_pos e p] at hm ⊢
    refine ⟨?_, ?_, ?_, ?_⟩
    · rintro c rfl
      exact congrArg _ (State.takeAnswer_refused hm ..)
    · rintro rfl hd
      exact congrArg _ (State.takeAnswer_of_down hm x early hd)
    · rintro rfl hd hu hr
      rw [State.takeAnswer_of_reset hm x hd hu hr]
      refine ⟨?_, ?_⟩
      · rintro l rfl
        rfl
      · rintro g rfl
        rfl
    · rintro rfl hd hu hr rfl
      rw [State.takeAnswer_granted hm x hd hu hr, State.assignTo_setAsking, State.reply]
  case removed =>
    rintro s t o p x new hits e rfl rfl
    rw [exec_removalNotice_of_heard e]
    simp only [← State.heardOfSpeakers_pos e p]
    refine ⟨?_, ?_⟩
    · rintro l rfl
      exact congrArg _ (State.offTarget_of_events (by simp) (fun _ => rfl) t p)
    · rintro g rfl
      exact congrArg _ (State.offTarget_of_events (by simp) (fun _ => rfl) t p)

end Sys2Proof.Machine
end

section
/-! Intercom calls (R67 to R74). -/

namespace Sys2Proof.Machine

/-! ### Which record, and whether GFU still holds the handset (R35, R68) -/

theorem State.freeCall_eq_some {s : State} {c : CallNo} (hc : s.call c = .free) (hlow : ∀ d, d < c → s.call d ≠ .free) :
    s.freeCall = some c := by
  rw [State.freeCall, ← Fin.find?_eq_find?_finRange, Fin.find?_eq_some_iff]
  exact ⟨by simpa using hc, fun d hd => by simpa using hlow d hd⟩

theorem State.freeCall_eq_none {s : State} (h : ∀ c, s.call c ≠ .free) : s.freeCall = none := by
  rw [State.freeCall, List.find?_eq_none]
  exact fun c _ => by simpa using h c

theorem State.freeCall_isSome {s : State} (h : ∃ c, s.call c = .free) : ∃ c, s.freeCall = some c := by
  obtain ⟨c, hc⟩ := h
  exact Option.isSome_iff_exists.mp (List.find?_isSome.mpr ⟨c, List.mem_finRange c, by simpa using hc⟩)

theorem State.gfuHolds_eq_busy {s : State} {p : Pos} {h : Handset}
    (hh : (∃ k, (p, h) ∈ (s.group k).joined) ∨ ∃ c, (s.call c).holds p h = true) : s.gfuHolds p h = some .handsetBusy :=
  if_pos (by simpa using hh)

theorem State.gfuHolds_eq_none {s : State} {p : Pos} {h : Handset} (hj : ∀ k, (p, h) ∉ (s.group k).joined)
    (hc : ∀ c, (s.call c).holds p h = false) : s.gfuHolds p h = none :=
  if_neg (by simpa using ⟨hj, hc⟩)

/-! ### The checks of a CALL_POSITION (R68) -/

theorem State.callCheck_bad {callee : Byte} {p : Pos} (hq : numOf 16 callee = none ∨ numOf 16 callee = some p) (s : State)
    (h : Handset) : s.callCheck p h callee = .inl .badValue := by
  rcases hq with hq | hq <;> simp [State.callCheck, hq]

/-- The checks of a caller and a callee that the operands name, in their order. -/
theorem State.callCheck_of_callee {callee : Byte} {p q : Pos} (hq : numOf 16 callee = some q) (hp : q ≠ p) (s : State)
    (h : Handset) :
    s.callCheck p h callee =
      if s.gfu.up.look q = false then .inl .calleeDown
      else if ∃ c, (s.call c).alerts q = true then .inl .calleeBusy
      else (s.freeCall.elim (.inl .noResource) fun c =>
        if s.gfu.up.look p = false then .inl .handsetBusy
        else (s.gfuHolds p h).elim (.inr (q, c)) .inl) := by
  simp only [State.callCheck, hq, if_neg hp, List.any_eq_true, List.mem_finRange, true_and]
  cases s.freeCall <;> cases s.gfuHolds p h <;> rfl

theorem State.callCheck_calleeDown {callee : Byte} {s : State} {p q : Pos} (hq : numOf 16 callee = some q) (hp : q ≠ p)
    (h : Handset) (hu : s.gfu.up.look q = false) : s.callCheck p h callee = .inl .calleeDown := by
  rw [State.callCheck_of_callee hq hp, if_pos hu]

section
variable {callee : Byte} {s : State} {p q : Pos} {h : Handset} (hq : numOf 16 callee = some q) (hp : q ≠ p)
  (hu : s.gfu.up.look q = true)
include hq hp hu

theorem State.callCheck_calleeBusy (ha : ∃ c, (s.call c).alerts q = true) : s.callCheck p h callee = .inl .calleeBusy := by
  rw [State.callCheck_of_callee hq hp, if_neg (by simp [hu]), if_pos ha]

theorem State.callCheck_of_idle_callee (ha : ∀ c, (s.call c).alerts q = false) :
    s.callCheck p h callee = s.freeCall.elim (.inl .noResource) fun c =>
      if s.gfu.up.look p = false then .inl .handsetBusy else (s.gfuHolds p h).elim (.inr (q, c)) .inl := by
  rw [State.callCheck_of_callee hq hp, if_neg (by simp [hu]), if_neg (by simp [ha])]

theorem State.callCheck_noResource (ha : ∀ c, (s.call c).alerts q = false) (hc : ∀ c, s.call c ≠ .free) :
    s.callCheck p h callee = .inl .noResource := by
  rw [State.callCheck_of_idle_callee hq hp hu ha, State.freeCall_eq_none hc, Option.elim_none]

theorem State.callCheck_handsetBusy (ha : ∀ c, (s.call c).alerts q = false) (hc : ∃ c, s.call c = .free)
    (hb : s.gfu.up.look p = false ∨ (∃ k, (p, h) ∈ (s.group k).joined) ∨ ∃ c, (s.call c).holds p h = true) :
    s.callCheck p h callee = .inl .handsetBusy := by
  obtain ⟨c, hf⟩ := State.freeCall_isSome hc
  rw [State.callCheck_of_idle_callee hq hp hu ha, hf, Option.elim_some]
  rcases hb with hb | hb
  · rw [if_pos hb]
  · rw [State.gfuHolds_eq_busy hb, Option.elim_some, ite_self]

theorem State.callCheck_ready {c : CallNo} (hup : s.gfu.up.look p = true) (ha : ∀ c, (s.call c).alerts q = false)
    (hc : s.call c = .free) (hlow : ∀ d, d < c → s.call d ≠ .free) (hj : ∀ k, (p, h) ∉ (s.group k).joined)
    (hh : ∀ c, (s.call c).holds p h = false) : s.callCheck p h callee = .inr (q, c) := by
  rw [State.callCheck_of_idle_callee hq hp hu ha, State.freeCall_eq_some hc hlow, Option.elim_some, if_neg (by simp [hup]),
    State.gfuHolds_eq_none hj hh, Option.elim_none]

end

/-! ### The commands -/

theorem exec_callPositionAtGfu_of_next {s t : State} {p : Pos} {h : Handset} {v : Via} {callee : Byte} {voice : Bool}
    (e : s.nextForHandset .gfu p h = some (.call p h v callee voice, t)) :
    exec (.callPositionAtGfu p h) s = .next (t.gfuCall p h v callee voice) := by
  change execCallPositionAtGfu p h s = _
  simp only [execCallPositionAtGfu, e]

theorem exec_answerCallAtGfu_of_next {s t : State} {p : Pos} {h : Handset} {v : Via} {c : CallNo}
    (e : s.nextForHandset .gfu p h = some (.answer p h v c, t)) :
    exec (.answerCallAtGfu p h) s = .next (t.gfuAnswer p h v c) := by
  change execAnswerCallAtGfu p h s = _
  simp only [execAnswerCallAtGfu, e]

theorem exec_declineCall_of_submits {s t : State} {n : Port} {p : Pos} {b : List Byte}
    (hs : s.Submits (.port n) .declineCall p b t) : exec (.declineCall n) s = .next (t.declineCall p .link b) :=
  congrArg Host.Outcome.next (State.request_of_sends hs _)

/-- A count of 0 is read as 1 (R67). -/
theorem atLeastOne_levelOf (b : Byte) : atLeastOne (levelOf b) = if b = 0 then 1 else b.toFin := by
  by_cases hb : b = 0
  · rw [if_pos hb, hb]
    rfl
  · have hne : levelOf b ≠ 0 := fun e => hb (BitVec.eq_of_toNat_eq (congrArg Fin.val e))
    rw [if_neg hb, atLeastOne, if_neg hne, levelOf]

/-- The state in which GFU takes a submitted request holds the same calls. -/
theorem State.call_of_submits {s t : State} {r : Requester} {k : ReqKind} {p : Pos} {body : List Byte}
    (h : s.Submits r k p body t) (c : CallNo) : t.call c = s.call c := by
  cases r with
  | port n =>
    obtain ⟨-, f, -, -, rfl⟩ := h
    rfl
  | run q =>
    obtain ⟨-, o, -, -, rfl⟩ := h
    rfl

/-! ### A refused call, and one set up (R68, R69) -/

theorem State.gfuCall_refused {s : State} {p : Pos} {h : Handset} {callee : Byte} {code : Code}
    (hc : s.callCheck p h callee = .inl code) (v : Via) (voice : Bool) :
    s.gfuCall p h v callee voice = s.emit { fromGfu := [.outcome p h v (.inr code)] } := by
  simp only [State.gfuCall, hc]

theorem State.gfuCall_ready {s : State} {p q : Pos} {h : Handset} {callee : Byte} {c : CallNo}
    (hc : s.callCheck p h callee = .inr (q, c)) (v : Via) (voice : Bool) :
    s.gfuCall p h v callee voice = (s.setCall c (.alerting p h q voice (some s.gfu.alertCount.val))).emit
      { given := [⟨.gfu, portOf q, .callAlert c p h voice⟩], notices := [.position p, .position q]
        fromGfu := [.outcome p h v (.inl (.call c))] } := by
  simp [State.gfuCall, hc, record, bothNotices, Sends.and, startTimer]

/-! ### An ALERTING call goes on (R70 to R72) -/

/-- A handset that answers, and one of a position that the call does not alert. -/
theorem State.gfuAnswer_of_callee {s : State} {c : CallNo} {q p : Pos} {k : Handset} {voice : Bool} {x : Timer}
    (hc : s.call c = .alerting q k p voice x) (h : Handset) (v : Via) :
    s.gfuAnswer p h v c = (s.gfuHolds p h).elim
      ((s.setCall c (.active q k p h voice)).emit
        { given := [⟨.gfu, portOf q, .callAnswered c p h⟩], notices := [.position q, .position p]
          fromGfu := [.outcome p h v (.inl (.call c))] })
      fun code => s.emit { fromGfu := [.outcome p h v (.inr code)] } := by
  cases hh : s.gfuHolds p h <;> simp [State.gfuAnswer, hc, hh, record, bothNotices, Sends.and]

theorem State.gfuAnswer_of_other {s : State} {c : CallNo} {p : Pos} (hc : (s.call c).alerts p = false) (h : Handset) (v : Via) :
    s.gfuAnswer p h v c = s.emit { fromGfu := [.outcome p h v (.inr .notConnected)] } := by
  cases hr : s.call c with
  | alerting q k callee voice x =>
    have hp : callee ≠ p := by simpa [hr, CallRec.alerts] using hc
    simp only [State.gfuAnswer, hr, if_neg hp]
  | free | active => simp only [State.gfuAnswer, hr]

theorem State.declineCall_of_callee {s : State} {c : CallNo} {q p : Pos} {k : Handset} {voice : Bool} {x : Timer} {b : List Byte}
    (hb : numOf 8 (byteAt b 0) = some c) (hc : s.call c = .alerting q k p voice x) (v : Via) :
    s.declineCall p v b = (((s.setCall c .free).emit
      { given := [⟨.gfu, portOf q, .callReleased c k .declined⟩], notices := [.position q, .position p]
        fromGfu := [.released q k (.call c)] })).reply p v .accepted := by
  simp [State.declineCall, hb, hc, State.endCall, callReleased, record, bothNotices, Sends.and]

theorem State.declineCall_of_other {s : State} {c : CallNo} {p : Pos} {b : List Byte} (hb : numOf 8 (byteAt b 0) = some c)
    (hc : (s.call c).alerts p = false) (v : Via) : s.declineCall p v b = s.reply p v .notConnected := by
  cases hr : s.call c with
  | alerting q k callee voice x =>
    have hp : callee ≠ p := by simpa [hr, CallRec.alerts] using hc
    simp only [State.declineCall, hb, hr, if_neg hp]
  | free | active => simp only [State.declineCall, hb, hr]

theorem State.declineCall_bad {b : List Byte} (hb : numOf 8 (byteAt b 0) = none) (s : State) (p : Pos) (v : Via) :
    s.declineCall p v b = s.reply p v .badValue := by
  simp only [State.declineCall, hb]

theorem exec_callAlertExpiry_of_ran {s : State} {c : CallNo} {q p : Pos} {k : Handset} {voice : Bool}
    (hc : s.call c = .alerting q k p voice (some 0)) :
    exec (.callAlertExpiry c) s = .next ((s.setCall c .free).emit
      { given := [⟨.gfu, portOf q, .callReleased c k .noAnswer⟩, ⟨.gfu, portOf p, .callWithdrawn c .noAnswer⟩]
        notices := [.position q, .position p], fromGfu := [.released q k (.call c)] }) := by
  change execCallAlertExpiry c s = _
  simp [execCallAlertExpiry, hc, State.endCall, callReleased, callWithdrawn, record, bothNotices, Sends.and]

/-- An expiry whose call does not alert, or alerts with time left (notes/assumptions/5.md). -/
theorem exec_callAlertExpiry_of_running {s : State} {c : CallNo}
    (hc : ∀ q k p voice, s.call c ≠ .alerting q k p voice (some 0)) : exec (.callAlertExpiry c) s = .next s := by
  change execCallAlertExpiry c s = _
  unfold execCallAlertExpiry
  split
  · next e => exact (hc _ _ _ _ e).elim
  · rfl

/-! ### A call ends (R73) -/

theorem State.leaveCall_of_caller {s : State} {c : CallNo} {p q : Pos} {h k : Handset} {voice : Bool}
    (hc : s.call c = .active p h q k voice) :
    s.leaveCall p h c = some ((s.setCall c .free).emit
      { given := [⟨.gfu, portOf q, .callReleased c k .callEnded⟩], fromGfu := [.released q k (.call c)]
        notices := [.position p, .position q] }) := by
  simp [State.leaveCall, hc, State.endCall, callReleased, record, bothNotices, Sends.and]

/-- Settles O28: each command by its checks and by the call record. -/
theorem callsAreSetUpAndEnded : Obligations.CallsAreSetUpAndEnded := by
  refine ⟨⟨fun s n f hf => ?config, fun s t p h v callee voice e => ?setUp⟩, fun s c q p k voice timer hc => ?alerting,
    fun s t c p h v n b => ?other, fun s t c p q h k voice v e hc _ hcl => ?ended⟩
  case config =>
    rw [← atLeastOne_levelOf]
    exact congrArg Host.Outcome.next (State.dispatch_of_offers hf _)
  case setUp =>
    obtain ⟨rest, rfl⟩ := State.nextForHandset_eq e
    rw [exec_callPositionAtGfu_of_next e]
    refine ⟨fun hq => ?_, fun q hq hp => ⟨fun hu => ?_, fun hu ha => ?_, fun hu ha hc => ?_, fun hu ha hc hb => ?_,
      fun c hu hup ha hc hlow hj hh => ?_⟩⟩
    · rw [State.gfuCall_refused (State.callCheck_bad hq ..)]
    · rw [State.gfuCall_refused (State.callCheck_calleeDown hq hp h (by simpa using hu))]
    · rw [State.gfuCall_refused (State.callCheck_calleeBusy hq hp (by simpa using hu) (by simpa using ha))]
    · rw [State.gfuCall_refused (State.callCheck_noResource hq hp (by simpa using hu) (by simpa using ha) (by simpa using hc))]
    · rw [State.gfuCall_refused
        (State.callCheck_handsetBusy hq hp (by simpa using hu) (by simpa using ha) (by simpa using hc) (by simpa using hb))]
    · rw [State.gfuCall_ready (State.callCheck_ready hq hp (by simpa using hu) (by simpa using hup) (by simpa using ha)
        (by simpa using hc) (by simpa using hlow) (by simpa using hj) (by simpa using hh))]
      simp
  case alerting =>
    refine ⟨fun t h v e hb => ?_, fun t h v e hj hh => ?_, fun t a h v ha e => ?_, fun t n b hs hb => ?_, fun hx => ?_, ?_⟩
    · obtain ⟨rest, rfl⟩ := State.nextForHandset_eq e
      rw [exec_answerCallAtGfu_of_next e, State.gfuAnswer_of_callee (by simpa using hc),
        State.gfuHolds_eq_busy (by simpa using hb), Option.elim_some]
    · obtain ⟨rest, rfl⟩ := State.nextForHandset_eq e
      rw [exec_answerCallAtGfu_of_next e, State.gfuAnswer_of_callee (by simpa using hc),
        State.gfuHolds_eq_none (by simpa using hj) (by simpa using hh), Option.elim_none]
    · obtain ⟨rest, rfl⟩ := State.nextForHandset_eq e
      rw [exec_answerCallAtGfu_of_next e, State.gfuAnswer_of_other (by simpa [hc, CallRec.alerts] using ha.symm)]
    · rw [exec_declineCall_of_submits hs, State.declineCall_of_callee hb ((State.call_of_submits hs c).trans hc)]
      exact congrArg _ (State.reply_of_sends hs ..)
    · refine exec_callAlertExpiry_of_running fun q' k' p' voice' e => hx ?_
      simp_all
    · rintro rfl
      exact exec_callAlertExpiry_of_ran hc
  case other =>
    refine ⟨fun hc e => ?_, fun hc hs hb => ?_, fun hs hb => ?_, fun hc => ?_⟩
    · obtain ⟨rest, rfl⟩ := State.nextForHandset_eq e
      rw [exec_answerCallAtGfu_of_next e, State.gfuAnswer_of_other (by simpa using hc)]
    · rw [exec_declineCall_of_submits hs, State.declineCall_of_other hb (by rwa [State.call_of_submits hs])]
      exact congrArg _ (State.reply_of_sends hs ..)
    · rw [exec_declineCall_of_submits hs, State.declineCall_bad hb]
      exact congrArg _ (State.reply_of_sends hs ..)
    · exact exec_callAlertExpiry_of_running fun q k p voice e => by simpa [e, CallRec.alerts] using hc p
  case ended =>
    obtain ⟨rest, rfl⟩ := State.nextForHandset_eq e
    exact exec_releaseAtOwner_of_left e hcl (State.leaveCall_of_caller (by simpa using hc)) rfl

end Sys2Proof.Machine
end

section
/-! What a request and a release do to a floor (R79 to R86). -/

namespace Sys2Proof.Machine

/-! ### The present grant ends, and the floor passes on (R80, R81, R84) -/

section PassOn
variable {f : Floor} {h : Holder} (hh : f.holder = some h) (arr : List (Pos × Event)) (why : Option LostReason)
  (mark : Pos → PosSet → PosSet) (limit : Level)
include hh

/-- A grant ends on a floor where nobody waits. -/
theorem FloorAct.endGrant_to_nobody (hw : f.wait = []) :
    (FloorAct.endGrant { floor := f, arrival := arr } why mark).grantRule limit =
      { floor := { f with holder := none, holdTimer := none, served := mark h.pos f.served }
        arrival := arr
        lost := why.toList.map fun r => (h.pos, r)
        touched := [h.pos] } := by
  simp [FloorAct.endGrant, hh, FloorAct.grantRule, hw, topWaiter]

/-- A grant ends, and the floor passes to the waiter that the grant rule picks. -/
theorem FloorAct.endGrant_to_picked {w : Waiter} {a b up stay : List Waiter} (hw : f.Picks w a b up stay) :
    (FloorAct.endGrant { floor := f, arrival := arr } why mark).grantRule limit =
      { floor := { f with
          holder := some ⟨w.pos, w.level, w.latched, false, w.origin⟩, wait := a ++ b ++ up, deferred := stay
          holdTimer := if limit = 0 then none else some limit.val
          served := up.foldl (fun m x => m.put x.pos false) (mark h.pos f.served) }
        arrival := arr
        lost := why.toList.map fun r => (h.pos, r)
        granted := [w.holds]
        moved := up
        touched := [h.pos, w.pos] } := by
  obtain ⟨⟨hwait, hne, hup⟩, hb, ha⟩ := hw
  have htop : topWaiter f.wait = some w := hwait ▸ topWaiter_of_picks hb ha
  have hrest : f.wait.filter (fun v => v.pos != w.pos) = a ++ b := hwait ▸ filter_pos_ne_of_split hne
  simp only [FloorAct.endGrant, hh, FloorAct.grantRule, htop, hrest, FloorAct.grant]
  rw [FloorAct.moveDeferred_eq (up := up) (stay := stay) hup]
  simp [Floor.movedUp, Waiter.holds]

end PassOn

/-! ### A request that has passed the checks of R78 -/

/-- Where a request joins, with the deferred one told from the waiting one by `late` (R83). -/
theorem FloorAct.joinQueue_eq {f : Floor} {w : Waiter} {late : Bool} {fair : Pos → Bool}
    (hl : late = true ↔ f.served.look w.pos = true ∧ fair w.pos = true ∧ ∃ v ∈ f.wait, v.level = w.level) (g : Grp) :
    FloorAct.joinQueue { floor := f } g fair w =
      { floor := if late then { f with deferred := f.deferred ++ [w] }
          else { f with wait := f.wait ++ [w], served := f.served.put w.pos false }
        arrival := [(w.pos, if late then .floorDeferred g w.level else .floorWait g w.level)] } := by
  have hcond : (f.served.look w.pos && fair w.pos && f.wait.any fun v => v.level == w.level) = late := by
    rw [Bool.eq_iff_iff, hl]
    simp [and_assoc]
  unfold FloorAct.joinQueue
  rw [hcond]
  cases late <;> rfl

section Decide
variable {f : Floor} (g : Grp) (limit : Level) (fair : Pos → Bool) (w : Waiter)

theorem FloorAct.decide_of_free (hf : f.holder = none) :
    FloorAct.decide { floor := f } g limit fair w =
      { floor := { f with
          holder := some w.holds, holdTimer := if limit = 0 then none else some limit.val, served := f.served.put w.pos false }
        granted := [w.holds]
        touched := [w.pos] } := by
  simp [FloorAct.decide, hf, FloorAct.direct, FloorAct.grant, unmark, Waiter.holds]

variable {h : Holder} (hf : f.holder = some h)
include hf

theorem FloorAct.decide_of_lower (hl : w.level = 3 ∧ h.level < 3 ∧ h.pinned = false) :
    FloorAct.decide { floor := f } g limit fair w =
      { floor := { f with
          holder := some w.holds, holdTimer := if limit = 0 then none else some limit.val
          served := (markFair fair h.pos f.served).put w.pos false }
        lost := [(h.pos, .preempted)]
        granted := [w.holds]
        touched := [h.pos, w.pos] } := by
  simp [FloorAct.decide, hf, hl, FloorAct.direct, FloorAct.endGrant, FloorAct.grant, unmark, Waiter.holds]

theorem FloorAct.decide_of_kept (hl : ¬(w.level = 3 ∧ h.level < 3 ∧ h.pinned = false)) (hk : h.latched = false ∨ h.pinned = true) :
    FloorAct.decide { floor := f } g limit fair w = FloorAct.joinQueue { floor := f } g fair w := by
  have hn : ¬(h.latched = true ∧ h.pinned = false) := by
    rintro ⟨ha, hb⟩
    simp [ha, hb] at hk
  simp only [FloorAct.decide, hf, if_neg hl, if_neg hn]

/-- A request at a LATCHED holder, whose floor passes on once the request has joined (R79 case 3). -/
theorem FloorAct.decide_of_latched (hl : ¬(w.level = 3 ∧ h.level < 3 ∧ h.pinned = false)) (ha : h.latched = true)
    (hn : h.pinned = false) {q : Floor} {e : Event} (hq : FloorAct.joinQueue { floor := f } g fair w =
      { floor := q, arrival := [(w.pos, e)] }) (hqh : q.holder = some h) {v : Waiter} {a b up stay : List Waiter}
    (hv : q.Picks v a b up stay) :
    FloorAct.decide { floor := f } g limit fair w =
      { floor := { q with
          holder := some ⟨v.pos, v.level, v.latched, false, v.origin⟩, wait := a ++ b ++ up, deferred := stay
          holdTimer := if limit = 0 then none else some limit.val
          served := up.foldl (fun m x => m.put x.pos false) (markFair fair h.pos q.served) }
        arrival := if v.pos = w.pos then [] else [(w.pos, e)]
        lost := [(h.pos, .handedOver)]
        granted := [v.holds]
        moved := up
        touched := [h.pos, v.pos] } := by
  have hpass := FloorAct.endGrant_to_picked hqh [(w.pos, e)] (some .handedOver) (markFair fair) limit hv
  have hdecide : FloorAct.decide { floor := f } g limit fair w = FloorAct.handOver { floor := f } g limit fair w := by
    simp only [FloorAct.decide, hf]
    exact (if_neg hl).trans (if_pos ⟨ha, hn⟩)
  rw [hdecide, FloorAct.handOver, hq, hpass]
  by_cases hp : v.pos = w.pos <;> simp [Floor.holderPos_mk, hp]

end Decide

/-! ### A release (R85, R90) -/

section Release
variable {f : Floor} {p : Pos} (limit : Level) (fair : Pos → Bool)

theorem FloorAct.release_of_holder_alone (hp : f.holderPos = some p) (hw : f.wait = []) :
    FloorAct.release { floor := f } limit fair p =
      { floor := { f with holder := none, holdTimer := none, served := markFair fair p f.served }, touched := [p] } := by
  obtain ⟨h, hh, rfl⟩ : ∃ h, f.holder = some h ∧ h.pos = p := by simpa [Floor.holderPos] using hp
  rw [FloorAct.release, if_pos hp]
  exact FloorAct.endGrant_to_nobody hh [] none (markFair fair) limit hw

theorem FloorAct.release_of_holder_picks {w : Waiter} {a b up stay : List Waiter} (hp : f.holderPos = some p)
    (hw : f.Picks w a b up stay) :
    FloorAct.release { floor := f } limit fair p =
      { floor := { f with
          holder := some ⟨w.pos, w.level, w.latched, false, w.origin⟩, wait := a ++ b ++ up, deferred := stay
          holdTimer := if limit = 0 then none else some limit.val
          served := up.foldl (fun m x => m.put x.pos false) (markFair fair p f.served) }
        granted := [w.holds]
        moved := up
        touched := [p, w.pos] } := by
  obtain ⟨h, hh, rfl⟩ : ∃ h, f.holder = some h ∧ h.pos = p := by simpa [Floor.holderPos] using hp
  rw [FloorAct.release, if_pos hp]
  exact FloorAct.endGrant_to_picked hh [] none (markFair fair) limit hw

/-- A waiter withdraws; behind the last entry of its level the deferred ones move up. -/
theorem FloorAct.release_of_queued {w : Waiter} {a b up stay : List Waiter} (hp : f.holderPos ≠ some p)
    (hw : f.Splits w a b up stay) (hpos : w.pos = p) (hd : ∀ x ∈ f.deferred, x.pos ≠ p) (ht : ∀ k ∈ f.talkers, k.pos ≠ p) :
    FloorAct.release { floor := f } limit fair p =
      { floor := { f with
          wait := a ++ b ++ up, deferred := stay, served := up.foldl (fun m x => m.put x.pos false) f.served }
        moved := up } := by
  subst hpos
  obtain ⟨hwait, hne, hup⟩ := hw
  have ht' : f.talkers.filter (fun k => k.pos != w.pos) = f.talkers := List.filter_eq_self.mpr (by simpa using ht)
  have hany : (f.talkers.any fun k => k.pos == w.pos) = false := by simpa using ht
  rw [FloorAct.release, if_neg hp, FloorAct.withdraw]
  simp only [hwait, filter_pos_eq_of_split hne, filter_pos_ne_of_split hne, filter_pos_ne_of_forall hd, ht', hany,
    List.foldl_cons, List.foldl_nil]
  rw [FloorAct.moveDeferred_eq (up := up) (stay := stay) hup]
  rfl

/-- A position with no entry in the wait queue. -/
theorem FloorAct.release_of_unqueued (hp : f.holderPos ≠ some p) (hw : ∀ w ∈ f.wait, w.pos ≠ p) :
    FloorAct.release { floor := f } limit fair p =
      { floor := { f with
          deferred := f.deferred.filter fun w => w.pos != p, talkers := f.talkers.filter fun k => k.pos != p }
        touched := if f.talkers.any fun k => k.pos == p then [p] else [] } := by
  simp [FloorAct.release, hp, FloorAct.withdraw, filter_pos_eq_of_forall hw, filter_pos_ne_of_forall hw]

end Release

/-! ### On the floor of a group -/

/-- One cause on the floor of a group whose record is at hand. -/
theorem State.actFloor_eq {s : State} {g : Grp} {r : GroupRec} (hg : s.group g = r) (act : FloorAct → FloorAct) :
    s.actFloor g act = (s.setGroup g { r with floor := (act { floor := r.floor }).floor }).emit
      ((act { floor := r.floor }).sends g r.listening r.floor) := by
  subst hg
  rfl

end Sys2Proof.Machine
end

section
/-! Activity reports: VOX requests and releases (R53, R89, R90). -/

namespace Sys2Proof.Machine

theorem exec_voxActiveReport_of_next {s : State} {p : Pos} {rest : List (Pos × Bool)}
    (h : takeFirst (fun r => r.1 == p) s.chan.vox = some ((p, true), rest)) :
    exec (.voxActiveReport p) s = .next ((s.setChan { s.chan with vox := rest }).voxActive p) := by
  change execVoxActiveReport p s = _
  simp only [execVoxActiveReport, State.nextVox, h, if_true]
  rfl

theorem exec_voxQuietReport_of_next {s : State} {p : Pos} {rest : List (Pos × Bool)}
    (h : takeFirst (fun r => r.1 == p) s.chan.vox = some ((p, false), rest)) :
    exec (.voxQuietReport p) s = .next ((s.setChan { s.chan with vox := rest }).voxQuiet p) := by
  change execVoxQuietReport p s = _
  simp only [execVoxQuietReport, State.nextVox, h, if_true]
  rfl

/-! ### The group that VOX requests (R89) -/

theorem State.voxGroup_eq_none {s : State} {p : Pos}
    (h : ∀ k g, (s.pos p).assign.look k = .group g → (s.group g).kind ≠ .hoot) : s.voxGroup p = none := by
  rw [State.voxGroup, List.findSome?_eq_none_iff]
  intro k _
  cases hk : (s.pos p).assign.look k with
  | group g => exact if_neg (h k g hk)
  | none | line => rfl

/-- The lowest speaker that carries a HOOT group. -/
theorem State.voxGroup_eq_some {s : State} {p : Pos} {k : Spk} {g : Grp} (hk : (s.pos p).assign.look k = .group g)
    (hg : (s.group g).kind = .hoot)
    (hlow : ∀ i j, i < k → (s.pos p).assign.look i = .group j → (s.group j).kind ≠ .hoot) : s.voxGroup p = some g := by
  rw [State.voxGroup, ← Fin.findSome?_eq_findSome?_finRange, Fin.findSome?_eq_some_iff]
  refine ⟨k, by simp only [hk, if_pos hg], fun i hi => ?_⟩
  cases hj : (s.pos p).assign.look i with
  | group j => exact if_neg (hlow i j hi hj)
  | none | line => rfl

/-! ### A desk microphone that becomes active (R89) -/

/-- A report that has no effect on a floor. -/
theorem State.voxActive_idle {s : State} {p : Pos} (h : s.gfu.up.look p = false ∨ (s.pos p).settings.vox = false
      ∨ (∃ k, (s.group k).floor.engaged p = true)
      ∨ ∀ k g, (s.pos p).assign.look k = .group g → (s.group g).kind ≠ .hoot) : s.voxActive p = s := by
  unfold State.voxActive
  split
  · next hc =>
    obtain ⟨⟨hup, hvox⟩, hengaged⟩ : (s.gfu.up.look p = true ∧ (s.pos p).settings.vox = true)
      ∧ ∀ k, (s.group k).floor.engaged p = false := by simpa using hc
    rcases h with h | h | ⟨k, h⟩ | h
    · simp [hup] at h
    · simp [hvox] at h
    · simp [hengaged] at h
    · rw [State.voxGroup_eq_none h]
  · rfl

section Active
variable {s : State} {p : Pos} {k : Spk} {g : Grp} (hup : s.gfu.up.look p = true) (hvox : (s.pos p).settings.vox = true)
  (hfree : ∀ j, (s.group j).floor.engaged p = false) (hk : (s.pos p).assign.look k = .group g) (hg : (s.group g).kind = .hoot)
  (hlow : ∀ i j, i < k → (s.pos p).assign.look i = .group j → (s.group j).kind ≠ .hoot)
include hup hvox hfree hk hg hlow

theorem State.voxActive_of_group :
    s.voxActive p = if (s.group g).listening.look p then s.takeFloor p g false .vox else s := by
  have hc : (s.gfu.up.look p && (s.pos p).settings.vox
      && !((List.finRange 16).any fun k => (s.group k).floor.engaged p)) = true := by simp [hup, hvox, hfree]
  rw [State.voxActive, if_pos hc, State.voxGroup_eq_some hk hg hlow]

end Active

/-! ### The request as it is decided (R79, R86) -/

section Request
variable {s : State} {g : Grp} {r : GroupRec} {p : Pos} {latched : Bool} {o : Origin} {lv : Fin 4}
  (hg : s.group g = r) (hlv : lv = (s.pos p).settings.floorLevel)
include hg hlv

theorem State.takeFloor_of_open (hm : r.openMode = true) :
    s.takeFloor p g latched o = (s.setGroup g { r with floor := { r.floor with talkers := r.floor.talkers ++ [⟨p, o⟩] } }).emit
      { given := [⟨.gfu, portOf p, .floorGranted g lv latched false⟩], notices := [.group g, .position p] } := by
  simp only [State.takeFloor, hg, hm, if_true]
  rw [hm.symm, State.actFloor_eq hg]
  refine congrArg (State.emit _) ?_
  simp [FloorAct.openTalk, FloorAct.sends, Floor.holderPos, Waiter.holds, hlv]

variable (hm : r.openMode = false)
include hm

theorem State.takeFloor_of_managed :
    s.takeFloor p g latched o = s.actFloor g fun a => a.decide g r.holdLimit s.fair ⟨p, lv, latched, o⟩ := by
  simp [State.takeFloor, hg, hm, hlv]

theorem State.takeFloor_of_free (hf : r.floor.holder = none) :
    s.takeFloor p g latched o = (s.setGroup g { r with floor := { r.floor with
        holder := some ⟨p, lv, latched, false, o⟩, holdTimer := if r.holdLimit = 0 then none else some r.holdLimit.val
        served := r.floor.served.put p false } }).emit
      { given := ⟨.gfu, portOf p, .floorGranted g lv latched false⟩
          :: (posList r.listening).map fun j => ⟨.gfu, portOf j, .floorHolder g (some p)⟩
        notices := [.group g, .position p] } := by
  rw [State.takeFloor_of_managed hg hlv hm, State.actFloor_eq hg, FloorAct.decide_of_free g _ _ _ hf]
  refine congrArg (State.emit _) ?_
  simp [FloorAct.sends, Floor.holderPos, hf, Waiter.holds]

variable {h : Holder} (hf : r.floor.holder = some h)
include hf

theorem State.takeFloor_of_lower (hl : lv = 3 ∧ h.level < 3 ∧ h.pinned = false) (hp : h.pos ≠ p) :
    s.takeFloor p g latched o = (s.setGroup g { r with floor := { r.floor with
        holder := some ⟨p, lv, latched, false, o⟩, holdTimer := if r.holdLimit = 0 then none else some r.holdLimit.val
        served := (markFair s.fair h.pos r.floor.served).put p false } }).emit
      { given := ⟨.gfu, portOf h.pos, .floorLost g .preempted⟩ :: ⟨.gfu, portOf p, .floorGranted g lv latched false⟩
          :: (posList r.listening).map fun j => ⟨.gfu, portOf j, .floorHolder g (some p)⟩
        notices := [.group g, .position h.pos, .position p] } := by
  rw [State.takeFloor_of_managed hg hlv hm, State.actFloor_eq hg, FloorAct.decide_of_lower g _ _ _ hf hl]
  refine congrArg (State.emit _) ?_
  simp [FloorAct.sends, Floor.holderPos, hf, Waiter.holds, hp]

variable {late : Bool} {q : Floor} (hl : ¬(lv = 3 ∧ h.level < 3 ∧ h.pinned = false))
  (hlate : late = true ↔ r.floor.served.look p = true ∧ s.fair p = true ∧ ∃ v ∈ r.floor.wait, v.level = lv)
  (hq : q = if late then { r.floor with deferred := r.floor.deferred ++ [⟨p, lv, latched, o⟩] }
    else { r.floor with wait := r.floor.wait ++ [⟨p, lv, latched, o⟩], served := r.floor.served.put p false })
include hl hlate hq

theorem State.takeFloor_of_kept (hk : h.latched = false ∨ h.pinned = true) :
    s.takeFloor p g latched o = (s.setGroup g { r with floor := q }).emit
      { given := [⟨.gfu, portOf p, if late then .floorDeferred g lv else .floorWait g lv⟩] } := by
  have hjoin := FloorAct.joinQueue_eq (w := ⟨p, lv, latched, o⟩) hlate g
  have hholder : r.floor.holderPos = q.holderPos := by
    rw [hq]
    cases late <;> rfl
  rw [← hq] at hjoin
  rw [State.takeFloor_of_managed hg hlv hm, State.actFloor_eq hg, FloorAct.decide_of_kept g _ _ _ hf hl hk, hjoin]
  refine congrArg (State.emit _) ?_
  simp [FloorAct.sends, hholder]

theorem State.takeFloor_of_latched {w : Waiter} {a b up stay : List Waiter} (ha : h.latched = true) (hn : h.pinned = false)
    (hw : q.Picks w a b up stay) (hne : w.pos ≠ h.pos) :
    s.takeFloor p g latched o = (s.setGroup g { r with floor := { q with
        holder := some ⟨w.pos, w.level, w.latched, false, w.origin⟩, wait := a ++ b ++ up, deferred := stay
        holdTimer := if r.holdLimit = 0 then none else some r.holdLimit.val
        served := up.foldl (fun m x => m.put x.pos false) (markFair s.fair h.pos q.served) } }).emit
      { given := (if w.pos = p then [] else [⟨.gfu, portOf p, if late then .floorDeferred g lv else .floorWait g lv⟩])
          ++ ⟨.gfu, portOf h.pos, .floorLost g .handedOver⟩ :: ⟨.gfu, portOf w.pos, .floorGranted g w.level w.latched false⟩
          :: (up.map fun x => ⟨.gfu, portOf x.pos, .floorWait g x.level⟩)
          ++ (posList r.listening).map fun j => ⟨.gfu, portOf j, .floorHolder g (some w.pos)⟩
        notices := [.group g, .position h.pos, .position w.pos] } := by
  have hjoin := FloorAct.joinQueue_eq (w := ⟨p, lv, latched, o⟩) hlate g
  have hholder : q.holder = some h := by
    rw [hq]
    cases late <;> exact hf
  rw [← hq] at hjoin
  rw [State.takeFloor_of_managed hg hlv hm, State.actFloor_eq hg, FloorAct.decide_of_latched g _ _ _ hf hl ha hn hjoin hholder hw]
  refine congrArg (State.emit _) ?_
  have hmoved : r.floor.holderPos ≠ some w.pos := by simpa [Floor.holderPos, hf] using hne.symm
  by_cases hp : w.pos = p
  · simp only [if_pos hp]
    simp [FloorAct.sends, Floor.holderPos_mk, hmoved, Waiter.holds]
  · simp only [if_neg hp]
    simp [FloorAct.sends, Floor.holderPos_mk, hmoved, Waiter.holds]

end Request

end Sys2Proof.Machine
end

section
/-! A desk microphone that becomes QUIET, talk reports, and what O34 says of both (R53, R90). -/

namespace Sys2Proof.Machine

/-! ### A desk microphone that becomes QUIET (R90) -/

theorem State.voxQuiet_idle {s : State} {p : Pos} (h : ∀ g, (s.group g).floor.originOf p ≠ some .vox) : s.voxQuiet p = s := by
  have hnone : ((List.finRange 16).find? fun g => (s.group g).floor.originOf p == some .vox) = none :=
    List.find?_eq_none.mpr fun g _ => by simpa using h g
  rw [State.voxQuiet, hnone]

/-- The one floor on which VOX engages the position. -/
theorem State.voxQuiet_of_engaged {s : State} {p : Pos} {g : Grp} {r : GroupRec} (hg : s.group g = r)
    (h : r.floor.originOf p = some .vox) (hk : ∀ k, k ≠ g → (s.group k).floor.originOf p ≠ some .vox) :
    s.voxQuiet p = s.actFloor g fun a => a.release r.holdLimit s.fair p := by
  subst hg
  have hfind : ((List.finRange 16).find? fun g => (s.group g).floor.originOf p == some .vox) = some g := by
    rw [← Fin.find?_eq_find?_finRange, Fin.find?_eq_some_iff]
    exact ⟨by simpa using h, fun j hj => by simpa using hk j hj.ne⟩
  rw [State.voxQuiet, hfind]

section Release
variable {s : State} {g : Grp} {r : GroupRec} {p : Pos} (hg : s.group g = r)
include hg

theorem State.releaseFloor_of_holder_alone (hp : r.floor.holderPos = some p) (hw : r.floor.wait = []) :
    (s.actFloor g fun a => a.release r.holdLimit s.fair p) = (s.setGroup g { r with floor := { r.floor with
        holder := none, holdTimer := none, served := markFair s.fair p r.floor.served } }).emit
      { given := (posList r.listening).map fun j => ⟨.gfu, portOf j, .floorHolder g none⟩
        notices := [.group g, .position p] } := by
  rw [State.actFloor_eq hg, FloorAct.release_of_holder_alone _ _ hp hw]
  refine congrArg (State.emit _) ?_
  simp [FloorAct.sends, hp, Floor.holderPos_mk]

theorem State.releaseFloor_of_holder_picks {w : Waiter} {a b up stay : List Waiter} (hp : r.floor.holderPos = some p)
    (hw : r.floor.Picks w a b up stay) (hne : w.pos ≠ p) :
    (s.actFloor g fun a => a.release r.holdLimit s.fair p) = (s.setGroup g { r with floor := { r.floor with
        holder := some ⟨w.pos, w.level, w.latched, false, w.origin⟩, wait := a ++ b ++ up, deferred := stay
        holdTimer := if r.holdLimit = 0 then none else some r.holdLimit.val
        served := up.foldl (fun m k => m.put k.pos false) (markFair s.fair p r.floor.served) } }).emit
      { given := ⟨.gfu, portOf w.pos, .floorGranted g w.level w.latched false⟩
          :: (up.map fun k => ⟨.gfu, portOf k.pos, .floorWait g k.level⟩)
          ++ (posList r.listening).map fun j => ⟨.gfu, portOf j, .floorHolder g (some w.pos)⟩
        notices := [.group g, .position p, .position w.pos] } := by
  rw [State.actFloor_eq hg, FloorAct.release_of_holder_picks _ _ hp hw]
  refine congrArg (State.emit _) ?_
  simp [FloorAct.sends, hp, Floor.holderPos_mk, hne.symm, Waiter.holds]

theorem State.releaseFloor_of_queued {w : Waiter} {a b up stay : List Waiter} (hp : r.floor.holderPos ≠ some p)
    (hw : r.floor.Splits w a b up stay) (hpos : w.pos = p) (hd : ∀ x ∈ r.floor.deferred, x.pos ≠ p)
    (ht : ∀ k ∈ r.floor.talkers, k.pos ≠ p) :
    (s.actFloor g fun a => a.release r.holdLimit s.fair p) = (s.setGroup g { r with floor := { r.floor with
        wait := a ++ b ++ up, deferred := stay, served := up.foldl (fun m k => m.put k.pos false) r.floor.served } }).emit
      { given := up.map fun k => ⟨.gfu, portOf k.pos, .floorWait g k.level⟩ } := by
  rw [State.actFloor_eq hg, FloorAct.release_of_queued _ _ hp hw hpos hd ht]
  refine congrArg (State.emit _) ?_
  simp [FloorAct.sends, Floor.holderPos]

theorem State.releaseFloor_of_unqueued (hp : r.floor.holderPos ≠ some p) (hw : ∀ w ∈ r.floor.wait, w.pos ≠ p) :
    (s.actFloor g fun a => a.release r.holdLimit s.fair p) = (s.setGroup g { r with floor := { r.floor with
        deferred := r.floor.deferred.filter fun k => k.pos != p
        talkers := r.floor.talkers.filter fun k => k.pos != p } }).emit
      { notices := if ∃ k ∈ r.floor.talkers, k.pos = p then [.group g, .position p] else [] } := by
  rw [State.actFloor_eq hg, FloorAct.release_of_unqueued _ _ hp hw]
  refine congrArg (State.emit _) ?_
  by_cases ht : ∃ k ∈ r.floor.talkers, k.pos = p <;> simp [FloorAct.sends, Floor.holderPos, ht]

end Release

/-! ### A report about a line's receive (R53) -/

theorem exec_talkReport_of_next {s : State} {l : Line} {on : Bool} {rest : List (Line × Bool)}
    (h : takeFirst (fun r => r.1 == l) s.chan.talk = some ((l, on), rest)) :
    exec (.talkReport l) s = .next (((s.setChan { s.chan with talk := rest }).setLine l { s.line l with talk := on }).emit
      { given := lcuRecords (s.talkRecipients l) (if on then .talkOn l else .talkOff l) }) := by
  change execTalkReport l s = _
  simp only [execTalkReport, h]
  rfl

/-- Settles O34: VOX by what the report finds, and a talk report by its line. -/
theorem activityReportsAreTaken : Obligations.ActivityReportsAreTaken := by
  refine ⟨fun s u p rest on h hu => ⟨?idle, ?request, ?idleQuiet, ?quiet⟩, ?talk⟩
  case idle =>
    rintro rfl hidle
    subst hu
    rw [exec_voxActiveReport_of_next h, State.voxActive_idle (by exact hidle)]
  case request =>
    rintro g k r f lv limit news rfl hup hvox hfree hk hg hkind hlow rfl hlv rfl rfl
    subst hu
    have hg' : (s.setChan { s.chan with vox := rest }).group g = r := hg
    rw [exec_voxActiveReport_of_next h, State.voxActive_of_group (k := k) (g := g) (by exact hup) (by exact hvox)
      (by exact hfree) (by exact hk) (by rw [hg', hkind]) (by exact hlow), hg']
    refine ⟨fun hl => ?_, fun hl hm => ?_, fun hl hm hf => ?_, fun x hl hm hf hlevel hx hpin => ?_,
      fun x late q hl hm hf hlevel hlate hq => ⟨fun hkeep => ?_, fun w a b up stay hlatched hpin hw hne => ?_⟩⟩
    · rw [if_neg (by simp [hl])]
    all_goals rw [if_pos hl]
    · rw [State.takeFloor_of_open hg' hlv hm]
    · rw [State.takeFloor_of_free hg' hlv hm hf]
    · have hne : x.pos ≠ p := by
        have := (Floor.engaged_eq_false.mp (hfree g)).1
        simpa [hg, Floor.holderPos, hf] using this
      rw [State.takeFloor_of_lower hg' hlv hm hf ⟨hlevel, hx, hpin⟩ hne]
      rfl
    · rw [State.takeFloor_of_kept hg' hlv hm hf hlevel hlate hq hkeep]
    · rw [State.takeFloor_of_latched hg' hlv hm hf hlevel hlate hq hlatched hpin hw hne]
      rfl
  case idleQuiet =>
    rintro rfl hidle
    subst hu
    rw [exec_voxQuietReport_of_next h, State.voxQuiet_idle (by exact hidle)]
  case quiet =>
    rintro g r f marked rfl hg rfl horigin hothers rfl
    subst hu
    have hg' : (s.setChan { s.chan with vox := rest }).group g = r := hg
    rw [exec_voxQuietReport_of_next h, State.voxQuiet_of_engaged hg' horigin hothers]
    refine ⟨fun hp hw => ?_, fun w a b up stay hp hw hne => ?_, fun w a b up stay hp hw hpos hd ht => ?_, fun hp hw => ?_⟩
    · rw [State.releaseFloor_of_holder_alone hg' hp hw]
      rfl
    · rw [State.releaseFloor_of_holder_picks hg' hp hw hne]
      rfl
    · rw [State.releaseFloor_of_queued hg' hp hw hpos hd (by simp [ht])]
    · rw [State.releaseFloor_of_unqueued hg' hp hw]
  case talk =>
    rintro s l on rest ps h rfl
    rw [exec_talkReport_of_next h]
    rfl

end Sys2Proof.Machine
end

section
/-! GROUP_CONFIG on the record of the group alone: what it makes of the record, and what it sends (R58, R59, R91, R93). -/

namespace Sys2Proof.Machine

/-! ### The positions that a mask removes (R58) -/

/-- The first position that a mask removes goes before all the others. -/
theorem removedFrom_of_first {old new : PosSet} {p : Pos} (ho : old.look p = true) (hn : new.look p = false)
    (hfirst : ∀ q, q < p → old.look q = true → new.look q = true) :
    removedFrom old new = p :: removedFrom (old.put p false) new := by
  obtain ⟨front, back, hsplit⟩ := List.append_of_mem (List.mem_finRange p)
  have hsorted : (front ++ p :: back).Pairwise (· < ·) := hsplit ▸ List.pairwise_lt_finRange 16
  obtain ⟨-, hback, hfront⟩ := List.pairwise_append.mp hsorted
  have hq (a : PosSet) (ha : ∀ q, q < p → a.look q = true → new.look q = true) :
      front.filter (fun q => a.look q && !new.look q) = [] := by
    refine List.filter_eq_nil_iff.mpr fun q hmem => ?_
    have hlt := hfront q hmem p List.mem_cons_self
    simpa using ha q hlt
  have hkept : back.filter (fun q => old.look q && !new.look q) = back.filter fun q => (old.put p false).look q && !new.look q := by
    refine List.filter_congr fun q hmem => ?_
    have hlt := (List.pairwise_cons.mp hback).1 q hmem
    simp [hlt.ne]
  have hfirst' (q : Pos) (hlt : q < p) (hl : (old.put p false).look q = true) : new.look q = true :=
    hfirst q hlt (by simpa [hlt.ne'] using hl)
  simp only [removedFrom, hsplit, List.filter_append, hq old hfirst, hq _ hfirst', List.nil_append]
  rw [List.filter_cons_of_pos (by simp [ho, hn]), List.filter_cons_of_neg (by simp), hkept]

theorem removedFrom_eq_nil {old new : PosSet} (h : ∀ p, old.look p = true → new.look p = true) : removedFrom old new = [] :=
  List.filter_eq_nil_iff.mpr fun p _ => by simpa using h p

theorem removedFrom_put {old : PosSet} {p : Pos} (ho : old.look p = true) : removedFrom old (old.put p false) = [p] := by
  rw [removedFrom_of_first ho (by simp) fun q hlt hq => by simpa [hlt.ne'] using hq, removedFrom_eq_nil fun _ => id]

/-! ### One position removed (R59, R93) -/

/-- What the removal of a position makes of the record, and what GFU sends for it. -/
def GroupRec.loss (kind : GroupKind) (g : Grp) (p : Pos) (r : GroupRec) : GroupRec × Sends := match kind with
  | .unused => (r, {})
  | .intercom =>
    match r.handsetOf p with
    | none => (r, {})
    | some h =>
      let left := r.joined.filter fun m => m.1 != p
      ({ r with joined := left },
        { given := ⟨.gfu, portOf p, .groupReleased g h .removed⟩ :: left.map fun m => ⟨.gfu, portOf m.1, .groupState g left.length p true⟩
          notices := [.group g], fromGfu := [.released p h (.group g)] })
  | .hoot =>
    let a := FloorAct.leave { floor := r.floor } r.holdLimit (some .removed) p
    ({ r with floor := a.floor }, Sends.and { fromGfu := [.remove p (.group g)] } (a.sends g r.listening r.floor))

/-- A group's record replaced, with what this sends. -/
def State.settleGroup (s : State) (g : Grp) (x : GroupRec × Sends) : State := (s.setGroup g x.1).emit x.2

@[simp] theorem State.settleGroup_group (s : State) (g : Grp) (x : GroupRec × Sends) : (s.settleGroup g x).group g = x.1 := by
  simp [State.settleGroup]

/-- One replacement after another is the last record, with what both send. -/
theorem State.settleGroup_settleGroup (s : State) (g : Grp) (x y : GroupRec × Sends) :
    (s.settleGroup g x).settleGroup g y = s.settleGroup g (y.1, x.2.and y.2) := by
  have hswap : ((s.setGroup g x.1).emit x.2).setGroup g y.1 = ((s.setGroup g x.1).setGroup g y.1).emit x.2 := rfl
  simp only [State.settleGroup, hswap, State.setGroup_setGroup, State.emit_emit]

theorem State.settleGroup_self (s : State) (g : Grp) : s.settleGroup g (s.group g, {}) = s :=
  (State.emit_nothing _).trans (s.setGroup_self g)

theorem State.emit_eq_settleGroup (s : State) (g : Grp) (o : Sends) : s.emit o = s.settleGroup g (s.group g, o) := by
  rw [State.settleGroup, State.setGroup_self]

theorem State.setGroup_eq_settleGroup (s : State) (g : Grp) (r : GroupRec) : s.setGroup g r = s.settleGroup g (r, {}) :=
  (State.emit_nothing _).symm

theorem State.actFloor_eq_settleGroup (s : State) (g : Grp) (act : FloorAct → FloorAct) :
    s.actFloor g act = s.settleGroup g ({ s.group g with floor := (act { floor := (s.group g).floor }).floor },
      (act { floor := (s.group g).floor }).sends g (s.group g).listening (s.group g).floor) := rfl

theorem State.loseStanding_eq (s : State) (kind : GroupKind) (g : Grp) (p : Pos) :
    s.loseStanding kind g p = s.settleGroup g ((s.group g).loss kind g p) := by
  cases kind with
  | unused => exact (s.settleGroup_self g).symm
  | intercom =>
    cases hh : (s.group g).handsetOf p with
    | none => simp only [State.loseStanding, GroupRec.loss, hh, State.settleGroup_self]
    | some h =>
      rw [State.loseStanding, hh]
      simp only [State.leaveGroup_eq]
      rw [State.emit_eq_settleGroup s g]
      exact (State.settleGroup_settleGroup s g _ (_, _)).trans (by simp [GroupRec.loss, hh, record, Sends.and])
  | hoot =>
    simp only [State.loseStanding, State.actFloor_eq_settleGroup, State.emit_eq_settleGroup s g, State.settleGroup_group,
      State.settleGroup_settleGroup]
    rfl

/-- Several removals, in position order. -/
def GroupRec.losses (kind : GroupKind) (g : Grp) : List Pos → GroupRec → GroupRec × Sends
  | [], r => (r, {})
  | p :: ps, r =>
    let a := r.loss kind g p
    let b := GroupRec.losses kind g ps a.1
    (b.1, a.2.and b.2)

theorem State.foldl_loseStanding (s : State) (kind : GroupKind) (g : Grp) (ps : List Pos) :
    ps.foldl (fun u p => u.loseStanding kind g p) s = s.settleGroup g ((s.group g).losses kind g ps) := by
  induction ps generalizing s with
  | nil => exact (s.settleGroup_self g).symm
  | cons p ps ih =>
    rw [List.foldl_cons, ih, State.loseStanding_eq, State.settleGroup_group, State.settleGroup_settleGroup]
    rfl

/-! ### The whole request -/

/-- The end of every engagement by a change of mode (R91). -/
def GroupRec.modeEnds (r : GroupRec) (g : Grp) : GroupRec × Sends :=
  ({ r with floor := Floor.empty }, (FloorAct.changeMode { floor := r.floor }).sends g r.listening r.floor)

/-- A record that a change of kind empties (R58). -/
def GroupRec.cleared (r : GroupRec) : GroupRec :=
  { r with joined := [], attached := [], listening := Table.fill false, floor := Floor.empty }

/-- The GROUP notice of a GROUP_CONFIG (R58). -/
def GroupRec.configNotice (r : GroupRec) (g : Grp) (c : GroupConfig) : Sends :=
  if r.talkLevel ≠ c.talkLevel ∨ r.allow ≠ c.allow ∨ r.kind = .hoot ∧ r.openMode ≠ c.openMode then notice (.group g) else {}

/-- Steps 1 to 5 of R58. -/
def GroupRec.reconfigured (r : GroupRec) (g : Grp) (c : GroupConfig) : GroupRec × Sends :=
  let a := GroupRec.losses r.kind g (removedFrom r.allow c.allow) (r.configured c)
  let b := if r.kind = .hoot ∧ r.openMode ≠ c.openMode then a.1.modeEnds g else (a.1, {})
  (if r.kind = c.kind then b.1 else b.1.cleared, a.2.and (b.2.and (r.configNotice g c)))

theorem State.configGroup_eq (s : State) (g : Grp) (c : GroupConfig) :
    s.configGroup g c = s.settleGroup g ((s.group g).reconfigured g c) := by
  have hfold := State.foldl_loseStanding (s.setGroup g ((s.group g).configured c)) (s.group g).kind g
    (removedFrom (s.group g).allow c.allow)
  rw [State.setGroup_eq_settleGroup, State.settleGroup_group, State.settleGroup_settleGroup] at hfold
  have hmode (u : State) : u.actFloor g FloorAct.changeMode = u.settleGroup g ((u.group g).modeEnds g) :=
    u.actFloor_eq_settleGroup g _
  have hclear (u : State) : u.setGroup g { u.group g with
      joined := [], attached := [], listening := Table.fill false, floor := Floor.empty } =
        u.settleGroup g ((u.group g).cleared, {}) := State.setGroup_eq_settleGroup ..
  simp only [State.configGroup, hclear, hmode, GroupRec.reconfigured, GroupRec.configNotice, decide_eq_true_eq]
  rw [State.setGroup_eq_settleGroup, hfold]
  generalize GroupRec.losses (s.group g).kind g (removedFrom (s.group g).allow c.allow) ((s.group g).configured c) = a
  split_ifs <;> simp [State.emit_eq_settleGroup _ g, State.settleGroup_settleGroup, Sends.and_assoc]

end Sys2Proof.Machine
end

section
/-! GROUP_CONFIG case by case (R58, R59, R80, R84, R91, R93). -/

namespace Sys2Proof.Machine

/-! ### The command -/

theorem exec_groupConfig_bad {s : State} {n : Port} {f : Frame} (hf : s.Offers n .groupConfig f)
    (hb : numOf 16 (byteAt f.body 0) = none ∨ groupKindOf (byteAt f.body 1) = none ∨ onOffOf (byteAt f.body 5) = none) :
    exec (.groupConfig n) s = .next ((s.takeFrame n f).answer (.port n) .badValue) := by
  refine congrArg Host.Outcome.next ((State.dispatch_of_offers hf _).trans ?_)
  rcases hb with hb | hb | hb
  · rw [hb]
  · simp [groupConfigOf, hb]
  · simp [groupConfigOf, hb]

section Config
variable {s : State} {n : Port} {f : Frame} {g : Grp} {c : GroupConfig} (hf : s.Offers n .groupConfig f)
  (hg : numOf 16 (byteAt f.body 0) = some g) (hc : groupConfigOf f.body = some c)
include hf hg hc

theorem exec_groupConfig_of_offers :
    exec (.groupConfig n) s = .next (
      if (s.group g).kind ≠ c.kind ∧ (s.group g).inUse = true then (s.takeFrame n f).answer (.port n) .groupBusy
      else ((s.takeFrame n f).configGroup g c).answer (.port n) .accepted) := by
  refine congrArg Host.Outcome.next ((State.dispatch_of_offers hf _).trans ?_)
  rw [hg, hc]
  rfl

theorem exec_groupConfig_busy (hk : (s.group g).kind ≠ c.kind) (hu : (s.group g).inUse = true) :
    exec (.groupConfig n) s = .next ((s.takeFrame n f).answer (.port n) .groupBusy) := by
  rw [exec_groupConfig_of_offers hf hg hc, if_pos ⟨hk, hu⟩]

theorem exec_groupConfig_accepted (hk : (s.group g).kind = c.kind ∨ (s.group g).inUse = false) {x : GroupRec} {o : Sends}
    (hx : (s.group g).reconfigured g c = (x, o)) :
    exec (.groupConfig n) s = .next ((((s.takeFrame n f).setGroup g x).emit o).answer (.port n) .accepted) := by
  have hn : ¬((s.group g).kind ≠ c.kind ∧ (s.group g).inUse = true) := by
    rintro ⟨hne, hu⟩
    rcases hk with hk | hk
    · exact hne hk
    · simp [hk] at hu
  rw [exec_groupConfig_of_offers hf hg hc, if_neg hn, State.configGroup_eq, State.takeFrame_group, hx]
  rfl

end Config

/-! ### What a removal leaves as it was -/

theorem GroupRec.loss_fst (kind : GroupKind) (g : Grp) (p : Pos) (r : GroupRec) :
    ∃ joined floor, (r.loss kind g p).1 = { r with joined, floor } := by
  cases kind with
  | unused => exact ⟨_, _, rfl⟩
  | intercom =>
    rw [GroupRec.loss]
    split <;> exact ⟨_, _, rfl⟩
  | hoot => exact ⟨_, _, rfl⟩

theorem GroupRec.losses_fst (kind : GroupKind) (g : Grp) (ps : List Pos) (r : GroupRec) :
    ∃ joined floor, (r.losses kind g ps).1 = { r with joined, floor } := by
  induction ps generalizing r with
  | nil => exact ⟨_, _, rfl⟩
  | cons p ps ih =>
    obtain ⟨j, x, hloss⟩ := r.loss_fst kind g p
    obtain ⟨j', x', hlosses⟩ := ih (r.loss kind g p).1
    exact ⟨j', x', hlosses.trans (by rw [hloss])⟩

/-- The mask and the mode play no part in a removal. -/
theorem GroupRec.loss_with_mask (kind : GroupKind) (g : Grp) (p : Pos) (r : GroupRec) (allow : PosSet) (openMode : Bool) :
    GroupRec.loss kind g p { r with allow, openMode } =
      ({ (r.loss kind g p).1 with allow, openMode }, (r.loss kind g p).2) := by
  cases kind with
  | unused | hoot => rfl
  | intercom =>
    have hh : GroupRec.handsetOf { r with allow, openMode } p = r.handsetOf p := rfl
    simp only [GroupRec.loss, hh]
    cases r.handsetOf p <;> rfl

/-! ### The notice -/

theorem GroupRec.configNotice_eq (r : GroupRec) (g : Grp) (c : GroupConfig) :
    r.configNotice g c =
      { notices := if r.talkLevel = c.talkLevel ∧ r.allow = c.allow ∧ (r.kind ≠ .hoot ∨ r.openMode = c.openMode) then []
          else [.group g] } := by
  have hiff : (r.talkLevel ≠ c.talkLevel ∨ r.allow ≠ c.allow ∨ r.kind = .hoot ∧ r.openMode ≠ c.openMode)
      ↔ ¬(r.talkLevel = c.talkLevel ∧ r.allow = c.allow ∧ (r.kind ≠ .hoot ∨ r.openMode = c.openMode)) := by tauto
  simp only [GroupRec.configNotice, hiff, ite_not]
  split <;> rfl

theorem GroupRec.configNotice_of_changed {r : GroupRec} {c : GroupConfig}
    (h : r.talkLevel ≠ c.talkLevel ∨ r.allow ≠ c.allow ∨ r.kind = .hoot ∧ r.openMode ≠ c.openMode) (g : Grp) :
    r.configNotice g c = notice (.group g) := if_pos h

/-! ### A mask that removes nobody -/

theorem GroupRec.reconfigured_of_kept {r : GroupRec} {c : GroupConfig} (hk : r.kind = c.kind)
    (ha : ∀ p, r.allow.look p = true → c.allow.look p = true) (hm : r.kind ≠ .hoot ∨ r.openMode = c.openMode) (g : Grp) :
    r.reconfigured g c =
      (r.configured c, { notices := if r.talkLevel = c.talkLevel ∧ r.allow = c.allow then [] else [.group g] }) := by
  have hn : ¬(r.kind = .hoot ∧ r.openMode ≠ c.openMode) := by tauto
  simp only [GroupRec.reconfigured, removedFrom_eq_nil ha, GroupRec.losses, if_neg hn, if_pos hk, Sends.nothing_and,
    GroupRec.configNotice_eq, hm, and_true]

/-- A change of mode ends every engagement (R91). -/
theorem FloorAct.changeMode_sends (f : Floor) (g : Grp) (hearers : PosSet) :
    (FloorAct.changeMode { floor := f }).sends g hearers f =
      { given := (f.everyone.map fun p => ⟨.gfu, portOf p, .floorLost g .modeChanged⟩)
          ++ (if f.holder = none then [] else (posList hearers).map fun i => ⟨.gfu, portOf i, .floorHolder g none⟩)
        notices := if f.everyone = [] then [] else .group g :: f.everyone.map .position } := by
  by_cases hh : f.holder = none <;> by_cases he : f.everyone = [] <;>
    simp [FloorAct.sends, FloorAct.changeMode, Floor.holderPos, Floor.empty, hh, he, Function.comp_def]

/-- The same, of a group with a new configuration. -/
theorem GroupRec.modeEnds_configured (r : GroupRec) (g : Grp) (c : GroupConfig) :
    (r.configured c).modeEnds g = ({ r.configured c with floor := Floor.empty },
      { given := (r.floor.everyone.map fun p => ⟨.gfu, portOf p, .floorLost g .modeChanged⟩)
          ++ (if r.floor.holder = none then []
              else (posList r.listening).map fun i => ⟨.gfu, portOf i, .floorHolder g none⟩)
        notices := if r.floor.everyone = [] then [] else .group g :: r.floor.everyone.map .position }) :=
  congrArg _ (FloorAct.changeMode_sends r.floor g r.listening)

theorem GroupRec.reconfigured_of_mode {r : GroupRec} {c : GroupConfig} (hr : r.kind = .hoot) (hc : c.kind = .hoot)
    (ha : ∀ p, r.allow.look p = true → c.allow.look p = true) (hm : r.openMode ≠ c.openMode) (g : Grp) :
    r.reconfigured g c = ({ r.configured c with floor := Floor.empty },
      { given := (r.floor.everyone.map fun p => ⟨.gfu, portOf p, .floorLost g .modeChanged⟩)
          ++ (if r.floor.holder = none then []
              else (posList r.listening).map fun i => ⟨.gfu, portOf i, .floorHolder g none⟩)
        notices := (if r.floor.everyone = [] then [] else .group g :: r.floor.everyone.map .position) ++ [.group g] }) := by
  have hmode : r.kind = .hoot ∧ r.openMode ≠ c.openMode := ⟨hr, hm⟩
  simp only [GroupRec.reconfigured, removedFrom_eq_nil ha, GroupRec.losses, if_pos hmode, if_pos (hr.trans hc.symm),
    GroupRec.modeEnds_configured, GroupRec.configNotice_of_changed (.inr (.inr hmode))]
  simp [Sends.and, notice]

/-! ### One position removed -/

theorem GroupRec.reconfigured_of_one {r : GroupRec} {c : GroupConfig} {p : Pos} (hk : r.kind = c.kind)
    (hp : r.allow.look p = true) (ha : c.allow = r.allow.put p false) (hm : r.kind ≠ .hoot ∨ r.openMode = c.openMode) (g : Grp) :
    r.reconfigured g c = (((r.configured c).loss r.kind g p).1, ((r.configured c).loss r.kind g p).2.and (notice (.group g))) := by
  have hn : ¬(r.kind = .hoot ∧ r.openMode ≠ c.openMode) := by tauto
  have hchanged : r.allow ≠ c.allow := fun e => by
    have hlook := congrArg (Table.look · p) (e.trans ha)
    simp [hp] at hlook
  have hremoved : removedFrom r.allow c.allow = [p] := ha ▸ removedFrom_put hp
  simp only [GroupRec.reconfigured, hremoved, GroupRec.losses, if_neg hn, if_pos hk, Sends.nothing_and, Sends.and_nothing,
    GroupRec.configNotice_of_changed (.inr (.inl hchanged))]

/-- The removal of a position from a HOOT group, by how it leaves the floor (R93). -/
theorem GroupRec.loss_of_leave {r : GroupRec} {g : Grp} {p : Pos} {fl : Floor} {o : Sends}
    (hf : (FloorAct.leave { floor := r.floor } r.holdLimit (some .removed) p).floor = fl)
    (ho : (FloorAct.leave { floor := r.floor } r.holdLimit (some .removed) p).sends g r.listening r.floor = o) :
    r.loss .hoot g p = ({ r with floor := fl }, Sends.and { fromGfu := [.remove p (.group g)] } o) := by
  subst hf ho
  rfl

/-- The removal of a position from a HOOT group of the same mode. -/
theorem GroupRec.reconfigured_of_leave {r : GroupRec} {c : GroupConfig} {p : Pos} {g : Grp} {fl : Floor} {o : Sends}
    (hr : r.kind = .hoot) (hc : c.kind = .hoot) (hm : r.openMode = c.openMode) (hp : r.allow.look p = true)
    (ha : c.allow = r.allow.put p false)
    (hf : (FloorAct.leave { floor := r.floor } c.holdLimit (some .removed) p).floor = fl)
    (ho : (FloorAct.leave { floor := r.floor } c.holdLimit (some .removed) p).sends g r.listening r.floor = o) :
    r.reconfigured g c = ({ r.configured c with floor := fl },
      Sends.and (Sends.and { fromGfu := [.remove p (.group g)] } o) (notice (.group g))) := by
  rw [GroupRec.reconfigured_of_one (hr.trans hc.symm) hp ha (.inr hm), hr, GroupRec.loss_of_leave (by exact hf) (by exact ho)]

/-! ### A change of kind of a group that is not in use (R58) -/

theorem Floor.engaged_of_everyone_nil {f : Floor} (h : f.everyone = []) (p : Pos) : f.engaged p = false := by
  obtain ⟨hholder, hwait, hdeferred, htalkers⟩ : f.holder = none ∧ f.wait = [] ∧ f.deferred = [] ∧ f.talkers = [] := by
    simpa [Floor.everyone, Option.toList_eq_nil_iff] using h
  simp [Floor.engaged, hholder, hwait, hdeferred, htalkers]

/-- Removals from a group where nobody is joined and nobody is engaged. -/
theorem GroupRec.losses_of_idle (kind : GroupKind) (g : Grp) (ps : List Pos) {r : GroupRec} (hj : r.joined = [])
    (hf : r.floor.everyone = []) :
    (r.losses kind g ps).1.floor.everyone = []
      ∧ (r.losses kind g ps).2 = { fromGfu := if kind = .hoot then ps.map fun p => .remove p (.group g) else [] } := by
  induction ps generalizing r with
  | nil => exact ⟨hf, by simp [GroupRec.losses]⟩
  | cons p ps ih =>
    have hloss : ∃ q : PosSet, r.loss kind g p = ({ r with floor := { r.floor with served := q } },
        { fromGfu := if kind = .hoot then [.remove p (.group g)] else [] }) := by
      cases kind with
      | unused => exact ⟨r.floor.served, rfl⟩
      | intercom =>
        have hh : r.handsetOf p = none := by simp [GroupRec.handsetOf, hj]
        exact ⟨r.floor.served, by simp only [GroupRec.loss, hh]; rfl⟩
      | hoot =>
        have he := Floor.engaged_of_everyone_nil hf p
        exact ⟨_, GroupRec.loss_of_leave (congrArg _ (FloorAct.leave_of_free he)) (FloorAct.leave_sends_of_free he)⟩
    obtain ⟨q, hloss⟩ := hloss
    obtain ⟨hrest, hsends⟩ := ih (r := { r with floor := { r.floor with served := q } }) hj hf
    simp only [GroupRec.losses, hloss, hsends]
    refine ⟨hrest, ?_⟩
    cases kind <;> simp [Sends.and]

theorem GroupRec.idle_of_not_inUse {r : GroupRec} (h : r.inUse = false) : r.joined = [] ∧ r.floor.everyone = [] := by
  obtain ⟨⟨⟨hj, -⟩, -⟩, hf⟩ : ((r.joined = [] ∧ posList r.listening = []) ∧ r.attached = []) ∧ r.floor.everyone = [] := by
    simpa [GroupRec.inUse] using h
  exact ⟨hj, hf⟩

theorem GroupRec.reconfigured_of_kind {r : GroupRec} {c : GroupConfig} (hk : r.kind ≠ c.kind) (hu : r.inUse = false) (g : Grp) :
    r.reconfigured g c = ((r.configured c).cleared,
      { notices := if r.talkLevel = c.talkLevel ∧ r.allow = c.allow ∧ (r.kind ≠ .hoot ∨ r.openMode = c.openMode) then []
          else [.group g]
        fromGfu := if r.kind ≠ .hoot then [] else (removedFrom r.allow c.allow).map fun p => .remove p (.group g) }) := by
  obtain ⟨hj, hf⟩ := GroupRec.idle_of_not_inUse hu
  obtain ⟨hidle, hsends⟩ := GroupRec.losses_of_idle r.kind g (removedFrom r.allow c.allow) (r := r.configured c) hj hf
  obtain ⟨j, x, hfst⟩ := GroupRec.losses_fst r.kind g (removedFrom r.allow c.allow) (r.configured c)
  have hx : x.everyone = [] := by simpa [hfst] using hidle
  have hmode : (FloorAct.changeMode { floor := x }).sends g r.listening x = {} := by
    have hholder : x.holder = none := by
      have := hx
      simp only [Floor.everyone, List.append_eq_nil_iff] at this
      simpa using this.1.1.1
    rw [FloorAct.changeMode_sends, hx, hholder]
    rfl
  rw [GroupRec.reconfigured]
  simp only [hfst, hsends, if_neg hk, GroupRec.configNotice_eq]
  by_cases hm : r.kind = .hoot ∧ r.openMode ≠ c.openMode
  · have hmode' : (GroupRec.modeEnds { r.configured c with joined := j, floor := x } g).2 = {} := hmode
    simp only [if_pos hm, hmode']
    simp [hm.1, Sends.and, GroupRec.modeEnds, GroupRec.cleared]
  · simp only [if_neg hm]
    by_cases hr : r.kind = .hoot <;> simp [hr, Sends.and, GroupRec.cleared]

end Sys2Proof.Machine
end

section
/-! GROUP_CONFIG that removes several positions, or removes and changes the mode, as two requests (R58, R93). -/

namespace Sys2Proof.Machine

/-- The request that removes the first position alone, with the rest of the configuration. -/
def GroupRec.firstRemoval (r : GroupRec) (c : GroupConfig) (p : Pos) : GroupConfig :=
  { c with allow := r.allow.put p false, openMode := r.openMode }

/-- The record that the first removal leaves. -/
def GroupRec.afterFirst (r : GroupRec) (g : Grp) (c : GroupConfig) (p : Pos) : GroupRec :=
  { ((r.configured c).loss r.kind g p).1 with allow := r.allow.put p false, openMode := r.openMode }

section Split
variable {r : GroupRec} {c : GroupConfig} {p : Pos}

/-- The first removal alone makes of the record what it makes of it within the whole request, but for the mask and the mode. -/
theorem GroupRec.reconfigured_first (g : Grp) (hk : r.kind = c.kind) (hp : r.allow.look p = true) :
    r.reconfigured g (r.firstRemoval c p) =
      (r.afterFirst g c p, ((r.configured c).loss r.kind g p).2.and (notice (.group g))) := by
  have hcfg : r.configured (r.firstRemoval c p) =
    { r.configured c with allow := r.allow.put p false, openMode := r.openMode } := rfl
  rw [GroupRec.reconfigured_of_one (c := r.firstRemoval c p) hk hp rfl (.inr rfl), hcfg, GroupRec.loss_with_mask]
  rfl

/-- What the first removal leaves as the whole request finds it. -/
theorem GroupRec.afterFirst_fields (r : GroupRec) (g : Grp) (c : GroupConfig) (p : Pos) :
    (r.afterFirst g c p).kind = c.kind ∧ (r.afterFirst g c p).allow = r.allow.put p false
      ∧ (r.afterFirst g c p).openMode = r.openMode
      ∧ (r.afterFirst g c p).configured c = ((r.configured c).loss r.kind g p).1 := by
  obtain ⟨j, fl, hfst⟩ := (r.configured c).loss_fst r.kind g p
  rw [GroupRec.afterFirst, hfst]
  exact ⟨rfl, rfl, rfl, rfl⟩

/-- The whole request is the first removal, without its GROUP notice, and then the request on what that has left. -/
theorem GroupRec.reconfigured_split (g : Grp) (hk : r.kind = c.kind) (hp : r.allow.look p = true) (hn : c.allow.look p = false)
    (hfirst : ∀ q, q < p → r.allow.look q = true → c.allow.look q = true)
    (hmore : (∃ q, q ≠ p ∧ r.allow.look q = true ∧ c.allow.look q = false) ∨ r.kind = .hoot ∧ r.openMode ≠ c.openMode) :
    r.reconfigured g c = (((r.afterFirst g c p).reconfigured g c).1,
      ((r.configured c).loss r.kind g p).2.and ((r.afterFirst g c p).reconfigured g c).2) := by
  obtain ⟨hkind, hallow, hmode, hconf⟩ := r.afterFirst_fields g c p
  have hchanged : r.allow ≠ c.allow := fun e => by simp [← e, hp] at hn
  have hstill : (r.afterFirst g c p).allow ≠ c.allow ∨ (r.afterFirst g c p).kind = .hoot ∧ (r.afterFirst g c p).openMode ≠ c.openMode := by
    rw [hallow, hkind, ← hk, hmode]
    refine hmore.imp_left ?_
    rintro ⟨q, hq, hro, hco⟩ e
    simp [← e, hq.symm, hro] at hco
  rw [GroupRec.reconfigured, removedFrom_of_first hp hn hfirst, GroupRec.configNotice_of_changed (.inr (.inl hchanged)),
    GroupRec.reconfigured, GroupRec.configNotice_of_changed (.inr hstill), hallow, hkind, hmode, hconf, ← hk]
  simp only [GroupRec.losses, Sends.and_assoc, if_true]

end Split

/-! ### In the state -/

/-- The answer to a port by what stands at LKI. -/
theorem State.answer_port_of_lki {s t : State} (h : t.lki = s.lki) (n : Port) (c : Code) :
    t.answer (.port n) c = { t with lki := (s.answer (.port n) c).lki } := by
  have hp : t.port n = s.port n := by rw [State.port, h, State.port]
  simp only [State.answer, hp]
  split
  · rw [← h]
  · simp only [State.setPort, h]

/-- An accepted GROUP_CONFIG, with what LKI does apart from what the group does. -/
theorem exec_groupConfig_settles {s : State} {n : Port} {f : Frame} {g : Grp} {c : GroupConfig} (hf : s.Offers n .groupConfig f)
    (hg : numOf 16 (byteAt f.body 0) = some g) (hc : groupConfigOf f.body = some c) (hk : (s.group g).kind = c.kind) :
    exec (.groupConfig n) s = .next { s.settleGroup g ((s.group g).reconfigured g c) with
      lki := ((s.takeFrame n f).answer (.port n) .accepted).lki } := by
  rcases hx : (s.group g).reconfigured g c with ⟨x, o⟩
  rw [exec_groupConfig_accepted hf hg hc (.inl hk) hx]
  exact congrArg _ (State.answer_port_of_lki (s := s.takeFrame n f) (t := ((s.takeFrame n f).setGroup g x).emit o) rfl n .accepted)

/-- A first request whose GROUP notice is left out, and a second one. -/
theorem Chan.add_without_notice (c : Chan) (a b : Sends) (q : Subject) :
    c.add (a.and b) = { c.add ((a.and (notice q)).and b) with notices := c.notices ++ a.notices ++ b.notices } := by
  simp [Chan.add, Sends.and, notice]

/-- A request that removes several positions, or removes and changes the mode, is one that removes the first of them alone and then the
request itself, but for the GROUP notice between (R58, R93). -/
theorem exec_groupConfig_split {s u v : State} {n : Port} {f first : Frame} {g : Grp} {c : GroupConfig} {p : Pos} {ports : Lki}
    (hf : s.Offers n .groupConfig f) (hg : numOf 16 (byteAt f.body 0) = some g) (hc : groupConfigOf f.body = some c)
    (hk : (s.group g).kind = c.kind) (hp : (s.group g).allow.look p = true) (hn : c.allow.look p = false)
    (hfirst : ∀ q, q < p → (s.group g).allow.look q = true → c.allow.look q = true)
    (hmore : (∃ q, q ≠ p ∧ (s.group g).allow.look q = true ∧ c.allow.look q = false)
      ∨ (s.group g).kind = .hoot ∧ (s.group g).openMode ≠ c.openMode)
    (hf' : State.Offers { s with lki := ports } n .groupConfig first) (hg' : numOf 16 (byteAt first.body 0) = some g)
    (hc' : groupConfigOf first.body = some ((s.group g).firstRemoval c p))
    (hu : exec (.groupConfig n) { s with lki := ports } = .next u)
    (hv : exec (.groupConfig n) { u with lki := s.lki } = .next v) :
    ∃ now later, u.chan.notices = s.chan.notices ++ now ++ [.group g] ∧ v.chan.notices = u.chan.notices ++ later
      ∧ exec (.groupConfig n) s = .next (v.setChan { v.chan with notices := s.chan.notices ++ now ++ later }) := by
  have hkind := ((s.group g).afterFirst_fields g c p).1
  obtain rfl := Host.Outcome.next.inj (hu.symm.trans (exec_groupConfig_settles hf' hg' hc' hk))
  have hgroup : State.group { s with lki := ports } g = s.group g := rfl
  rw [hgroup, GroupRec.reconfigured_first g hk hp] at hv ⊢
  generalize hy : (s.group g).afterFirst g c p = y at hv hkind ⊢
  generalize ho : (((s.group g).configured c).loss (s.group g).kind g p).2 = o at hv ⊢
  have hmid : (s.settleGroup g (y, o.and (notice (.group g)))).group g = y := State.settleGroup_group ..
  have hsecond := exec_groupConfig_settles (s := s.settleGroup g (y, o.and (notice (.group g)))) hf hg hc (by rw [hmid, hkind])
  obtain rfl := Host.Outcome.next.inj (hv.symm.trans hsecond)
  rw [exec_groupConfig_settles hf hg hc hk, GroupRec.reconfigured_split g hk hp hn hfirst hmore, hy, ho, hmid]
  obtain ⟨z, o'⟩ := y.reconfigured g c
  refine ⟨o.notices, o'.notices, ?_, rfl, ?_⟩
  · simp [State.settleGroup, Chan.add, notice]
  · have hlki : (((s.settleGroup g (y, o.and (notice (.group g)))).takeFrame n f).answer (.port n) .accepted).lki
        = ((s.takeFrame n f).answer (.port n) .accepted).lki := by
      rw [State.answer_port_of_lki (s := s.takeFrame n f)
        (t := (s.settleGroup g (y, o.and (notice (.group g)))).takeFrame n f) rfl n .accepted]
    rw [State.settleGroup_settleGroup, hlki]
    simp only [State.settleGroup, State.emit, State.setGroup_chan]
    rw [Chan.add_without_notice s.chan o o' (.group g)]
    rfl

end Sys2Proof.Machine
end

section
/-! JOIN_GROUP at GFU, and what O25 says of it and of GROUP_CONFIG (R35, R58 to R61, R80, R84, R91, R93). -/

namespace Sys2Proof.Machine

/-! ### JOIN_GROUP (R60, R61) -/

theorem exec_joinGroupAtGfu_of_next {s t : State} {p : Pos} {h : Handset} {v : Via} {g : Grp}
    (e : s.nextForHandset .gfu p h = some (.join p h v g, t)) : exec (.joinGroupAtGfu p h) s = .next (t.gfuJoin p h v g) := by
  change execJoinGroupAtGfu p h s = _
  simp only [execJoinGroupAtGfu, e]

theorem State.gfuJoin_refused {s : State} {p : Pos} {h : Handset} {g : Grp} {c : Code}
    (hc : (joinCheck (s.group g) p).or (s.gfuHolds p h) = some c) (v : Via) :
    s.gfuJoin p h v g = s.emit { fromGfu := [.outcome p h v (.inr c)] } := by
  simp only [State.gfuJoin, hc]

theorem State.gfuJoin_joined {s : State} {p : Pos} {h : Handset} {g : Grp}
    (hc : (joinCheck (s.group g) p).or (s.gfuHolds p h) = none) (v : Via) :
    s.gfuJoin p h v g = (s.setGroup g { s.group g with joined := (s.group g).joined ++ [(p, h)] }).emit
      { given := ((s.group g).joined ++ [(p, h)]).map fun m =>
          ⟨.gfu, portOf m.1, .groupState g ((s.group g).joined ++ [(p, h)]).length p false⟩
        notices := [.group g], fromGfu := [.outcome p h v (.inl (.group g))] } := by
  simp [State.gfuJoin, hc, State.setJoined, State.emit_emit, groupState, records, notice, Sends.and, Function.comp_def]

/-- A forwarded JOIN_GROUP, check by check. -/
theorem State.gfuJoin_eq (s : State) (p : Pos) (h : Handset) (v : Via) (g : Grp) :
    s.gfuJoin p h v g =
      if (s.group g).kind ≠ .intercom then s.emit { fromGfu := [.outcome p h v (.inr .badKind)] }
      else if (s.group g).allow.look p = false then s.emit { fromGfu := [.outcome p h v (.inr .notMember)] }
      else if ((s.group g).handsetOf p).isSome = true then s.emit { fromGfu := [.outcome p h v (.inr .already)] }
      else if (∃ k, (p, h) ∈ (s.group k).joined) ∨ (∃ c, (s.call c).holds p h = true) then
        s.emit { fromGfu := [.outcome p h v (.inr .handsetBusy)] }
      else (s.setGroup g { s.group g with joined := (s.group g).joined ++ [(p, h)] }).emit
        { given := ((s.group g).joined ++ [(p, h)]).map fun m =>
            ⟨.gfu, portOf m.1, .groupState g ((s.group g).joined ++ [(p, h)]).length p false⟩
          notices := [.group g], fromGfu := [.outcome p h v (.inl (.group g))] } := by
  by_cases hkind : (s.group g).kind ≠ .intercom
  · rw [if_pos hkind, State.gfuJoin_refused (by rw [joinCheck, if_pos hkind]; rfl)]
  by_cases hallow : (s.group g).allow.look p = false
  · rw [if_neg hkind, if_pos hallow, State.gfuJoin_refused (by rw [joinCheck, if_neg hkind, if_pos hallow]; rfl)]
  by_cases hhas : ((s.group g).handsetOf p).isSome = true
  · rw [if_neg hkind, if_neg hallow, if_pos hhas,
      State.gfuJoin_refused (by rw [joinCheck, if_neg hkind, if_neg hallow, if_pos hhas]; rfl)]
  have hcheck : joinCheck (s.group g) p = none := by rw [joinCheck, if_neg hkind, if_neg hallow, if_neg hhas]
  rw [if_neg hkind, if_neg hallow, if_neg hhas]
  by_cases hheld : (∃ k, (p, h) ∈ (s.group k).joined) ∨ (∃ c, (s.call c).holds p h = true)
  · rw [if_pos hheld, State.gfuJoin_refused (by rw [hcheck, State.gfuHolds_eq_busy hheld]; rfl)]
  · obtain ⟨hj, hc⟩ := not_or.mp hheld
    have hfree := State.gfuHolds_eq_none (not_exists.mp hj) fun c => by simpa using not_exists.mp hc c
    rw [if_neg hheld, State.gfuJoin_joined (by rw [hcheck, hfree]; rfl)]

/-! ### GROUP_CONFIG, in the state -/

theorem groupConfigOf_eq {b : List Byte} {kind : GroupKind} {openMode : Bool} (hk : groupKindOf (byteAt b 1) = some kind)
    (hm : onOffOf (byteAt b 5) = some openMode) :
    groupConfigOf b = some ⟨kind, posSetOf (byteAt b 2) (byteAt b 3), (byteAt b 4).toFin, openMode, (byteAt b 6).toFin⟩ := by
  simp only [groupConfigOf, hk, hm, levelOf]

/-- A GROUP_CONFIG that removes one position from a HOOT group of the same mode, by how the position leaves the floor. -/
theorem exec_groupConfig_of_leave {s : State} {n : Port} {f : Frame} {g : Grp} {c : GroupConfig} {p : Pos} {fl : Floor}
    {gs : List Given} {ns : List Subject} (hf : s.Offers n .groupConfig f) (hg : numOf 16 (byteAt f.body 0) = some g)
    (hc : groupConfigOf f.body = some c) (hr : (s.group g).kind = .hoot) (hk : c.kind = .hoot)
    (hm : (s.group g).openMode = c.openMode) (hp : (s.group g).allow.look p = true)
    (ha : c.allow = (s.group g).allow.put p false)
    (hfl : (FloorAct.leave { floor := (s.group g).floor } c.holdLimit (some .removed) p).floor = fl)
    (ho : (FloorAct.leave { floor := (s.group g).floor } c.holdLimit (some .removed) p).sends g (s.group g).listening
      (s.group g).floor = { given := gs, notices := ns }) :
    exec (.groupConfig n) s = .next ((((s.takeFrame n f).setGroup g { (s.group g).configured c with floor := fl }).emit
      { given := gs, notices := ns ++ [.group g], fromGfu := [.remove p (.group g)] }).answer (.port n) .accepted) := by
  rw [exec_groupConfig_accepted hf hg hc (.inl (hr.trans hk.symm)) (GroupRec.reconfigured_of_leave hr hk hm hp ha hfl ho)]
  simp [Sends.and, notice]

/-- Settles O25: GROUP_CONFIG by what it makes of the group's record, and JOIN_GROUP by its checks. -/
theorem groupsAreConfiguredAndJoined : Obligations.GroupsAreConfiguredAndJoined := by
  refine ⟨fun s n f hf => ⟨exec_groupConfig_bad hf, ?config⟩, ?join⟩
  case join =>
    rintro s t p h v g r all e rfl rfl
    obtain ⟨rest, rfl⟩ := State.nextForHandset_eq e
    rw [exec_joinGroupAtGfu_of_next e, State.gfuJoin_eq]
    simp only [State.setToOwner_group, State.setToOwner_call]
  case config =>
    rintro g kind openMode r x hg hkind hmode rfl hx
    have hc := groupConfigOf_eq hkind hmode
    generalize hcfg : GroupConfig.mk kind (posSetOf (byteAt f.body 2) (byteAt f.body 3)) (byteAt f.body 4).toFin openMode
      (byteAt f.body 6).toFin = c at hc
    obtain rfl : x = (s.group g).configured c := by rw [hx, ← hcfg]; rfl
    obtain ⟨rfl, rfl⟩ : kind = c.kind ∧ openMode = c.openMode := by simp [← hcfg]
    refine ⟨fun hk hu => ?busy, fun hk ha hm => ?kept, fun hk hu => ?kindChanged, fun hr hk ha hm => ?modeChanged,
      fun p fl hr hk hm hp ha hfl => ?hoot, fun p hk hp ha hnone => ?absent,
      fun p h left hr hk hp ha hh hleft => ?joined,
      fun p ports first u v hk hp hn hfirst hmore hf' hg' hkind' hmode' hmask hlevel hlimit hu hv => ?several⟩
    case busy => exact exec_groupConfig_busy hf hg hc hk hu
    case kept => exact exec_groupConfig_accepted hf hg hc (.inl hk) (GroupRec.reconfigured_of_kept hk ha hm g)
    case kindChanged => exact exec_groupConfig_accepted hf hg hc (.inr hu) (GroupRec.reconfigured_of_kind hk hu g)
    case modeChanged => exact exec_groupConfig_accepted hf hg hc (.inl (hr.trans hk.symm)) (GroupRec.reconfigured_of_mode hr hk ha hm g)
    case hoot =>
      subst hfl
      have hleave {fl gs ns} := exec_groupConfig_of_leave (fl := fl) (gs := gs) (ns := ns) hf hg hc hr hk hm hp ha
      refine ⟨fun he => ?_, fun hh hw => ?_, fun he hh hw => ?_, fun w a b up stay hh hw hne => ?_,
        fun w a b up stay hh hw hpos hd ht => ?_⟩
      · exact hleave (congrArg _ (FloorAct.leave_of_free he)) (FloorAct.leave_sends_of_free he)
      · exact hleave (congrArg _ (FloorAct.leave_of_holder_alone hh hw)) (FloorAct.leave_sends_of_holder_alone hh hw)
      · refine hleave (congrArg _ (FloorAct.leave_of_unqueued hh hw)) ((FloorAct.leave_sends_of_other hh (.inl hw)).trans ?_)
        rw [if_pos he]
        rfl
      · exact hleave (congrArg _ (FloorAct.leave_of_holder_picks hh hw)) (FloorAct.leave_sends_of_holder_picks hh hw hne)
      · refine hleave (ns := []) ((congrArg _ (FloorAct.leave_of_queued hh hw hpos hd)).trans ?_)
          ((FloorAct.leave_sends_of_queued hh hw hpos hd).trans ?_)
        · simp [ht]
        · simp [ht, lostRecords]
    case absent =>
      have hloss : ((s.group g).configured c).loss (s.group g).kind g p = ((s.group g).configured c, {}) := by
        obtain ⟨hr, hh⟩ | hr := hnone
        · have hh' : ((s.group g).configured c).handsetOf p = none := hh
          simp only [hr, GroupRec.loss, hh']
        · rw [hr]
          rfl
      have hm : (s.group g).kind ≠ .hoot := by rcases hnone with ⟨hr, -⟩ | hr <;> simp [hr]
      refine exec_groupConfig_accepted hf hg hc (.inl hk) ((GroupRec.reconfigured_of_one hk hp ha (.inl hm) g).trans ?_)
      rw [hloss, Sends.nothing_and]
      rfl
    case joined =>
      subst hleft
      have hh' : ((s.group g).configured c).handsetOf p = some h := hh
      refine exec_groupConfig_accepted hf hg hc (.inl (hr.trans hk.symm))
        ((GroupRec.reconfigured_of_one (hr.trans hk.symm) hp ha (.inl (by simp [hr])) g).trans ?_)
      simp only [hr, GroupRec.loss, hh']
      simp [Sends.and, notice, GroupRec.configured]
    case several =>
      have hc' : groupConfigOf first.body = some ((s.group g).firstRemoval c p) := by
        rw [groupConfigOf_eq hkind' hmode', hmask, hlevel, hlimit]
        rfl
      exact exec_groupConfig_split hf hg hc hk hp hn hfirst hmore hf' hg' hc' hu hv

end Sys2Proof.Machine
end

section
/-! What each cause makes of a floor: nobody comes onto it but by a request or a pin, and it stays sound (R76, R80, R83, R84, R91). -/

namespace Sys2Proof.Machine

theorem nodup_of_subperm {α : Type} {l k : List α} (h : l.Subperm k) (hk : k.Nodup) : l.Nodup := by
  obtain ⟨m, hp, hs⟩ := h
  exact hp.nodup_iff.mp (hk.sublist hs)

/-! ### Sound floors, mode by mode -/

theorem Floor.engaged_iff {f : Floor} {p : Pos} : f.engaged p = true ↔ p ∈ f.everyone := by
  cases h : f.holder <;> simp [Floor.engaged, Floor.everyone, h, eq_comm (a := p), or_assoc]

/-- Every deferred entry is behind a waiting one of its level (R84). -/
def Floor.Behind (f : Floor) : Prop := ∀ w ∈ f.deferred, ∃ v ∈ f.wait, v.level = w.level

/-- A MANAGED floor in order, whether or not the next grant is still to be made: nobody twice, no open talkers, and the deferred
entries behind waiting ones. -/
structure Floor.Ordered (f : Floor) : Prop where
  once : f.everyone.Nodup
  talkers : f.talkers = []
  behind : f.Behind

theorem Floor.sound_managed_iff {f : Floor} : f.Sound false ↔ f.Ordered ∧ (f.holder = none → f.wait = []) := by
  refine ⟨fun ⟨hn, hm, _, hb⟩ => ⟨⟨hn, (hm rfl).1, hb⟩, (hm rfl).2⟩, fun ⟨⟨hn, ht, hb⟩, hw⟩ => ⟨hn, fun _ => ⟨ht, hw⟩, ?_, hb⟩⟩
  simp

theorem Floor.sound_open_iff {f : Floor} :
    f.Sound true ↔ f.everyone.Nodup ∧ f.holder = none ∧ f.wait = [] ∧ f.deferred = [] := by
  refine ⟨fun ⟨hn, _, ho, _⟩ => ⟨hn, ho rfl⟩, fun ⟨hn, ho⟩ => ⟨hn, ?_, fun _ => ho, ?_⟩⟩
  · simp
  · simp [ho.2.2]

theorem Floor.parts_of_everyone_nil {f : Floor} (h : f.everyone = []) :
    f.holder = none ∧ f.wait = [] ∧ f.deferred = [] ∧ f.talkers = [] := by
  simpa [Floor.everyone, Option.toList_eq_nil_iff] using h

theorem Floor.sound_of_everyone_nil {f : Floor} (h : f.everyone = []) (openMode : Bool) : f.Sound openMode := by
  obtain ⟨hholder, hwait, hdeferred, htalkers⟩ := Floor.parts_of_everyone_nil h
  simp [Floor.Sound, h, hholder, hwait, hdeferred, htalkers]

/-! ### The grant that ends (R81) -/

section EndGrant
variable (a : FloorAct) (why : Option LostReason) (mark : Pos → PosSet → PosSet)

theorem FloorAct.endGrant_of_free {a : FloorAct} (h : a.floor.holder = none) : a.endGrant why mark = a := by
  rw [FloorAct.endGrant, h]

@[simp] theorem FloorAct.endGrant_holder : (a.endGrant why mark).floor.holder = none := by
  unfold FloorAct.endGrant
  split
  · assumption
  · rfl

@[simp] theorem FloorAct.endGrant_wait : (a.endGrant why mark).floor.wait = a.floor.wait := by
  unfold FloorAct.endGrant
  split <;> rfl

@[simp] theorem FloorAct.endGrant_deferred : (a.endGrant why mark).floor.deferred = a.floor.deferred := by
  unfold FloorAct.endGrant
  split <;> rfl

@[simp] theorem FloorAct.endGrant_talkers : (a.endGrant why mark).floor.talkers = a.floor.talkers := by
  unfold FloorAct.endGrant
  split <;> rfl

theorem FloorAct.endGrant_everyone : (a.endGrant why mark).floor.everyone.Sublist a.floor.everyone := by
  simp [Floor.everyone]

theorem FloorAct.endGrant_ordered {a : FloorAct} (h : a.floor.Ordered) : (a.endGrant why mark).floor.Ordered where
  once := h.once.sublist (a.endGrant_everyone why mark)
  talkers := by simp [h.talkers]
  behind := by simpa [Floor.Behind] using h.behind

end EndGrant

/-! ### A grant (R80) -/

theorem FloorAct.direct_everyone (a : FloorAct) (limit : Level) (h : Holder) :
    (a.direct limit h).floor.everyone.Sublist (h.pos :: a.floor.everyone) := by
  simp [FloorAct.direct, FloorAct.grant, Floor.everyone]

/-- A direct grant to a position that is not engaged. -/
theorem FloorAct.direct_sound {a : FloorAct} {h : Holder} (ho : a.floor.Ordered) (hn : h.pos ∉ a.floor.everyone) (limit : Level) :
    (a.direct limit h).floor.Sound false := by
  refine Floor.sound_managed_iff.mpr ⟨⟨?_, ho.talkers, ho.behind⟩, fun e => by simp [FloorAct.direct, FloorAct.grant] at e⟩
  exact (List.nodup_cons.mpr ⟨hn, ho.once⟩).sublist (a.direct_everyone limit h)

/-! ### The deferred entries that move up (R84) -/

@[simp] theorem FloorAct.moveDeferred_holder (a : FloorAct) (level : Fin 4) :
    (a.moveDeferred level).floor.holder = a.floor.holder := by
  unfold FloorAct.moveDeferred
  split <;> rfl

@[simp] theorem FloorAct.moveDeferred_talkers (a : FloorAct) (level : Fin 4) :
    (a.moveDeferred level).floor.talkers = a.floor.talkers := by
  unfold FloorAct.moveDeferred
  split <;> rfl

theorem FloorAct.moveDeferred_everyone (a : FloorAct) (level : Fin 4) :
    (a.moveDeferred level).floor.everyone.Perm a.floor.everyone := by
  unfold FloorAct.moveDeferred
  split
  · exact .refl _
  · have hsplit : ((a.floor.deferred.filter fun w => w.level == level) ++ a.floor.deferred.filter fun w => w.level != level).Perm
        a.floor.deferred := List.filter_append_perm ..
    refine .append_right _ ?_
    simp only [List.map_append, List.append_assoc]
    refine .append_left _ (.append_left _ ?_)
    simpa only [List.map_append] using hsplit.map fun w => w.pos

/-- The entries of a level that has lost one of those that leave, `w`, are in order again; those of the others that leave,
`rest`, need not be yet. -/
theorem FloorAct.moveDeferred_behind {a : FloorAct} {w : Waiter} {rest : List Waiter}
    (h : ∀ x ∈ a.floor.deferred, ∃ v ∈ a.floor.wait ++ w :: rest, v.level = x.level) :
    ∀ x ∈ (a.moveDeferred w.level).floor.deferred, ∃ v ∈ (a.moveDeferred w.level).floor.wait ++ rest, v.level = x.level := by
  unfold FloorAct.moveDeferred
  split
  · next hw =>
    obtain ⟨u, hu, hl⟩ : ∃ u ∈ a.floor.wait, u.level = w.level := by simpa using hw
    intro x hx
    obtain ⟨v, hv, he⟩ := h x hx
    rcases List.mem_append.mp hv with hv | hv
    · exact ⟨v, List.mem_append_left _ hv, he⟩
    · rcases List.mem_cons.mp hv with rfl | hv
      · exact ⟨u, List.mem_append_left _ hu, hl.trans he⟩
      · exact ⟨v, List.mem_append_right _ hv, he⟩
  · intro x hx
    obtain ⟨hx, hne⟩ := List.mem_filter.mp hx
    obtain ⟨v, hv, he⟩ := h x hx
    have hne' : v ≠ w := by
      rintro rfl
      simp [he] at hne
    refine ⟨v, ?_, he⟩
    simp only [List.mem_append, List.mem_cons, hne', false_or] at hv ⊢
    tauto

/-! ### The floor passes on (R80) -/

theorem topWaiter_eq_none {ws : List Waiter} : topWaiter ws = none ↔ ws = [] := by
  cases ws with
  | nil => simp [topWaiter]
  | cons w ws =>
    simp only [topWaiter, reduceCtorEq, iff_false]
    split
    · simp
    · split <;> simp

theorem FloorAct.grantRule_of_nobody {a : FloorAct} (h : a.floor.wait = []) (limit : Level) : a.grantRule limit = a := by
  rw [FloorAct.grantRule, topWaiter_eq_none.mpr h]

/-- The grant to a waiting entry, before the deferred ones of its level move up (R80). -/
def FloorAct.pick (a : FloorAct) (limit : Level) (w : Waiter) : FloorAct :=
  FloorAct.grant { a with floor := { a.floor with wait := a.floor.wait.filter fun v => v.pos != w.pos } } limit w.holds

theorem FloorAct.grantRule_of_top {a : FloorAct} {w : Waiter} (h : topWaiter a.floor.wait = some w) (limit : Level) :
    a.grantRule limit = (a.pick limit w).moveDeferred w.level := by
  rw [FloorAct.grantRule, h]
  rfl

theorem FloorAct.pick_everyone {a : FloorAct} {w : Waiter} (h : w ∈ a.floor.wait) (limit : Level) :
    (a.pick limit w).floor.everyone.Subperm a.floor.everyone := by
  have hpass : (w.pos :: (a.floor.wait.filter fun v => v.pos != w.pos).map fun v => v.pos).Subperm
      (a.floor.wait.map fun v => v.pos) :=
    List.cons_subperm_of_not_mem_of_mem (by simp) (List.mem_map_of_mem h) (List.filter_sublist.map _).subperm
  refine (List.subperm_append_right _).mpr ((List.subperm_append_right _).mpr (hpass.trans ?_))
  exact (List.sublist_append_right _ _).subperm

theorem FloorAct.grantRule_everyone (a : FloorAct) (limit : Level) :
    (a.grantRule limit).floor.everyone.Subperm a.floor.everyone := by
  cases h : topWaiter a.floor.wait with
  | none => rw [FloorAct.grantRule_of_nobody (topWaiter_eq_none.mp h)]
  | some w =>
    rw [FloorAct.grantRule_of_top h]
    exact (FloorAct.moveDeferred_everyone ..).subperm.trans (FloorAct.pick_everyone (topWaiter_mem h) limit)

/-- The grant rule leaves no free floor with somebody waiting, and moves up the deferred entries of the level that it takes from. -/
theorem FloorAct.grantRule_sound {a : FloorAct} (h : a.floor.Ordered) (limit : Level) : (a.grantRule limit).floor.Sound false := by
  have honce : (a.grantRule limit).floor.everyone.Nodup := nodup_of_subperm (a.grantRule_everyone limit) h.once
  refine Floor.sound_managed_iff.mpr ?_
  cases hw : topWaiter a.floor.wait with
  | none =>
    have hnobody := topWaiter_eq_none.mp hw
    rw [FloorAct.grantRule_of_nobody hnobody]
    exact ⟨h, fun _ => hnobody⟩
  | some w =>
    have hwait : (a.floor.wait.map fun v => v.pos).Nodup := h.once.sublist (by simp [Floor.everyone])
    rw [FloorAct.grantRule_of_top hw] at honce ⊢
    refine ⟨⟨honce, (FloorAct.moveDeferred_talkers ..).trans h.talkers, ?behind⟩, fun e => ?held⟩
    case held => simp [FloorAct.pick, FloorAct.grant] at e
    case behind =>
      have hmoved := FloorAct.moveDeferred_behind (a := a.pick limit w) (w := w) (rest := []) fun x hx => ?_
      · simpa only [Floor.Behind, List.append_nil] using hmoved
      · obtain ⟨v, hv, he⟩ := h.behind x hx
        by_cases hp : v.pos = w.pos
        · obtain rfl : v = w := List.inj_on_of_nodup_map hwait hv (topWaiter_mem hw) hp
          exact ⟨v, by simp, he⟩
        · exact ⟨v, List.mem_append_left _ (List.mem_filter.mpr ⟨hv, by simpa using hp⟩), he⟩

/-- A grant that ends in either mode, and the grant rule after it. -/
theorem FloorAct.passOn_everyone (a : FloorAct) (why : Option LostReason) (mark : Pos → PosSet → PosSet) (limit : Level) :
    ((a.endGrant why mark).grantRule limit).floor.everyone.Subperm a.floor.everyone :=
  (FloorAct.grantRule_everyone _ _).trans (a.endGrant_everyone why mark).subperm

theorem FloorAct.passOn_sound {a : FloorAct} {m : Bool} (h : a.floor.Sound m) (why : Option LostReason)
    (mark : Pos → PosSet → PosSet) (limit : Level) : ((a.endGrant why mark).grantRule limit).floor.Sound m := by
  cases m with
  | false => exact FloorAct.grantRule_sound (FloorAct.endGrant_ordered _ _ (Floor.sound_managed_iff.mp h).1) limit
  | true =>
    obtain ⟨-, hfree, hnobody, -⟩ := Floor.sound_open_iff.mp h
    rwa [FloorAct.endGrant_of_free _ _ hfree, FloorAct.grantRule_of_nobody hnobody]

/-! ### A position withdrawn (R84 to R86) -/

section MoveAll
/-- The deferred entries behind each of several that leave move up. -/
def FloorAct.moveAll (a : FloorAct) (ws : List Waiter) : FloorAct := ws.foldl (fun c w => c.moveDeferred w.level) a

variable (ws : List Waiter) (a : FloorAct)

theorem FloorAct.moveAll_holder : (a.moveAll ws).floor.holder = a.floor.holder := by
  induction ws generalizing a with
  | nil => rfl
  | cons w ws ih => exact (ih _).trans (a.moveDeferred_holder w.level)

theorem FloorAct.moveAll_talkers : (a.moveAll ws).floor.talkers = a.floor.talkers := by
  induction ws generalizing a with
  | nil => rfl
  | cons w ws ih => exact (ih _).trans (a.moveDeferred_talkers w.level)

theorem FloorAct.moveAll_everyone : (a.moveAll ws).floor.everyone.Perm a.floor.everyone := by
  induction ws generalizing a with
  | nil => exact .refl _
  | cons w ws ih => exact (ih _).trans (a.moveDeferred_everyone w.level)

theorem FloorAct.moveAll_behind {ws : List Waiter} {a : FloorAct}
    (h : ∀ x ∈ a.floor.deferred, ∃ v ∈ a.floor.wait ++ ws, v.level = x.level) : (a.moveAll ws).floor.Behind := by
  induction ws generalizing a with
  | nil => 
    rw [List.append_nil] at h
    exact h
  | cons w ws ih => exact ih (FloorAct.moveDeferred_behind h)

end MoveAll

/-- The floor with a position's entries taken out, before the deferred ones move up. -/
def Floor.struck (f : Floor) (p : Pos) : Floor :=
  { f with
    wait := f.wait.filter fun w => w.pos != p
    deferred := f.deferred.filter fun w => w.pos != p
    talkers := f.talkers.filter fun t => t.pos != p }

theorem Floor.struck_everyone {f : Floor} {p : Pos} (hp : f.holderPos ≠ some p) :
    (f.struck p).everyone = f.everyone.filter (· != p) := by
  have hholder : (f.holder.toList.map fun h => h.pos).filter (· != p) = f.holder.toList.map fun h => h.pos := by
    cases h : f.holder with
    | none => rfl
    | some x => simpa [Floor.holderPos, h] using hp
  simp only [Floor.everyone, Floor.struck, List.filter_append, hholder, List.filter_map]
  rfl

theorem FloorAct.withdraw_floor (a : FloorAct) (p : Pos) :
    ∃ b : FloorAct, b.floor = a.floor.struck p ∧ a.withdraw p = b.moveAll (a.floor.wait.filter fun w => w.pos == p) :=
  ⟨_, rfl, rfl⟩

theorem FloorAct.withdraw_everyone {a : FloorAct} {p : Pos} (hp : a.floor.holderPos ≠ some p) :
    (a.withdraw p).floor.everyone.Perm (a.floor.everyone.filter (· != p)) := by
  obtain ⟨b, hb, hw⟩ := a.withdraw_floor p
  rw [hw, ← Floor.struck_everyone hp, ← hb]
  exact b.moveAll_everyone _

theorem FloorAct.withdraw_fewer {a : FloorAct} {p : Pos} (hp : a.floor.holderPos ≠ some p) :
    (a.withdraw p).floor.everyone.Subperm a.floor.everyone :=
  (FloorAct.withdraw_everyone hp).subperm.trans List.filter_sublist.subperm

theorem FloorAct.withdraw_ordered {a : FloorAct} {p : Pos} (hp : a.floor.holderPos ≠ some p) (h : a.floor.Ordered) :
    (a.withdraw p).floor.Ordered := by
  refine ⟨(FloorAct.withdraw_everyone hp).nodup_iff.mpr (h.once.filter _), ?_, ?_⟩
  · obtain ⟨b, hb, hw⟩ := a.withdraw_floor p
    rw [hw, FloorAct.moveAll_talkers, hb]
    simp [Floor.struck, h.talkers]
  · obtain ⟨b, hb, hw⟩ := a.withdraw_floor p
    rw [hw]
    refine FloorAct.moveAll_behind fun x hx => ?_
    rw [hb] at hx ⊢
    obtain ⟨v, hv, he⟩ := h.behind x (List.mem_of_mem_filter hx)
    refine ⟨v, ?_, he⟩
    by_cases hvp : v.pos = p <;> simp [Floor.struck, hv, hvp]

theorem FloorAct.withdraw_sound {a : FloorAct} {p : Pos} {m : Bool} (hp : a.floor.holderPos ≠ some p) (h : a.floor.Sound m) :
    (a.withdraw p).floor.Sound m := by
  have hnobody (hw : a.floor.wait = []) : (a.withdraw p).floor = a.floor.struck p := by simp [FloorAct.withdraw, hw, Floor.struck]
  cases m with
  | false =>
    obtain ⟨ho, hfree⟩ := Floor.sound_managed_iff.mp h
    refine Floor.sound_managed_iff.mpr ⟨FloorAct.withdraw_ordered hp ho, fun hh => ?_⟩
    obtain ⟨b, hb, hw⟩ := a.withdraw_floor p
    rw [hw, FloorAct.moveAll_holder, hb] at hh
    rw [hnobody (hfree hh)]
    simp [Floor.struck, hfree hh]
  | true =>
    obtain ⟨hn, hh, hw, hd⟩ := Floor.sound_open_iff.mp h
    refine Floor.sound_open_iff.mpr ⟨(FloorAct.withdraw_everyone hp).nodup_iff.mpr (hn.filter _), ?_⟩
    simp [hnobody hw, Floor.struck, hh, hw, hd]

/-! ### Ends of a standing (R82, R85, R88, R91 to R94) -/

/-- A change that brings nobody onto a floor and keeps it sound. -/
structure Floor.Thins (f f' : Floor) : Prop where
  fewer : f'.everyone.Subperm f.everyone
  sound : ∀ m, f.Sound m → f'.Sound m

theorem Floor.Thins.refl (f : Floor) : f.Thins f := ⟨.refl _, fun _ => id⟩

theorem Floor.Thins.trans {f f' f'' : Floor} (h : f.Thins f') (k : f'.Thins f'') : f.Thins f'' :=
  ⟨k.fewer.trans h.fewer, fun m => k.sound m ∘ h.sound m⟩

theorem Floor.thins_empty (f : Floor) : f.Thins Floor.empty :=
  ⟨List.nil_subperm, fun m _ => Floor.sound_of_everyone_nil rfl m⟩

section Ends
variable (a : FloorAct) (limit : Level) (fair : Pos → Bool) (p : Pos)

theorem FloorAct.passOn_thins (why : Option LostReason) (mark : Pos → PosSet → PosSet) :
    a.floor.Thins ((a.endGrant why mark).grantRule limit).floor :=
  ⟨a.passOn_everyone why mark limit, fun _ h => FloorAct.passOn_sound h why mark limit⟩

theorem FloorAct.withdraw_thins {a : FloorAct} {p : Pos} (hp : a.floor.holderPos ≠ some p) :
    a.floor.Thins (a.withdraw p).floor := ⟨FloorAct.withdraw_fewer hp, fun _ => FloorAct.withdraw_sound hp⟩

theorem FloorAct.timeOut_thins : a.floor.Thins (a.timeOut limit fair).floor := a.passOn_thins limit _ _

theorem FloorAct.unpin_thins : a.floor.Thins (a.unpin limit fair).floor := a.passOn_thins limit _ _

theorem FloorAct.release_thins : a.floor.Thins (a.release limit fair p).floor := by
  unfold FloorAct.release
  split
  · exact a.passOn_thins limit _ _
  · next hp => exact FloorAct.withdraw_thins hp

theorem FloorAct.leave_thins (why : Option LostReason) : a.floor.Thins (a.leave limit why p).floor := by
  unfold FloorAct.leave
  split
  · exact a.passOn_thins limit _ _
  · next hp =>
    refine .trans ?_ (FloorAct.withdraw_thins (by exact hp))
    exact ⟨.refl _, fun _ => id⟩

end Ends

/-! ### Requests (R79, R83, R86) -/

theorem FloorAct.joinQueue_everyone (a : FloorAct) (g : Grp) (fair : Pos → Bool) (w : Waiter) :
    (a.joinQueue g fair w).floor.everyone.Perm (w.pos :: a.floor.everyone) := by
  have hlast (l k m : List Pos) : (l ++ (k ++ [w.pos]) ++ m).Perm (w.pos :: (l ++ k ++ m)) := by
    simpa using List.perm_middle (l₁ := l ++ k) (l₂ := m) (a := w.pos)
  unfold FloorAct.joinQueue
  split <;> simp only [Floor.everyone, List.map_append, List.map_cons, List.map_nil]
  · exact hlast _ _ _
  · exact (hlast _ _ _).append_right _

theorem FloorAct.joinQueue_ordered {a : FloorAct} {w : Waiter} (h : a.floor.Ordered) (hn : w.pos ∉ a.floor.everyone) (g : Grp)
    (fair : Pos → Bool) : (a.joinQueue g fair w).floor.Ordered := by
  refine ⟨(a.joinQueue_everyone g fair w).nodup_iff.mpr (List.nodup_cons.mpr ⟨hn, h.once⟩), ?_, ?_⟩
  · unfold FloorAct.joinQueue
    split <;> exact h.talkers
  · unfold FloorAct.joinQueue
    split
    · next hc =>
      intro x hx
      rcases List.mem_append.mp hx with hx | hx
      · exact h.behind x hx
      · obtain rfl := List.mem_singleton.mp hx
        simp only [Bool.and_eq_true, List.any_eq_true, beq_iff_eq] at hc
        exact hc.2
    · intro x hx
      obtain ⟨v, hv, he⟩ := h.behind x hx
      exact ⟨v, List.mem_append_left _ hv, he⟩

@[simp] theorem FloorAct.joinQueue_holder (a : FloorAct) (g : Grp) (fair : Pos → Bool) (w : Waiter) :
    (a.joinQueue g fair w).floor.holder = a.floor.holder := by
  unfold FloorAct.joinQueue
  split <;> rfl

theorem FloorAct.handOver_floor (a : FloorAct) (g : Grp) (limit : Level) (fair : Pos → Bool) (w : Waiter) :
    (a.handOver g limit fair w).floor = (((a.joinQueue g fair w).endGrant (some .handedOver) (markFair fair)).grantRule limit).floor := by
  simp only [FloorAct.handOver]
  split <;> rfl

theorem FloorAct.decide_everyone (a : FloorAct) (g : Grp) (limit : Level) (fair : Pos → Bool) (w : Waiter) :
    (a.decide g limit fair w).floor.everyone.Subperm (w.pos :: a.floor.everyone) := by
  unfold FloorAct.decide
  repeat' split
  · exact (a.direct_everyone limit w.holds).subperm
  · exact ((FloorAct.direct_everyone ..).trans ((FloorAct.endGrant_everyone ..).cons_cons _)).subperm
  · rw [FloorAct.handOver_floor]
    exact (FloorAct.passOn_everyone ..).trans (a.joinQueue_everyone g fair w).subperm
  · exact (a.joinQueue_everyone g fair w).subperm

theorem FloorAct.decide_sound {a : FloorAct} {w : Waiter} (h : a.floor.Sound false) (hn : w.pos ∉ a.floor.everyone) (g : Grp)
    (limit : Level) (fair : Pos → Bool) : (a.decide g limit fair w).floor.Sound false := by
  obtain ⟨ho, -⟩ := Floor.sound_managed_iff.mp h
  unfold FloorAct.decide
  split
  · exact FloorAct.direct_sound ho hn limit
  · next x hx =>
    split
    · exact FloorAct.direct_sound (FloorAct.endGrant_ordered _ _ ho) (fun hm => hn ((FloorAct.endGrant_everyone ..).subset hm)) limit
    · split
      · rw [FloorAct.handOver_floor]
        exact FloorAct.grantRule_sound (FloorAct.endGrant_ordered _ _ (FloorAct.joinQueue_ordered ho hn g fair)) limit
      · refine Floor.sound_managed_iff.mpr ⟨FloorAct.joinQueue_ordered ho hn g fair, fun e => ?_⟩
        simp [hx] at e

theorem FloorAct.openTalk_everyone (a : FloorAct) (w : Waiter) :
    (a.openTalk w).floor.everyone = a.floor.everyone ++ [w.pos] := by
  simp [FloorAct.openTalk, Floor.everyone]

theorem FloorAct.openTalk_sound {a : FloorAct} {w : Waiter} (h : a.floor.Sound true) (hn : w.pos ∉ a.floor.everyone) :
    (a.openTalk w).floor.Sound true := by
  obtain ⟨honce, hlists⟩ := Floor.sound_open_iff.mp h
  refine Floor.sound_open_iff.mpr ⟨?_, hlists⟩
  rw [FloorAct.openTalk_everyone, List.nodup_append_comm]
  exact List.nodup_cons.mpr ⟨hn, honce⟩

/-! ### The pin (R87) -/

theorem FloorAct.pin_everyone (a : FloorAct) (limit : Level) (fair : Pos → Bool) (p : Pos) :
    (a.pin limit fair p).floor.everyone.Subperm (p :: a.floor.everyone) := by
  unfold FloorAct.pin
  split
  · refine List.Sublist.subperm ?_
    simp [Floor.everyone, pinnedHolder]
  · next hp =>
    refine (FloorAct.direct_everyone ..).subperm.trans ((List.subperm_cons _).mpr ?_)
    exact (FloorAct.endGrant_everyone ..).subperm.trans (FloorAct.withdraw_fewer hp)

theorem FloorAct.pin_sound {a : FloorAct} (h : a.floor.Sound false) (limit : Level) (fair : Pos → Bool) (p : Pos) :
    (a.pin limit fair p).floor.Sound false := by
  obtain ⟨ho, -⟩ := Floor.sound_managed_iff.mp h
  unfold FloorAct.pin
  split
  · next hp =>
    obtain ⟨x, hx, rfl⟩ : ∃ x, a.floor.holder = some x ∧ x.pos = p := by simpa [Floor.holderPos] using hp
    refine Floor.sound_managed_iff.mpr ⟨⟨?_, ho.talkers, ho.behind⟩, fun e => by simp at e⟩
    simpa [Floor.everyone, hx, pinnedHolder] using ho.once
  · next hp =>
    refine FloorAct.direct_sound (FloorAct.endGrant_ordered _ _ (FloorAct.withdraw_ordered hp ho)) (fun hm => ?_) limit
    have hleft := (FloorAct.withdraw_everyone hp).subset ((FloorAct.endGrant_everyone ..).subset hm)
    simp [pinnedHolder] at hleft

end Sys2Proof.Machine
end

section
/-! The commands that leave GFU's records alone: all but those by which GFU takes something. -/

namespace Sys2Proof.Machine

theorem State.gfu_of_owners {s t : State} (h : t.owners = s.owners) : t.gfu = s.gfu := congrArg Prod.snd h

theorem State.dispatchIf_gfu {k : ReqKind} {n : Port} {ok : List Byte → Bool} {own : List Byte → State → State}
    (h : ∀ b t, (own b t).gfu = t.gfu) (s : State) : (s.dispatchIf k n ok own).gfu = s.gfu :=
  State.dispatchIf_keeps State.gfu (fun _ _ _ => rfl) State.answer_gfu h s

theorem State.request_gfu {k : ReqKind} {r : Requester} {own : Pos → Via → List Byte → State → State}
    (h : ∀ p v b t, (own p v b t).gfu = t.gfu) (s : State) : (s.request k r own).gfu = s.gfu :=
  State.request_keeps State.gfu (fun _ _ _ => rfl) State.answer_gfu (fun _ _ => rfl) h s

/-! ### LCU -/

@[simp] theorem State.dropGrant_gfu (s : State) (w : Waiting) (granted ofReset : Bool) : (s.dropGrant w granted ofReset).gfu = s.gfu := by
  unfold State.dropGrant
  split <;> rfl

@[simp] theorem State.lcuTake_gfu (s : State) (p : Pos) (h : Handset) (v : Via) (l : Line) : (s.lcuTake p h v l).gfu = s.gfu := by
  unfold State.lcuTake
  repeat' split
  all_goals rfl

@[simp] theorem State.lcuAnswer_gfu (s : State) (w : Waiting) (granted : Bool) : (s.lcuAnswer w granted).gfu = s.gfu := by
  unfold State.lcuAnswer
  repeat' split
  all_goals simp [State.refuseTake, State.askCoverage, State.finishTake]

@[simp] theorem State.lcuHold_gfu (s : State) (p : Pos) (h : Handset) (v : Via) (l : Line) : (s.lcuHold p h v l).gfu = s.gfu := by
  unfold State.lcuHold
  repeat' split
  all_goals simp

@[simp] theorem State.setPrivacy_gfu (s : State) (p : Pos) (v : Via) (b : List Byte) : (s.setPrivacy p v b).gfu = s.gfu := by
  unfold State.setPrivacy
  repeat' split
  all_goals simp

@[simp] theorem State.signalLine_gfu (s : State) (p : Pos) (v : Via) (b : List Byte) : (s.signalLine p v b).gfu = s.gfu := by
  unfold State.signalLine
  repeat' split
  all_goals simp

@[simp] theorem State.lineConfig_gfu (s : State) (n : Port) (b : List Byte) : (s.lineConfig n b).gfu = s.gfu := by
  unfold State.lineConfig
  repeat' split
  all_goals simp

@[simp] theorem State.lineOut_gfu (s : State) (l : Line) : (s.lineOut l).gfu = s.gfu := by
  simp only [State.lineOut]
  repeat' split
  all_goals rfl

@[simp] theorem State.lineIn_gfu (s : State) (n : Port) (l : Line) : (s.lineIn n l).gfu = s.gfu := by
  unfold State.lineIn
  repeat' split
  all_goals simp

@[simp] theorem State.changeApp_gfu (s : State) (l : Line) (p : Pos) (m : AppMode) : (s.changeApp l p m).gfu = s.gfu := by
  simp only [State.changeApp]
  repeat' split
  all_goals rfl

@[simp] theorem State.setBars_gfu (s : State) (q : Line → Pos → Bool) (on : Bool) : (s.setBars q on).gfu = s.gfu := by
  simp only [State.setBars]
  split <;> rfl

@[simp] theorem State.lineDetach_gfu (s : State) (l : Line) (g : Grp) : (s.lineDetach l g).gfu = s.gfu := by
  unfold State.lineDetach
  split <;> rfl

@[simp] theorem State.completeReset_gfu (s : State) : s.completeReset.gfu = s.gfu := by
  have hfold (ls : List Line) (u : State) :
      (ls.foldl (fun u l => u.applyLine l (lcuCompletes l (u.row l) (u.line l))) u).gfu = u.gfu := by
    induction ls generalizing u with
    | nil => rfl
    | cons l ls ih => exact ih _
  simp only [State.completeReset, State.answer_gfu]
  exact hfold _ s

@[simp] theorem State.queryGroupRec_gfu (s : State) (n : Port) (b : Byte) (body : GroupRec → List Byte) :
    (s.queryGroupRec n b body).gfu = s.gfu := by
  unfold State.queryGroupRec
  repeat' split
  all_goals simp

/-! ### Every such command -/

/-- The commands by which GFU takes something of its own: a request, a message, a notice, a report, an expiry or a reset. -/
def Instr.movesGfu : Instr → Bool
  | .powerOnReset .. | .returnNotice .. | .releaseAtOwner .. | .positionDownAtGfu .. | .standingUpNotice .. | .groupConfig ..
  | .joinGroupAtGfu .. | .attachAnswer .. | .hootDetach .. | .hootLineRemoval .. | .listenOn | .listenOff | .callConfig ..
  | .callPositionAtGfu .. | .answerCallAtGfu .. | .declineCall .. | .callAlertExpiry .. | .floorRequest .. | .floorRelease ..
  | .holdTimerExpiry .. | .pinFloor .. | .unpin .. | .voxActiveReport .. | .voxQuietReport .. | .softResetAtGfu => true
  | _ => false

theorem exec_gfu {i : Instr} (hi : Instr.movesGfu i = false) (s : State) : ∃ t, exec i s = .next t ∧ t.gfu = s.gfu := by
  cases i with
  | powerOnReset | returnNotice | releaseAtOwner | positionDownAtGfu | standingUpNotice | groupConfig | joinGroupAtGfu
  | attachAnswer | hootDetach | hootLineRemoval | listenOn | listenOff | callConfig | callPositionAtGfu | answerCallAtGfu
  | declineCall | callAlertExpiry | floorRequest | floorRelease | holdTimerExpiry | pinFloor | unpin | voxActiveReport
  | voxQuietReport | softResetAtGfu => simp [Instr.movesGfu] at hi
  -- An expiry, a notice or a message that moves records of one other block.
  | farSeizeChange | qualifyExpiry | answerExpiry | ringOutExpiry | holdRecallExpiry | guardExpiry | talkReport
  | positionDownAtLcu | attachQuestion | attachOutcome | positionDownAtPtb | positionDownAtSqu | changeNotice | derivationStart
  | audioFrame | syncFound | replySend | eventFrame | testFrameSend | frameSent | recordPlacement =>
    simp only [exec, execFarSeizeChange, execQualifyExpiry, execAnswerExpiry, execRingOutExpiry, execHoldRecallExpiry,
      execGuardExpiry, execTalkReport, execPositionDownAtLcu, execAttachQuestion, execAttachOutcome, execPositionDownAtPtb,
      execPositionDownAtSqu, execChangeNotice, execDerivationStart, execAudioFrame, execSyncFound, execReplySend,
      execEventFrame, execTestFrameSend, execFrameSent, execRecordPlacement]
    repeat' split
    all_goals exact ⟨_, rfl, rfl⟩
  | coverageReservation | coverageRelease | recorderPresentChange | listInstall | linkLossTimerExpiry | linkUpTimerExpiry
  | positionDownAtEvu | frameOpen | receiverHunt | frameClose | frameAbort | frameError | unknownRequest =>
    simp only [exec, execCoverageReservation, execCoverageRelease, execRecorderPresentChange, execListInstall,
      execLinkLossTimerExpiry, execLinkUpTimerExpiry, execPositionDownAtEvu, execFrameOpen, execReceiverHunt, execFrameClose,
      execFrameAbort, execFrameError, execUnknownRequest]
    repeat' split
    all_goals
      refine ⟨_, rfl, State.gfu_of_owners ?_⟩
      simp [State.reserve_owners, State.releaseCover_owners, State.recorderChange_owners, State.install_owners,
        State.takeOpen_owners, State.hear_owners]
  | softResetCompletion =>
    simp only [exec, execSoftResetCompletion]
    repeat' split
    case h_1.isTrue => exact ⟨_, rfl, s.completeReset_gfu⟩
    all_goals exact ⟨_, rfl, rfl⟩
  -- A message that is taken from its path.
  | takeLineAtLcu | holdAtLcu =>
    simp only [exec, execTakeLineAtLcu, execHoldAtLcu]
    split
    · next e =>
      have ht := State.gfu_of_owners (State.nextForHandset_owners e)
      repeat' split
      all_goals exact ⟨_, rfl, by simp [ht]⟩
    · exact ⟨_, rfl, rfl⟩
  | speakerQuestion =>
    simp only [exec, execSpeakerQuestion]
    split
    · next e =>
      exact ⟨_, rfl, State.gfu_of_owners ((State.answerSpeaker_owners ..).trans (State.nextForSpeaker_owners e))⟩
    · exact ⟨_, rfl, rfl⟩
  | finalClaim | releaseNotice =>
    simp only [exec, execFinalClaim, execReleaseNotice]
    split
    · next e =>
      have ht := State.heardOfHandset_owners e
      exact ⟨_, rfl, State.gfu_of_owners (by simp [ht, State.takeOutcome_owners])⟩
    · exact ⟨_, rfl, rfl⟩
  | assignmentAnswer | removalNotice =>
    simp only [exec, execAssignmentAnswer, execRemovalNotice]
    split
    · next e =>
      have ht := State.heardOfSpeakers_owners e
      exact ⟨_, rfl, State.gfu_of_owners (by simp [ht, State.takeAnswer_owners, State.offTarget_owners])⟩
    · exact ⟨_, rfl, rfl⟩
  | reservationAnswer p h =>
    change ∃ t, execReservationAnswer p h s = .next t ∧ _
    unfold execReservationAnswer
    split
    · exact ⟨_, rfl, State.lcuAnswer_gfu ..⟩
    · exact ⟨_, rfl, rfl⟩
  | stepOutcome p =>
    change ∃ t, execStepOutcome p s = .next t ∧ _
    cases ho : s.chan.outcomes.look p with
    | none => exact ⟨s, by simp only [execStepOutcome, ho], rfl⟩
    | some c =>
      rcases hr : (s.runOf p).state with _ | ⟨k, first, abort⟩ | _ | _ <;> simp only [execStepOutcome, ho, hr]
      case waiting => exact ⟨_, rfl, State.gfu_of_owners (State.stepOutcome_owners ..)⟩
      all_goals exact ⟨_, rfl, rfl⟩
  | pauseExpiry p =>
    change ∃ t, execPauseExpiry p s = .next t ∧ _
    unfold execPauseExpiry
    split
    · exact ⟨_, rfl, State.gfu_of_owners (by simp)⟩
    · exact ⟨_, rfl, rfl⟩
  -- A request of a position.
  | takeLine r => exact ⟨_, rfl, State.request_gfu (fun p v b t => State.gfu_of_owners (t.ptbTake_owners p v b)) s⟩
  | joinGroup r => exact ⟨_, rfl, State.request_gfu (fun p v b t => State.gfu_of_owners (t.ptbJoin_owners p v b)) s⟩
  | callPosition r => exact ⟨_, rfl, State.request_gfu (fun p v b t => State.gfu_of_owners (t.ptbCall_owners p v b)) s⟩
  | answerCall n => exact ⟨_, rfl, State.request_gfu (fun p v b t => State.gfu_of_owners (t.ptbAnswer_owners p v b)) s⟩
  | release r => exact ⟨_, rfl, State.request_gfu (fun p v b t => State.gfu_of_owners (t.ptbRelease_owners p v b)) s⟩
  | hold r => exact ⟨_, rfl, State.request_gfu (fun p v b t => State.gfu_of_owners (t.ptbHold_owners p v b)) s⟩
  | mute n => exact ⟨_, rfl, State.request_gfu (fun p v b t => State.gfu_of_owners (t.ptbMute_owners p v b)) s⟩
  | assignSpeaker r => exact ⟨_, rfl, State.request_gfu (fun p v b t => State.gfu_of_owners (t.ptbAssign_owners p v b)) s⟩
  | abortSequence n => exact ⟨_, rfl, State.request_gfu (fun p v _ t => State.gfu_of_owners (t.abortRun_owners p v)) s⟩
  | setPrivacy r => exact ⟨_, rfl, State.request_gfu (fun p v b t => t.setPrivacy_gfu p v b) s⟩
  | signalLine r => exact ⟨_, rfl, State.request_gfu (fun p v b t => t.signalLine_gfu p v b) s⟩
  | runSequence n =>
    refine ⟨_, rfl, State.request_gfu (fun p v b t => State.gfu_of_owners ?_) s⟩
    split <;> simp
  | setVolume r =>
    cases r with
    | port n => exact ⟨_, rfl, State.dispatchIf_gfu (fun b t => State.gfu_of_owners (t.setVolume_owners ..)) s⟩
    | run p =>
      refine ⟨_, rfl, ?_⟩
      unfold State.takeStep
      repeat' split
      case isTrue => exact State.gfu_of_owners (State.setVolume_owners ..)
      all_goals rfl
  -- A request of a port about a tap or about a port.
  | tapSet | tapDisable | tapEnable | tapLock | tapUnlock | tapFix | queryTap =>
    refine ⟨_, rfl, State.gfu_of_owners (State.tapRequest_owners (fun r b t => ?_) s)⟩
    repeat' split
    all_goals simp [State.tapSet_owners]
  | statusRead | eventSetup | portReset =>
    refine ⟨_, rfl, State.gfu_of_owners (State.dispatch_owners (fun b t => State.portRequest_owners (fun m u => ?_) t) s)⟩
    repeat' split
    all_goals exact State.answer_owners ..
  -- Any other request of a port.
  | lineConfig | lineServiceOut | lineServiceIn | appearanceSet | appearanceBar | queryPosition | positionConfig | hootAttach
  | queryGroup | legLevel | queryLeg | querySource | stepRead | testFrame | fetchEvents | summary | resetArm =>
    refine ⟨_, rfl, State.dispatchIf_gfu (fun b t => ?_) s⟩
    repeat' split
    all_goals simp [State.tellLcu]
  | queryLine | detectorConfig | stepWrite | identify =>
    refine ⟨_, rfl, State.dispatchIf_gfu (fun b t => ?_) s⟩
    dsimp only
    repeat' split
    all_goals exact State.answer_gfu ..
  | portMode =>
    refine ⟨_, rfl, State.gfu_of_owners (State.dispatch_owners (fun b t => ?_) s)⟩
    repeat' split
    all_goals simp
  | resetExecute =>
    refine ⟨_, rfl, State.dispatchIf_gfu (fun b t => ?_) s⟩
    split
    · rfl
    · simp
  -- The soft reset at the owners that hold no group and no call.
  | softResetAtPtb | softResetAtLcu | softResetAtCmx | softResetAtRtu | softResetAtSqu =>
    refine ⟨_, rfl, ?_⟩
    unfold State.ownerReset
    repeat' split
    all_goals rfl

end Sys2Proof.Machine
end

section
/-! What each change that GFU makes keeps of the three invariants of O59 (R56, R76, R80, R83, R84, R91). -/

namespace Sys2Proof.Machine

/-! ### One group record -/

theorem GroupRec.inUse_eq_false_iff {r : GroupRec} :
    r.inUse = false ↔
      r.joined = [] ∧ (∀ p, r.listening.look p = false) ∧ r.attached = [] ∧ r.floor.everyone = [] := by
  simp [GroupRec.inUse, posList, List.filter_eq_nil_iff, and_assoc]

/-- A record whose floor is as its rules leave it (R76, R91). -/
def GroupRec.FloorFits (r : GroupRec) : Prop := r.floor.Sound r.openMode ∧ (r.kind ≠ .hoot → r.floor.everyone = [])

/-- A record that is idle if its kind is UNUSED (R56). -/
def GroupRec.IdleIfUnused (r : GroupRec) : Prop := r.kind = .unused → r.inUse = false

/-- A change of a group's record that brings nobody onto its floor, and leaves the floor fit and an UNUSED group idle. -/
structure GroupRec.Calms (r r' : GroupRec) : Prop where
  fits : r.FloorFits → r'.FloorFits
  fewer : r'.floor.everyone.Subperm r.floor.everyone
  idle : r.IdleIfUnused → r'.IdleIfUnused

namespace GroupRec.Calms

theorem refl (r : GroupRec) : r.Calms r := ⟨id, .refl _, id⟩

theorem trans {r r' r'' : GroupRec} (h : r.Calms r') (k : r'.Calms r'') : r.Calms r'' :=
  ⟨k.fits ∘ h.fits, k.fewer.trans h.fewer, k.idle ∘ h.idle⟩

/-- A change that leaves kind, mode and floor, and puts nothing into an UNUSED group. -/
theorem of_floor {r r' : GroupRec} (hk : r'.kind = r.kind) (hm : r'.openMode = r.openMode) (hf : r'.floor = r.floor)
    (hi : r.kind = .unused → r.inUse = false → r'.inUse = false) : r.Calms r' := by
  refine ⟨fun h => ?_, by rw [hf], fun h hu => ?_⟩
  · simpa only [GroupRec.FloorFits, hf, hk, hm] using h
  · rw [hk] at hu
    exact hi hu (h hu)

/-- A change of the floor by which nobody comes onto it. -/
theorem of_thins {r : GroupRec} {f : Floor} (h : r.floor.Thins f) : r.Calms { r with floor := f } := by
  have hnil (hn : r.floor.everyone = []) : f.everyone = [] := List.subperm_nil.mp (hn ▸ h.fewer)
  refine ⟨fun ⟨hs, hk⟩ => ⟨h.sound _ hs, fun hn => hnil (hk hn)⟩, h.fewer, fun hi hu => ?_⟩
  obtain ⟨hj, hl, ha, hf⟩ := GroupRec.inUse_eq_false_iff.mp (hi hu)
  exact GroupRec.inUse_eq_false_iff.mpr ⟨hj, hl, ha, hnil hf⟩

/-- Handsets leave the joined list. -/
theorem of_joined {r : GroupRec} {joined : List (Pos × Handset)} (h : joined.Sublist r.joined) :
    r.Calms { r with joined := joined } := by
  refine of_floor rfl rfl rfl fun _ hu => ?_
  obtain ⟨hj, hrest⟩ := GroupRec.inUse_eq_false_iff.mp hu
  exact GroupRec.inUse_eq_false_iff.mpr ⟨List.sublist_nil.mp (hj ▸ h), hrest⟩

/-- Lines leave the attached list. -/
theorem of_attached {r : GroupRec} {ls : List Line} (h : ls.Sublist r.attached) : r.Calms { r with attached := ls } := by
  refine of_floor rfl rfl rfl fun _ hu => ?_
  obtain ⟨hj, hl, ha, hf⟩ := GroupRec.inUse_eq_false_iff.mp hu
  exact GroupRec.inUse_eq_false_iff.mpr ⟨hj, hl, List.sublist_nil.mp (ha ▸ h), hf⟩

/-- A position leaves the listening set. -/
theorem of_listening (r : GroupRec) (p : Pos) : r.Calms { r with listening := r.listening.put p false } := by
  refine of_floor rfl rfl rfl fun _ hu => ?_
  obtain ⟨hj, hl, hrest⟩ := GroupRec.inUse_eq_false_iff.mp hu
  refine GroupRec.inUse_eq_false_iff.mpr ⟨hj, fun q => ?_, hrest⟩
  simp [hl q]

/-- A change of a group that is not of kind UNUSED, which leaves kind, mode and floor. -/
theorem of_used {r r' : GroupRec} (hu : r.kind ≠ .unused) (hk : r'.kind = r.kind) (hm : r'.openMode = r.openMode)
    (hf : r'.floor = r.floor) : r.Calms r' := of_floor hk hm hf fun h => absurd h hu

end GroupRec.Calms

/-! ### GROUP_CONFIG (R58, R59, R91, R93) -/

theorem GroupRec.loss_thins (kind : GroupKind) (g : Grp) (p : Pos) (r : GroupRec) : r.floor.Thins (r.loss kind g p).1.floor := by
  cases kind with
  | unused => exact .refl _
  | intercom =>
    rw [GroupRec.loss]
    split <;> exact .refl _
  | hoot => exact FloorAct.leave_thins { floor := r.floor } ..

theorem GroupRec.losses_thins (kind : GroupKind) (g : Grp) (ps : List Pos) (r : GroupRec) :
    r.floor.Thins (r.losses kind g ps).1.floor := by
  induction ps generalizing r with
  | nil => exact .refl _
  | cons p ps ih => exact (r.loss_thins kind g p).trans (ih _)

theorem GroupRec.losses_unused (g : Grp) (ps : List Pos) (r : GroupRec) : (r.losses .unused g ps).1 = r := by
  induction ps generalizing r with
  | nil => rfl
  | cons p ps ih => exact ih r

theorem GroupRec.losses_configured (r : GroupRec) (kind : GroupKind) (g : Grp) (ps : List Pos) (c : GroupConfig) :
    ((r.configured c).losses kind g ps).1.kind = c.kind ∧ ((r.configured c).losses kind g ps).1.openMode = c.openMode := by
  obtain ⟨joined, floor, hl⟩ := (r.configured c).losses_fst kind g ps
  rw [hl]
  exact ⟨rfl, rfl⟩

/-- Positions removed by a GROUP_CONFIG that changes neither the kind nor the mode of a HOOT group. -/
theorem GroupRec.losses_calms {r : GroupRec} {c : GroupConfig} (hk : r.kind = c.kind) (hm : r.kind = .hoot → r.openMode = c.openMode)
    (g : Grp) (ps : List Pos) : r.Calms ((r.configured c).losses r.kind g ps).1 := by
  have hthins : r.floor.Thins ((r.configured c).losses r.kind g ps).1.floor :=
    GroupRec.losses_thins r.kind g ps (r.configured c)
  obtain ⟨hkind, hmode⟩ := r.losses_configured r.kind g ps c
  rw [← hk] at hkind
  have hnil (hn : r.floor.everyone = []) : ((r.configured c).losses r.kind g ps).1.floor.everyone = [] :=
    List.subperm_nil.mp (hn ▸ hthins.fewer)
  refine ⟨fun ⟨hs, hn⟩ => ⟨?_, fun h => hnil (hn (hkind ▸ h))⟩, hthins.fewer, fun hi hu => ?_⟩
  · by_cases hr : r.kind = .hoot
    · rw [hmode, ← hm hr]
      exact hthins.sound _ hs
    · exact Floor.sound_of_everyone_nil (hnil (hn hr)) _
  · rw [hkind] at hu
    rw [hu, GroupRec.losses_unused]
    exact hi hu

theorem GroupRec.reconfigured_calms {r : GroupRec} {c : GroupConfig} (h : r.kind = c.kind ∨ r.inUse = false) (g : Grp) :
    r.Calms (r.reconfigured g c).1 := by
  by_cases hk : r.kind = c.kind
  · simp only [GroupRec.reconfigured, if_pos hk]
    split
    · next hm =>
      obtain ⟨hkind, -⟩ := r.losses_configured r.kind g (removedFrom r.allow c.allow) c
      refine ⟨fun _ => ⟨Floor.sound_of_everyone_nil rfl _, fun _ => rfl⟩, List.nil_subperm, fun _ hu => ?_⟩
      have hc : c.kind = .unused := hkind.symm.trans hu
      simp [← hk, hm.1] at hc
    · next hm => exact GroupRec.losses_calms hk (fun hr => by_contra fun hne => hm ⟨hr, hne⟩) g _
  · rw [GroupRec.reconfigured_of_kind hk (h.resolve_left hk)]
    refine ⟨fun _ => ⟨Floor.sound_of_everyone_nil rfl _, fun _ => rfl⟩, List.nil_subperm, fun _ _ => ?_⟩
    exact GroupRec.inUse_eq_false_iff.mpr ⟨rfl, fun p => Table.look_fill .., rfl, rfl⟩

/-! ### The state -/

/-- The next state keeps the three invariants. -/
structure State.HoldsFloors (s t : State) : Prop where
  sound : s.FloorsSound → t.FloorsSound
  mics : s.MicsEngagedOnce → t.MicsEngagedOnce
  idle : s.UnusedGroupsIdle → t.UnusedGroupsIdle

namespace State.HoldsFloors

theorem trans {s t u : State} (h : s.HoldsFloors t) (k : t.HoldsFloors u) : s.HoldsFloors u :=
  ⟨k.sound ∘ h.sound, k.mics ∘ h.mics, k.idle ∘ h.idle⟩

/-- Every group is calmer. -/
theorem of_calms {s t : State} (h : ∀ g, (s.group g).Calms (t.group g)) : s.HoldsFloors t := by
  refine ⟨fun hs g => (h g).fits (hs g), fun hs p g k hg hk => hs p g k ?_ ?_, fun hs g => (h g).idle (hs g)⟩
  · exact Floor.engaged_iff.mpr ((h g).fewer.subset (Floor.engaged_iff.mp hg))
  · exact Floor.engaged_iff.mpr ((h k).fewer.subset (Floor.engaged_iff.mp hk))

theorem of_groups {s t : State} (h : t.gfu.groups = s.gfu.groups) : s.HoldsFloors t :=
  of_calms fun g => by rw [State.group, State.group, h]; exact .refl _

theorem refl (s : State) : s.HoldsFloors s := of_groups rfl

theorem then_gfu {s t u : State} (h : s.HoldsFloors t) (e : u.gfu = t.gfu) : s.HoldsFloors u := h.trans (of_groups (by rw [e]))

theorem after {s t u : State} (e : t.gfu = s.gfu) (h : t.HoldsFloors u) : s.HoldsFloors u :=
  (of_groups (by rw [e])).trans h

theorem answer (s : State) (r : Requester) (c : Code) (b : List Byte) : s.HoldsFloors (s.answer r c b) :=
  (refl s).then_gfu (State.answer_gfu ..)

theorem reply (s : State) (p : Pos) (v : Via) (c : Code) : s.HoldsFloors (s.reply p v c) := (refl s).then_gfu (State.reply_gfu ..)

theorem setGroup {s : State} {g : Grp} {r : GroupRec} (h : (s.group g).Calms r) : s.HoldsFloors (s.setGroup g r) := by
  refine of_calms fun k => ?_
  rw [State.setGroup_group]
  split
  · next e => exact e ▸ h
  · exact .refl _

theorem foldl {α : Type} {f : State → α → State} (h : ∀ (u : State) a, u.HoldsFloors (f u a)) (l : List α) (s : State) :
    s.HoldsFloors (l.foldl f s) := by
  induction l generalizing s with
  | nil => exact .refl s
  | cons a l ih => exact (h s a).trans (ih _)

theorem dispatchIf {k : ReqKind} {n : Port} {ok : List Byte → Bool} {own : List Byte → State → State}
    (h : ∀ b (t : State), t.HoldsFloors (own b t)) (s : State) : s.HoldsFloors (s.dispatchIf k n ok own) :=
  State.dispatchIf_preserves (s.HoldsFloors ·) (fun _ _ _ ht => ht.then_gfu rfl)
    (fun _ _ _ _ ht => ht.then_gfu (State.answer_gfu ..)) (fun b t ht => ht.trans (h b t)) s (.refl s)

theorem request {k : ReqKind} {r : Requester} {own : Pos → Via → List Byte → State → State}
    (h : ∀ p v b (t : State), t.HoldsFloors (own p v b t)) (s : State) : s.HoldsFloors (s.request k r own) :=
  State.request_preserves (s.HoldsFloors ·) (fun _ _ _ ht => ht.then_gfu rfl)
    (fun _ _ _ _ ht => ht.then_gfu (State.answer_gfu ..)) (fun _ _ ht => ht.then_gfu rfl)
    (fun p v b t ht => ht.trans (h p v b t)) s (.refl s)

/-- A cause that brings nobody onto the floor. -/
theorem actFloorFor {s : State} {g : Grp} {act : FloorAct → FloorAct}
    (h : (s.group g).floor.Thins (act { floor := (s.group g).floor }).floor) (hearers : PosSet) :
    s.HoldsFloors (s.actFloorFor g hearers act) := (setGroup (.of_thins h)).then_gfu rfl

theorem actFloor {s : State} {g : Grp} {act : FloorAct → FloorAct}
    (h : (s.group g).floor.Thins (act { floor := (s.group g).floor }).floor) : s.HoldsFloors (s.actFloor g act) :=
  actFloorFor h _

/-- A cause that may bring onto the floor of a HOOT group a position that is engaged on no other (R76). -/
theorem engage {s : State} {g : Grp} {p : Pos} {act : FloorAct → FloorAct} (hk : (s.group g).kind = .hoot)
    (he : s.engagedElsewhere p g = false)
    (hmore : (act { floor := (s.group g).floor }).floor.everyone.Subperm (p :: (s.group g).floor.everyone))
    (hs : (s.group g).floor.Sound (s.group g).openMode → (act { floor := (s.group g).floor }).floor.Sound (s.group g).openMode) :
    s.HoldsFloors (s.actFloor g act) := by
  have hgroup (k : Grp) : (s.actFloor g act).group k =
      if g = k then { s.group g with floor := (act { floor := (s.group g).floor }).floor } else s.group k := by
    rw [State.actFloor, State.actFloorFor, State.emit_group, State.setGroup_group]
  have hcame {k : Grp} {q : Pos} (hq : ((s.actFloor g act).group k).floor.engaged q = true) :
      (s.group k).floor.engaged q = true ∨ k = g ∧ q = p := by
    rw [hgroup] at hq
    split at hq
    · next e =>
      subst e
      rcases List.mem_cons.mp (hmore.subset (Floor.engaged_iff.mp hq)) with hq | hq
      · exact .inr ⟨rfl, hq⟩
      · exact .inl (Floor.engaged_iff.mpr hq)
    · exact .inl hq
  have helse {k : Grp} (hp : (s.group k).floor.engaged p = true) : k = g := by
    by_contra hne
    simp only [State.engagedElsewhere, List.any_eq_false, List.mem_finRange, true_implies] at he
    exact he k (by simpa [hp] using hne)
  refine ⟨fun hfit k => ?_, fun honce q j k hj hk => ?_, fun hidle k => ?_⟩
  · rw [hgroup]
    split
    · exact ⟨hs (hfit g).1, fun hn => absurd hk hn⟩
    · exact hfit k
  · obtain hj' | ⟨rfl, rfl⟩ := hcame hj
    · obtain hk' | ⟨rfl, rfl⟩ := hcame hk
      · exact honce q j k hj' hk'
      · exact helse hj'
    · obtain hk' | ⟨rfl, -⟩ := hcame hk
      · exact (helse hk').symm
      · rfl
  · rw [hgroup]
    split
    · exact fun hu => by simp [hk] at hu
    · exact hidle k

end State.HoldsFloors

open State (HoldsFloors)

/-! ### Floors (R78, R79, R82, R85 to R90) -/

/-- A request that finds the position engaged nowhere. -/
theorem State.takeFloor_holdsFloors {s : State} {p : Pos} {g : Grp} (hk : (s.group g).kind = .hoot)
    (he : s.engagedElsewhere p g = false) (hn : (s.group g).floor.engaged p = false) (latched : Bool) (o : Origin) :
    s.HoldsFloors (s.takeFloor p g latched o) := by
  have hn' : p ∉ (s.group g).floor.everyone := fun hm => by simp [Floor.engaged_iff.mpr hm] at hn
  refine HoldsFloors.engage hk he ?_ fun hs => ?_
  · split
    · rw [FloorAct.openTalk_everyone]
      exact (List.perm_append_singleton ..).subperm
    · exact FloorAct.decide_everyone ..
  · split
    · next hm => exact hm ▸ FloorAct.openTalk_sound (by simpa only [hm] using hs) hn'
    · next hm =>
      rw [Bool.not_eq_true] at hm
      exact hm ▸ FloorAct.decide_sound (by simpa only [hm] using hs) hn' ..

/-- A request that passes R78 is for a HOOT group, by a position engaged nowhere. -/
theorem State.floorCheck_none {s : State} {p : Pos} {g : Grp} (h : s.floorCheck p g = none) :
    (s.group g).kind = .hoot ∧ s.engagedElsewhere p g = false ∧ (s.group g).floor.engaged p = false := by
  unfold State.floorCheck at h
  repeat' split at h
  all_goals simp_all [State.mayTalk]

theorem State.floorRequest_holdsFloors (s : State) (p : Pos) (v : Via) (b : List Byte) : s.HoldsFloors (s.floorRequest p v b) := by
  unfold State.floorRequest
  split
  · split
    · exact .reply ..
    · next h =>
      obtain ⟨hk, he, hn⟩ := State.floorCheck_none h
      exact (State.takeFloor_holdsFloors hk he hn ..).trans (.reply ..)
  · exact .reply ..

theorem State.floorRelease_holdsFloors (s : State) (p : Pos) (v : Via) (b : List Byte) : s.HoldsFloors (s.floorRelease p v b) := by
  simp only [State.floorRelease]
  repeat' split
  case h_2.isFalse.isTrue => exact (HoldsFloors.actFloor (FloorAct.release_thins { floor := _ } ..)).trans (.reply ..)
  all_goals exact .reply ..

/-- PIN_FLOOR passes its checks for a MANAGED HOOT group, and a position that holds its floor or is engaged on no other (R87). -/
theorem State.pinCheck_none {s : State} {g : Grp} {p : Pos} (h : s.pinCheck g p = none) :
    (s.group g).kind = .hoot ∧ (s.group g).openMode = false ∧ s.engagedElsewhere p g = false := by
  unfold State.pinCheck at h
  repeat' split at h
  all_goals simp_all

theorem State.pin_holdsFloors {s : State} {g : Grp} {p : Pos} (h : s.pinCheck g p = none) :
    s.HoldsFloors (s.actFloor g fun a => a.pin (s.group g).holdLimit s.fair p) := by
  obtain ⟨hk, hm, he⟩ := State.pinCheck_none h
  refine HoldsFloors.engage hk he (FloorAct.pin_everyone ..) fun hs => ?_
  rw [hm] at hs ⊢
  exact FloorAct.pin_sound hs ..

theorem State.voxGroup_hoot {s : State} {p : Pos} {g : Grp} (h : s.voxGroup p = some g) : (s.group g).kind = .hoot := by
  obtain ⟨k, -, hk⟩ := List.exists_of_findSome?_eq_some h
  repeat' split at hk
  all_goals simp_all

theorem State.voxActive_holdsFloors (s : State) (p : Pos) : s.HoldsFloors (s.voxActive p) := by
  unfold State.voxActive
  repeat' split
  case h_2.isTrue hc _ g hg _ =>
    simp only [Bool.and_eq_true, Bool.not_eq_true', List.any_eq_false, List.mem_finRange, true_implies] at hc
    refine State.takeFloor_holdsFloors (State.voxGroup_hoot hg) ?_ (by simpa using hc.2 g) ..
    simp [State.engagedElsewhere, hc.2]
  all_goals exact .refl s

theorem State.voxQuiet_holdsFloors (s : State) (p : Pos) : s.HoldsFloors (s.voxQuiet p) := by
  unfold State.voxQuiet
  split
  · exact .refl s
  · exact .actFloor (FloorAct.release_thins { floor := _ } ..)

/-! ### Groups, lines and listeners (R58, R60 to R63, R66) -/

theorem State.leaveGroup_holdsFloors (s : State) (g : Grp) (p : Pos) : s.HoldsFloors (s.leaveGroup g p) :=
  (HoldsFloors.setGroup (.of_joined List.filter_sublist)).then_gfu rfl

/-- A handset joins an INTERCOM group (R60). -/
theorem State.gfuJoin_holdsFloors (s : State) (p : Pos) (h : Handset) (v : Via) (g : Grp) : s.HoldsFloors (s.gfuJoin p h v g) := by
  unfold State.gfuJoin
  split
  · exact (HoldsFloors.refl s).then_gfu rfl
  · next e =>
    obtain ⟨hj, -⟩ := Option.or_eq_none_iff.mp e
    have hk : (s.group g).kind = .intercom := by
      by_contra hk
      simp [joinCheck, hk] at hj
    refine (HoldsFloors.setGroup (.of_used (by simp [hk]) ?_ ?_ ?_)).then_gfu rfl <;> rfl

theorem State.configGroup_holdsFloors {s : State} {g : Grp} {c : GroupConfig}
    (h : (s.group g).kind = c.kind ∨ (s.group g).inUse = false) : s.HoldsFloors (s.configGroup g c) := by
  rw [State.configGroup_eq]
  exact (HoldsFloors.setGroup (GroupRec.reconfigured_calms h g)).then_gfu rfl

theorem State.detach_holdsFloors (s : State) (g : Grp) (q : Line → Bool) :
    s.HoldsFloors (s.setAttached g ((s.group g).attached.filter q)) :=
  (HoldsFloors.setGroup (.of_attached List.filter_sublist)).then_gfu rfl

/-- A line is attached to a HOOT group (R62). -/
theorem State.attach_holdsFloors {s : State} {l : Line} {g : Grp} {state : LineState} {kind : LineKind} {hoot : Option Grp}
    (h : attachCheck (s.group g) g state kind hoot = none) : s.HoldsFloors (s.setAttached g ((s.group g).attached ++ [l])) := by
  have hk : (s.group g).kind = .hoot := by
    unfold attachCheck at h
    repeat' split at h
    all_goals simp_all
  refine (HoldsFloors.setGroup (.of_used (by simp [hk]) ?_ ?_ ?_)).then_gfu rfl <;> rfl

theorem State.listen_holdsFloors {s : State} {m : Listening} (h : (s.group m.grp).kind = .hoot) : s.HoldsFloors (s.setListening m) :=
  HoldsFloors.setGroup (.of_used (by simp [h]) rfl rfl rfl)

theorem State.unlisten_holdsFloors {s : State} {m : Listening} (h : m.on = false) : s.HoldsFloors (s.setListening m) := by
  refine HoldsFloors.setGroup ?_
  rw [h]
  exact .of_listening ..

/-! ### Handsets that leave -/

theorem State.leave_holdsFloors {s t : State} {p : Pos} {h : Handset} {c : Claim} (e : s.leave p h c = some t) :
    s.HoldsFloors t := by
  cases c with
  | line l =>
    obtain ⟨_, -, rfl⟩ := Option.map_eq_some_iff.mp e
    exact .of_groups rfl
  | group g =>
    simp only [State.leave, State.leaveJoined] at e
    split at e
    · obtain rfl := Option.some.inj e
      exact s.leaveGroup_holdsFloors g p
    · simp at e
  | call n =>
    simp only [State.leave, State.leaveCall] at e
    repeat' split at e
    all_goals simp only [reduceCtorEq, Option.some.injEq] at e
    all_goals exact .of_groups (by rw [← e]; rfl)
  | none | pending => simp [State.leave] at e

theorem State.ownerRelease_holdsFloors (s : State) (p : Pos) (h : Handset) (v : Via) (c : Claim) :
    s.HoldsFloors (s.ownerRelease p h v c) := by
  unfold State.ownerRelease
  split
  · exact .reply ..
  · next e => exact (State.leave_holdsFloors e).then_gfu (by simp)

theorem State.ownerReturn_holdsFloors (s : State) (o : Owner) (p : Pos) (h : Handset) (c : Claim) :
    s.HoldsFloors (s.ownerReturn o p h c) := by
  obtain ⟨-, e⟩ | ⟨t, ht, e⟩ := s.ownerReturn_cases o p h c <;> rw [e]
  · exact .refl s
  · exact (State.leave_holdsFloors ht).then_gfu rfl

/-! ### Losses, resets and the tick -/

theorem State.gfuDown_holdsFloors (s : State) (p : Pos) : s.HoldsFloors (s.gfuDown p) := by
  rw [s.gfuDown_whole p]
  refine .of_calms fun g => ?_
  rw [State.emit_group, State.withGfu_group, Gfu.without, Table.look_build]
  exact (GroupRec.Calms.of_joined List.filter_sublist).trans (.of_thins (FloorAct.leave_thins { floor := _ } ..))

theorem State.gfuReset_holdsFloors (s : State) : s.HoldsFloors s.gfuReset := by
  refine .of_calms fun g => ?_
  have e : s.gfuReset.group g = { s.group g with joined := [], floor := Floor.empty } := by
    simp [State.gfuReset, State.emit, State.group]
  rw [e]
  exact (GroupRec.Calms.of_joined (List.nil_sublist _)).trans (.of_thins (Floor.thins_empty _))

theorem State.tick_holdsFloors (s : State) : s.HoldsFloors s.tick := by
  refine .of_calms fun g => ?_
  rw [State.tick_group]
  exact .of_thins ⟨.refl _, fun _ => id⟩

theorem State.poweredOn_holdsFloors (s : State) (far : Vector Bool 64) (present : Vector Bool 16) (cs : List Instr) :
    s.HoldsFloors (State.poweredOn far present cs) := by
  refine .of_calms fun g => ?_
  have e : (State.poweredOn far present cs).group g = GroupRec.reset := by simp [State.group, Gfu.reset]
  rw [e]
  refine ⟨fun _ => ⟨Floor.sound_of_everyone_nil rfl _, fun _ => rfl⟩, List.nil_subperm, fun _ _ => ?_⟩
  exact GroupRec.inUse_eq_false_iff.mpr ⟨rfl, fun p => Table.look_fill .., rfl, rfl⟩

end Sys2Proof.Machine
end

section
/-! O59, command by command. -/

namespace Sys2Proof.Machine

open State (HoldsFloors)

theorem State.nextListening_on {s t : State} {on : Bool} {m : Listening} (h : s.nextListening on = some (m, t)) : m.on = on := by
  unfold State.nextListening at h
  repeat' split at h
  all_goals simp_all

/-! ### Calls leave the groups alone (R68, R70, R71) -/

theorem State.gfuCall_groups (s : State) (p : Pos) (h : Handset) (v : Via) (callee : Byte) (voice : Bool) :
    (s.gfuCall p h v callee voice).gfu.groups = s.gfu.groups := by
  unfold State.gfuCall
  split <;> rfl

theorem State.gfuAnswer_groups (s : State) (p : Pos) (h : Handset) (v : Via) (c : CallNo) :
    (s.gfuAnswer p h v c).gfu.groups = s.gfu.groups := by
  unfold State.gfuAnswer
  repeat' split
  all_goals rfl

theorem State.declineCall_groups (s : State) (p : Pos) (v : Via) (b : List Byte) :
    (s.declineCall p v b).gfu.groups = s.gfu.groups := by
  unfold State.declineCall
  repeat' split
  all_goals simp [State.endCall, State.setCall]

/-! ### Every command -/

theorem exec_holdsFloors {i : Instr} {s t : State} (e : exec i s = .next t) : s.HoldsFloors t := by
  by_cases hi : Instr.movesGfu i = false
  · obtain ⟨u, hu, hgfu⟩ := exec_gfu hi s
    obtain rfl : u = t := by simpa [hu] using e
    exact (HoldsFloors.refl s).then_gfu hgfu
  cases i with
  | powerOnReset far present => cases e; exact s.poweredOn_holdsFloors ..
  | returnNotice o p h =>
    change execReturnNotice o p h s = .next t at e
    unfold execReturnNotice at e
    split at e <;> cases e
    · next he => exact .after (State.gfu_of_owners (State.nextForHandset_owners he)) (State.ownerReturn_holdsFloors ..)
    · exact .refl s
  | releaseAtOwner o p h =>
    change execReleaseAtOwner o p h s = .next t at e
    unfold execReleaseAtOwner at e
    split at e <;> cases e
    · next he => exact .after (State.gfu_of_owners (State.nextForHandset_owners he)) (State.ownerRelease_holdsFloors ..)
    · exact .refl s
  | joinGroupAtGfu p h =>
    change execJoinGroupAtGfu p h s = .next t at e
    unfold execJoinGroupAtGfu at e
    split at e <;> cases e
    · next he => exact .after (State.gfu_of_owners (State.nextForHandset_owners he)) (State.gfuJoin_holdsFloors ..)
    · exact .refl s
  | positionDownAtGfu p =>
    change execPositionDownAtGfu p s = .next t at e
    unfold execPositionDownAtGfu at e
    split at e <;> obtain rfl := Host.Outcome.next.inj e
    · exact .refl s
    · exact .after (State.setChan_gfu ..) (State.gfuDown_holdsFloors ..)
  | groupConfig n =>
    cases e
    refine .dispatchIf (fun b t => ?_) s
    split
    · split
      · exact .answer ..
      · next hu => exact (State.configGroup_holdsFloors (by simpa [imp_iff_not_or, not_and] using hu)).trans (.answer ..)
    · exact .answer ..
  | attachAnswer l =>
    change execAttachAnswer l s = .next t at e
    unfold execAttachAnswer at e
    split at e
    · next he =>
      have hu := State.gfu_of_owners (State.nextAttach_owners he)
      split at e <;> cases e
      · exact ((HoldsFloors.refl s).then_gfu hu).then_gfu (by simp [State.tellLcu])
      · next hc => exact (HoldsFloors.after hu (State.attach_holdsFloors (l := l) hc)).then_gfu (by simp [State.tellLcu])
    · cases e
      exact .refl s
  | hootDetach n =>
    cases e
    refine .dispatchIf (fun b t => ?_) s
    split
    · split
      · exact (t.detach_holdsFloors ..).then_gfu ((State.answer_gfu ..).trans (State.lineDetach_gfu ..))
      · exact .answer ..
    · exact .answer ..
  | hootLineRemoval l =>
    change execHootLineRemoval l s = .next t at e
    unfold execHootLineRemoval at e
    split at e
    · next he =>
      have hu := State.gfu_of_owners (State.nextAttach_owners he)
      split at e <;> cases e
      · exact .after hu (State.detach_holdsFloors ..)
      · exact (HoldsFloors.refl s).then_gfu hu
    · cases e
      exact .refl s
  | listenOn =>
    change execListenOn s = .next t at e
    unfold execListenOn at e
    split at e <;> cases e
    · next he =>
      refine .after (State.gfu_of_owners (State.nextListening_owners he)) ?_
      split
      · next hk => exact State.listen_holdsFloors hk
      · exact .refl _
    · exact .refl s
  | listenOff =>
    change execListenOff s = .next t at e
    simp only [execListenOff] at e
    split at e
    · next m u he =>
      have hleft := State.unlisten_holdsFloors (s := u) (State.nextListening_on he)
      refine .after (State.gfu_of_owners (State.nextListening_owners he)) ?_
      split at e <;> cases e
      · exact hleft
      · exact hleft.trans (.actFloor (FloorAct.leave_thins { floor := _ } ..))
    · cases e
      exact .refl s
  | callConfig n =>
    cases e
    refine .dispatchIf (fun b t => ?_) s
    exact .of_groups (by simp)
  | callPositionAtGfu p h =>
    change execCallPositionAtGfu p h s = .next t at e
    unfold execCallPositionAtGfu at e
    split at e <;> cases e
    · next he => exact .after (State.gfu_of_owners (State.nextForHandset_owners he)) (.of_groups (State.gfuCall_groups ..))
    · exact .refl s
  | answerCallAtGfu p h =>
    change execAnswerCallAtGfu p h s = .next t at e
    unfold execAnswerCallAtGfu at e
    split at e <;> cases e
    · next he => exact .after (State.gfu_of_owners (State.nextForHandset_owners he)) (.of_groups (State.gfuAnswer_groups ..))
    · exact .refl s
  | declineCall n => cases e; exact .request (fun p v b t => .of_groups (t.declineCall_groups p v b)) s
  | callAlertExpiry c =>
    change execCallAlertExpiry c s = .next t at e
    unfold execCallAlertExpiry at e
    split at e <;> cases e
    · exact .of_groups rfl
    · exact .refl s
  | standingUpNotice p =>
    change execStandingUpNotice p s = .next t at e
    unfold execStandingUpNotice at e
    dsimp only at e
    repeat' split at e
    all_goals cases e
    all_goals exact .of_groups rfl
  | floorRequest r => cases e; exact .request (fun p v b t => t.floorRequest_holdsFloors p v b) s
  | floorRelease r => cases e; exact .request (fun p v b t => t.floorRelease_holdsFloors p v b) s
  | holdTimerExpiry g =>
    change execHoldTimerExpiry g s = .next t at e
    unfold execHoldTimerExpiry at e
    split at e <;> cases e
    · exact .actFloor (FloorAct.timeOut_thins { floor := _ } ..)
    · exact .refl s
  | pinFloor n =>
    cases e
    refine .dispatchIf (fun b t => ?_) s
    split
    · split
      · exact .answer ..
      · next h => exact (State.pin_holdsFloors h).trans (.answer ..)
    · exact .answer ..
  | unpin n =>
    cases e
    refine .dispatchIf (fun b t => ?_) s
    split
    · exact .answer ..
    · split
      · exact (HoldsFloors.actFloor (FloorAct.unpin_thins { floor := _ } ..)).trans (.answer ..)
      · exact .answer ..
  | voxActiveReport p =>
    change execVoxActiveReport p s = .next t at e
    unfold execVoxActiveReport at e
    split at e <;> cases e
    · next he => exact .after (State.gfu_of_owners (State.nextVox_owners he)) (State.voxActive_holdsFloors ..)
    · exact .refl s
  | voxQuietReport p =>
    change execVoxQuietReport p s = .next t at e
    unfold execVoxQuietReport at e
    split at e <;> cases e
    · next he => exact .after (State.gfu_of_owners (State.nextVox_owners he)) (State.voxQuiet_holdsFloors ..)
    · exact .refl s
  | softResetAtGfu =>
    cases e
    unfold State.ownerReset
    repeat' split
    case h_2.isFalse => exact s.gfuReset_holdsFloors.then_gfu rfl
    all_goals exact .refl s
  | _ => exact absurd rfl hi

theorem step_holdsFloors {s t : State} (e : step s = .next t) : s.HoldsFloors t := by
  unfold step at e
  split at e
  · cases e
    exact s.tick_holdsFloors
  · next c rest _ =>
    have h : s.HoldsFloors { s with pending := rest } := .of_groups rfl
    exact h.trans (exec_holdsFloors e)

/-- Settles O59: every command leaves GFU alone (`exec_gfu`) or keeps the three invariants (`exec_holdsFloors`). -/
theorem floorsStaySound : Obligations.FloorsStaySound :=
  fun _ _ e => ⟨(step_holdsFloors e).sound, (step_holdsFloors e).mics, (step_holdsFloors e).idle⟩

end Sys2Proof.Machine
end

section
/-! ASSIGN_SPEAKER at PTB (R64, R66). -/

namespace Sys2Proof.Machine

theorem exec_assignSpeaker_of_submits {s t : State} {r : Requester} {p : Pos} {b : List Byte}
    (hs : s.Submits r .assignSpeaker p b t) : exec (.assignSpeaker r) s = .next (t.ptbAssign p (requesterVia r) b) :=
  congrArg Host.Outcome.next (State.request_of_sends hs _)

/-! ### Refused without a look at the speaker -/

theorem State.ptbAssign_of_down {s : State} {p : Pos} (hu : (s.pos p).up = false) (v : Via) (b : List Byte) :
    s.ptbAssign p v b = s.reply p v .notPermitted := if_pos hu

theorem State.ptbAssign_bad {s : State} {p : Pos} {b : List Byte} (hu : (s.pos p).up = true)
    (hb : speakerOf (byteAt b 0) = none ∨ targetOf (byteAt b 1) (byteAt b 2) = none) (v : Via) :
    s.ptbAssign p v b = s.reply p v .badValue := by
  rw [State.ptbAssign, if_neg (by simp [hu])]
  obtain hb | hb := hb
  · rw [hb]
  · rw [hb]
    cases speakerOf (byteAt b 0) <;> rfl

/-! ### A speaker and a target -/

/-- What PTB does for a speaker that waits for nothing, with a target that it does not carry (R64). -/
def State.assignNew (s : State) (p : Pos) (v : Via) (k : Spk) (x : Target) : State := match x with
  | .none => (s.assignTo p k .none).reply p v .accepted
  | .line l => s.askSpeaker p v k .lcu (.line l)
  | .group g => s.askSpeaker p v k .gfu (.group g)

section Assign
variable {s : State} {p : Pos} {b : List Byte} {k : Spk} {x : Target} (hu : (s.pos p).up = true)
  (hk : speakerOf (byteAt b 0) = some k) (hx : targetOf (byteAt b 1) (byteAt b 2) = some x)
include hu hk hx

theorem State.ptbAssign_of_waiting (ha : ((s.pos p).asking.look k).isSome = true) (v : Via) :
    s.ptbAssign p v b = s.reply p v .busy := by
  rw [State.ptbAssign, if_neg (by simp [hu]), hk, hx]
  exact if_pos ha

theorem State.ptbAssign_of_same (ha : (s.pos p).asking.look k = none) (hsame : (s.pos p).assign.look k = x) (v : Via) :
    s.ptbAssign p v b = s.reply p v .accepted := by
  rw [State.ptbAssign, if_neg (by simp [hu]), hk, hx]
  exact (if_neg (by simp [ha])).trans (if_pos hsame)

theorem State.ptbAssign_of_new (ha : (s.pos p).asking.look k = none) (hnew : (s.pos p).assign.look k ≠ x) (v : Via) :
    s.ptbAssign p v b = s.assignNew p v k x := by
  rw [State.ptbAssign, if_neg (by simp [hu]), hk, hx]
  exact (if_neg (by simp [ha])).trans (if_neg hnew)

end Assign

/-- An assignment that completes, with what it sends (R65, R66). -/
theorem State.assignTo_eq (s : State) (p : Pos) (k : Spk) (x : Target) :
    s.assignTo p k x = (s.setPos p { s.pos p with assign := (s.pos p).assign.put k x }).emit
      { notices := [.leg (speakerLeg p k)]
        listening := listeningNotices p (s.pos p).assign ((s.pos p).assign.put k x) false } := by
  simp [State.assignTo, State.setAssign, State.emit_emit, Sends.and, notice]

/-- Settles O19: by the standing of the position, the operands, the waiting mark, and the target. -/
theorem assignSpeakerAsksTheOwner : Obligations.AssignSpeakerAsksTheOwner := by
  intro s t r p b hs
  rw [exec_assignSpeaker_of_submits hs, ← State.pos_of_submits hs p]
  simp only [← State.reply_of_sends hs]
  refine ⟨fun hu => ?down, fun hu hb => ?bad, fun k x hu hk hx => ⟨fun ha => ?waiting, fun ha hsame => ?same, ?none, ?line, ?group⟩⟩
  case down => rw [State.ptbAssign_of_down hu]
  case bad => rw [State.ptbAssign_bad hu hb]
  case waiting => rw [State.ptbAssign_of_waiting hu hk hx ha]
  case same => rw [State.ptbAssign_of_same hu hk hx ha hsame]
  case none =>
    rintro ha hnew rfl
    rw [State.ptbAssign_of_new hu hk hx ha hnew, State.assignNew, State.assignTo_eq]
  case line =>
    rintro l ha hnew rfl
    rw [State.ptbAssign_of_new hu hk hx ha hnew]
    rfl
  case group =>
    rintro g ha hnew rfl
    rw [State.ptbAssign_of_new hu hk hx ha hnew]
    rfl

end Sys2Proof.Machine
end

section
/-! QUERY_GROUP (R75, R96). -/

namespace Sys2Proof.Machine

/-! ### The command, part by part -/

section Query
variable {s : State} {n : Port} {f : Frame} (hf : s.Offers n .queryGroup f)
include hf

theorem exec_queryGroup_record (hpart : byteAt f.body 1 = 0) :
    exec (.queryGroup n) s = .next ((s.takeFrame n f).queryGroupRec n (byteAt f.body 0) groupBody) := by
  refine congrArg Host.Outcome.next ((State.dispatch_of_offers hf _).trans ?_)
  rw [if_pos hpart]

theorem exec_queryGroup_calls (hpart : byteAt f.body 1 = 1) :
    exec (.queryGroup n) s = .next (
      if n = mgmt then (s.takeFrame n f).answer (.port n) .accepted (callsBody s)
      else (s.takeFrame n f).answer (.port n) .notPermitted) := by
  refine congrArg Host.Outcome.next ((State.dispatch_of_offers hf _).trans ?_)
  rw [if_neg (by simp [hpart]), if_pos hpart]
  rfl

theorem exec_queryGroup_floor (hpart : byteAt f.body 1 = 2) :
    exec (.queryGroup n) s = .next ((s.takeFrame n f).queryGroupRec n (byteAt f.body 0) floorBody) := by
  refine congrArg Host.Outcome.next ((State.dispatch_of_offers hf _).trans ?_)
  rw [if_neg (by simp [hpart]), if_neg (by simp [hpart]), if_pos hpart]

theorem exec_queryGroup_bad_part (hpart : 3 ≤ (byteAt f.body 1).toNat) :
    exec (.queryGroup n) s = .next ((s.takeFrame n f).answer (.port n) .badValue) := by
  have hne (k : Byte) (hk : k.toNat < 3) : byteAt f.body 1 ≠ k := by
    rintro rfl
    omega
  refine congrArg Host.Outcome.next ((State.dispatch_of_offers hf _).trans ?_)
  rw [if_neg (hne 0 (by decide)), if_neg (hne 1 (by decide)), if_neg (hne 2 (by decide))]

end Query

/-! ### Who may read a group -/

theorem State.queryGroupRec_bad {b : Byte} (hb : numOf 16 b = none) (s : State) (n : Port) (body : GroupRec → List Byte) :
    s.queryGroupRec n b body = s.answer (.port n) .badValue := by
  rw [State.queryGroupRec, hb]

theorem State.queryGroupRec_allowed {s : State} {n : Port} {b : Byte} {g : Grp} (hb : numOf 16 b = some g)
    (hn : n = mgmt ∨ ∃ p, posOf n = some p ∧ (s.group g).allow.look p = true) (body : GroupRec → List Byte) :
    s.queryGroupRec n b body = s.answer (.port n) .accepted (body (s.group g)) := by
  rw [State.queryGroupRec, hb]
  obtain rfl | ⟨p, hp, ha⟩ := hn
  · rfl
  · simp only [hp, if_pos ha]

theorem State.queryGroupRec_refused {s : State} {n : Port} {b : Byte} {g : Grp} {p : Pos} (hb : numOf 16 b = some g)
    (hp : posOf n = some p) (ha : (s.group g).allow.look p = false) (body : GroupRec → List Byte) :
    s.queryGroupRec n b body = s.answer (.port n) .notPermitted := by
  rw [State.queryGroupRec, hb]
  simp only [hp, ha]
  rfl

/-! ### The bodies in bytes (R179, R181) -/

theorem packed_eq : packed = fun p level latched o => byteOf (p.val + 16 * level.val + (if latched then 64 else 0)
    + match o with | .explicit => 0 | .vox => 128) := by
  funext p level latched o
  cases o <;> rfl

/-- A list of one byte for each entry. -/
theorem listBytes_singletons {α : Type} (l : List α) (f : α → Byte) :
    listBytes l (fun a => [f a]) = byteOf l.length :: l.map f := by
  rw [listBytes, ← List.flatMap_pure_eq_map]
  rfl

theorem groupBody_eq (r : GroupRec) :
    groupBody r = [r.kind.byte] ++ posSetBytes r.allow ++ [byteOf r.talkLevel.val, onByte r.openMode, byteOf r.holdLimit.val]
      ++ (byteOf r.joined.length :: r.joined.flatMap fun m => [byteOf m.1.val, handsetByte m.2])
      ++ (byteOf r.attached.length :: r.attached.map fun l => byteOf l.val) ++ posSetBytes r.listening := by
  rw [groupBody, listBytes_singletons, listBytes]

theorem floorBody_eq (r : GroupRec) :
    floorBody r = [onByte r.openMode]
      ++ (match r.floor.holder with
          | none => [0xFF#8, 0xFF#8, 0xFF#8, 0xFF#8, 0xFF#8]
          | some h => [byteOf h.pos.val, byteOf h.level.val, onByte h.latched, onByte h.pinned, h.origin.byte])
      ++ [onByte r.floor.holdTimer.isSome]
      ++ (byteOf r.floor.wait.length :: r.floor.wait.map fun w => packed w.pos w.level w.latched w.origin)
      ++ (byteOf r.floor.deferred.length :: r.floor.deferred.map fun w => packed w.pos w.level w.latched w.origin)
      ++ posSetBytes r.floor.served
      ++ (byteOf r.floor.talkers.length :: r.floor.talkers.map fun t => packed t.pos 0 false t.origin) := by
  simp only [floorBody, listBytes_singletons]
  rfl

/-- Settles O29: by the part, the number of the group and the port that asks. -/
theorem queryGroupParts : Obligations.QueryGroupParts := by
  rintro s n f pack call hf hpack hcall
  have hpack : packed = pack := packed_eq.trans hpack.symm
  have hcall : CallRec.bytes = call := by
    rw [hcall]
    funext c
    cases c <;> rfl
  refine ⟨fun g r hg hr => ⟨fun hpart hn => ?record, fun hpart hn => ?floor, fun p hpart hp ha => ?refused⟩, fun hpart => ?calls, ?bad⟩
  case record =>
    subst hr
    rw [exec_queryGroup_record hf hpart, State.queryGroupRec_allowed hg (by exact hn), groupBody_eq]
    rfl
  case floor =>
    subst hr hpack
    rw [exec_queryGroup_floor hf hpart, State.queryGroupRec_allowed hg (by exact hn), floorBody_eq]
    rfl
  case refused =>
    subst hr
    obtain hpart | hpart := hpart
    · rw [exec_queryGroup_record hf hpart, State.queryGroupRec_refused hg hp (by exact ha)]
    · rw [exec_queryGroup_floor hf hpart, State.queryGroupRec_refused hg hp (by exact ha)]
  case calls =>
    subst hcall
    exact exec_queryGroup_calls hf hpart
  case bad =>
    rintro (hpart | ⟨hg, hpart⟩)
    · exact exec_queryGroup_bad_part hf hpart
    · have hrec := State.queryGroupRec_bad hg (s.takeFrame n f) n
      obtain h0 | h2 | h3 : byteAt f.body 1 = 0 ∨ byteAt f.body 1 = 2 ∨ 3 ≤ (byteAt f.body 1).toNat := by bv_omega
      · rw [exec_queryGroup_record hf h0, hrec]
      · rw [exec_queryGroup_floor hf h2, hrec]
      · exact exec_queryGroup_bad_part hf h3

end Sys2Proof.Machine
end

section
/-! The grant rule's choice (R80). -/

namespace Sys2Proof.Machine

/-- The grant rule's choice has only lower entries before it, and none above it behind it. -/
theorem topWaiter_splits {ws : List Waiter} {v : Waiter} (h : topWaiter ws = some v) :
    ∃ before after, ws = before ++ v :: after ∧ (∀ x ∈ before, x.level < v.level) ∧ ∀ x ∈ after, x.level ≤ v.level := by
  induction ws generalizing v with
  | nil => simp [topWaiter] at h
  | cons w ws ih =>
    simp only [topWaiter] at h
    cases ht : topWaiter ws with
    | none =>
      obtain rfl : w = v := by simpa [ht] using h
      obtain rfl := topWaiter_eq_none.mp ht
      exact ⟨[], [], rfl, by simp, by simp⟩
    | some u =>
      obtain ⟨before, after, hws, hb, ha⟩ := ih ht
      simp only [ht] at h
      split at h
      · next hlt =>
        obtain rfl : u = v := by simpa using h
        exact ⟨w :: before, after, by rw [hws, List.cons_append], List.forall_mem_cons.mpr ⟨hlt, hb⟩, ha⟩
      · next hge =>
        obtain rfl : w = v := by simpa using h
        have hle : u.level ≤ w.level := not_lt.mp hge
        refine ⟨[], ws, rfl, by simp, fun x hx => ?_⟩
        rw [hws, List.mem_append, List.mem_cons] at hx
        rcases hx with hx | rfl | hx
        · exact (hb x hx).le.trans hle
        · exact hle
        · exact (ha x hx).trans hle

/-- Settles O30: by induction on the queue one way, and by `topWaiter_of_picks` the other. -/
theorem grantRulePicksHighestThenEarliest : Obligations.GrantRulePicksHighestThenEarliest := by
  refine fun ws v => ⟨topWaiter_splits, ?_⟩
  rintro ⟨before, after, rfl, hb, ha⟩
  exact topWaiter_of_picks hb ha

end Sys2Proof.Machine
end

section
/-! FLOOR_REQUEST: its checks, and the floor that it is decided on (R78, R79, R83, R84, R86). -/

namespace Sys2Proof.Machine

/-! ### What the checks read -/

theorem State.gfu_of_submits {s t : State} {r : Requester} {k : ReqKind} {p : Pos} {body : List Byte}
    (h : s.Submits r k p body t) : t.gfu = s.gfu := by
  cases r with
  | port n =>
    obtain ⟨-, f, -, -, rfl⟩ := h
    rfl
  | run q =>
    obtain ⟨-, o, -, -, rfl⟩ := h
    rfl

theorem State.group_of_submits {s t : State} {r : Requester} {k : ReqKind} {p : Pos} {body : List Byte}
    (h : s.Submits r k p body t) (g : Grp) : t.group g = s.group g := by
  rw [State.group, State.gfu_of_submits h, State.group]

theorem State.fair_of_submits {s t : State} {r : Requester} {k : ReqKind} {p : Pos} {body : List Byte}
    (h : s.Submits r k p body t) : t.fair = s.fair :=
  funext fun q => by rw [State.fair, State.pos_of_submits h, State.fair]

theorem State.mayTalk_iff {s : State} {p : Pos} {g : Grp} :
    s.mayTalk p g = true ↔ (s.group g).kind = .hoot ∧ (s.group g).listening.look p = true ∧ s.gfu.up.look p = true := by
  simp [State.mayTalk, and_assoc]

theorem State.engagedElsewhere_iff {s : State} {p : Pos} {g : Grp} :
    s.engagedElsewhere p g = true ↔ ∃ k, k ≠ g ∧ (s.group k).floor.engaged p = true := by
  simp [State.engagedElsewhere]

theorem State.engagedElsewhere_eq_false {s : State} {p : Pos} {g : Grp} :
    s.engagedElsewhere p g = false ↔ ∀ k, k ≠ g → (s.group k).floor.engaged p = false := by
  simp [State.engagedElsewhere]

theorem State.floorCheck_of_submits {s t : State} {r : Requester} {k : ReqKind} {p : Pos} {body : List Byte}
    (h : s.Submits r k p body t) (q : Pos) (g : Grp) : t.floorCheck q g = s.floorCheck q g := by
  have hmay : t.mayTalk q g = s.mayTalk q g := by simp only [State.mayTalk, State.group, State.gfu_of_submits h]
  have helse : t.engagedElsewhere q g = s.engagedElsewhere q g := by
    simp only [State.engagedElsewhere, State.group, State.gfu_of_submits h]
  rw [State.floorCheck, hmay, helse, State.group_of_submits h, State.floorCheck]

theorem State.floorCheck_of_outsider {s : State} {p : Pos} {g : Grp} (h : s.mayTalk p g = false) :
    s.floorCheck p g = some .notMember := if_pos h

theorem State.floorCheck_of_member {s : State} {p : Pos} {g : Grp} (h : s.mayTalk p g = true) :
    s.floorCheck p g = if s.engagedElsewhere p g then some .micBusy
      else if (s.group g).floor.engaged p then some .already else none := if_neg (by simp [h])

/-- The holder of a floor is engaged on it (R76). -/
theorem Floor.holder_ne_of_free {f : Floor} {p : Pos} {h : Holder} (he : f.engaged p = false) (hf : f.holder = some h) :
    h.pos ≠ p := by
  have hne := (Floor.engaged_eq_false.mp he).1
  simpa [Floor.holderPos, hf] using hne

/-! ### The command -/

theorem exec_floorRequest_of_submits {s t : State} {q : Requester} {p : Pos} {b : List Byte}
    (hs : s.Submits q .floorRequest p b t) : exec (.floorRequest q) s = .next (t.floorRequest p (requesterVia q) b) :=
  congrArg Host.Outcome.next (State.request_of_sends hs _)

theorem exec_floorRequest_bad {s t : State} {q : Requester} {p : Pos} {b : List Byte} (hs : s.Submits q .floorRequest p b t)
    (hb : numOf 16 (byteAt b 0) = none ∨ onOffOf (byteAt b 1) = none) :
    exec (.floorRequest q) s = .next (t.answer q .badValue) := by
  rw [exec_floorRequest_of_submits hs, ← State.reply_of_sends hs]
  rcases hb with hb | hb <;> simp [State.floorRequest, hb]

section Checked
variable {s t : State} {q : Requester} {p : Pos} {b : List Byte} {g : Grp} {latch : Bool} (hs : s.Submits q .floorRequest p b t)
  (hg : numOf 16 (byteAt b 0) = some g) (hl : onOffOf (byteAt b 1) = some latch)
include hs hg hl

theorem exec_floorRequest_refused {c : Code} (hc : s.floorCheck p g = some c) :
    exec (.floorRequest q) s = .next (t.answer q c) := by
  rw [exec_floorRequest_of_submits hs, ← State.reply_of_sends hs]
  simp only [State.floorRequest, hg, hl, State.floorCheck_of_submits hs, hc]

theorem exec_floorRequest_taken (hc : s.floorCheck p g = none) :
    exec (.floorRequest q) s = .next ((t.takeFloor p g latch .explicit).answer q .accepted) := by
  rw [exec_floorRequest_of_submits hs, ← State.reply_of_sends hs]
  simp only [State.floorRequest, hg, hl, State.floorCheck_of_submits hs, hc]

end Checked

/-! ### A LATCHED holder whom nobody waits behind -/

/-- The one entry of a queue is the grant rule's choice, and no deferred entry moves up. -/
theorem Floor.picks_alone {f : Floor} {w : Waiter} (hw : f.wait = [w]) (hd : f.deferred = []) : f.Picks w [] [] [] [] :=
  ⟨⟨hw, by simp, by simp [hd]⟩, by simp, by simp⟩

/-- Settles O31: by the check that refuses the request, or else by the floor that it finds. -/
theorem floorRequestsAreDecided : Obligations.FloorRequestsAreDecided := by
  refine ⟨fun s t q p b hs hb => exec_floorRequest_bad hs hb, ?checks, ?cases⟩
  case checks =>
    rintro s t q p b g latch r hs hg hl rfl
    refine ⟨fun hout => ?_, fun hk hlisten hup => ⟨fun helse => ?_, fun hfree hhere => ?_⟩⟩
    · have hmay : s.mayTalk p g = false := by
        rw [Bool.eq_false_iff, ne_eq, State.mayTalk_iff]
        rcases hout with hout | hout | hout <;> simp [hout]
      exact exec_floorRequest_refused hs hg hl (State.floorCheck_of_outsider hmay)
    all_goals
      refine exec_floorRequest_refused hs hg hl ?_
      rw [State.floorCheck_of_member (State.mayTalk_iff.mpr ⟨hk, hlisten, hup⟩)]
    · rw [if_pos (State.engagedElsewhere_iff.mpr helse)]
    · rw [if_neg (by simp [State.engagedElsewhere_eq_false.mpr hfree]), if_pos hhere]
  case cases =>
    rintro s t q p b g latch r f lv limit news hs hg hl hr rfl hc hlv rfl rfl
    have hr' : t.group g = r := (State.group_of_submits hs g).trans hr
    have hlv' : lv = (t.pos p).settings.floorLevel := by rw [State.pos_of_submits hs, hlv]
    have hfair : t.fair = s.fair := State.fair_of_submits hs
    have hfree : r.floor.engaged p = false := hr ▸ (State.floorCheck_none hc).2.2
    rw [exec_floorRequest_taken hs hg hl hc]
    refine ⟨fun hm hf => ?free, fun h hm hf h3 hlow hpin => ?lower, fun h hm hf hlatch hpin hnot hw hd => ?alone,
      fun h late j w x y up stay hm hf hlatch hpin hnot hlate hj hpick hne => ?picks,
      fun h hm hf hkeep hnot => ?kept, fun hm => ?openMode⟩
    case free => rw [State.takeFloor_of_free hr' hlv' hm hf]
    case lower =>
      rw [State.takeFloor_of_lower hr' hlv' hm hf ⟨h3, hlow, hpin⟩ (Floor.holder_ne_of_free hfree hf), hfair]
      rfl
    case alone =>
      have hne : p ≠ h.pos := (Floor.holder_ne_of_free hfree hf).symm
      have hpick := Floor.picks_alone (w := ⟨p, lv, latch, .explicit⟩)
        (f := { r.floor with wait := r.floor.wait ++ [⟨p, lv, latch, .explicit⟩], served := r.floor.served.put p false })
        (by rw [hw, List.nil_append]) hd
      rw [State.takeFloor_of_latched (late := false) hr' hlv' hm hf (fun hk => hnot ⟨hk.1, hk.2.1⟩) (by simp [hw]) rfl hlatch hpin
        hpick hne, hfair, hw, hd, if_pos rfl]
      rfl
    case picks =>
      have htalkers : j.talkers = r.floor.talkers := by
        rw [hj]
        cases late <;> rfl
      rw [State.takeFloor_of_latched (late := late) hr' hlv' hm hf (fun hk => hnot ⟨hk.1, hk.2.1⟩) (hfair ▸ hlate) hj hlatch hpin
        hpick hne, hfair, htalkers]
      rfl
    case kept =>
      by_cases hlate : r.floor.served.look p = true ∧ (s.pos p).settings.fair = true ∧ ∃ w ∈ r.floor.wait, w.level = lv
      · rw [if_pos hlate, State.takeFloor_of_kept (late := true) hr' hlv' hm hf hnot (iff_of_true rfl (hfair ▸ hlate)) rfl hkeep]
        rfl
      · rw [if_neg hlate, State.takeFloor_of_kept (late := false) hr' hlv' hm hf hnot
          (iff_of_false Bool.false_ne_true (hfair ▸ hlate)) rfl hkeep]
        rfl
    case openMode => rw [State.takeFloor_of_open hr' hlv' hm]

end Sys2Proof.Machine
end

section
/-! FLOOR_RELEASE and the hold expiry (R80 to R82, R84 to R86). -/

namespace Sys2Proof.Machine

/-! ### The floor passes on, in the state -/

section PassFloor
variable {s : State} {g : Grp} {r : GroupRec} {h : Holder} (hg : s.group g = r) (hh : r.floor.holder = some h)
  (why : Option LostReason)
include hg hh

theorem State.passFloor_to_nobody (hw : r.floor.wait = []) :
    (s.actFloor g fun a => (a.endGrant why (markFair s.fair)).grantRule r.holdLimit) =
      (s.setGroup g { r with floor := { r.floor with
        holder := none, holdTimer := none, served := markFair s.fair h.pos r.floor.served } }).emit
      { given := lostRecords g h.pos why ++ (posList r.listening).map fun j => ⟨.gfu, portOf j, .floorHolder g none⟩
        notices := [.group g, .position h.pos] } := by
  rw [State.actFloor_eq hg, FloorAct.endGrant_to_nobody hh [] why (markFair s.fair) r.holdLimit hw]
  refine congrArg (State.emit _) ?_
  simp [FloorAct.sends, Floor.holderPos, hh, lostRecords, Function.comp_def]

theorem State.passFloor_to_picked {w : Waiter} {a b up stay : List Waiter} (hw : r.floor.Picks w a b up stay)
    (hne : w.pos ≠ h.pos) :
    (s.actFloor g fun a => (a.endGrant why (markFair s.fair)).grantRule r.holdLimit) =
      (s.setGroup g { r with floor := { r.floor with
        holder := some ⟨w.pos, w.level, w.latched, false, w.origin⟩, wait := a ++ b ++ up, deferred := stay
        holdTimer := if r.holdLimit = 0 then none else some r.holdLimit.val
        served := up.foldl (fun m k => m.put k.pos false) (markFair s.fair h.pos r.floor.served) } }).emit
      { given := lostRecords g h.pos why ++ ⟨.gfu, portOf w.pos, .floorGranted g w.level w.latched false⟩
          :: (up.map fun k => ⟨.gfu, portOf k.pos, .floorWait g k.level⟩)
          ++ (posList r.listening).map fun j => ⟨.gfu, portOf j, .floorHolder g (some w.pos)⟩
        notices := [.group g, .position h.pos, .position w.pos] } := by
  rw [State.actFloor_eq hg, FloorAct.endGrant_to_picked hh [] why (markFair s.fair) r.holdLimit hw]
  refine congrArg (State.emit _) ?_
  simp [FloorAct.sends, Floor.holderPos, hh, hne.symm, Waiter.holds, lostRecords, Function.comp_def]

end PassFloor

/-! ### The answer to a release (R85) -/

theorem Floor.engaged_of_holder {f : Floor} {h : Holder} (hf : f.holder = some h) : f.engaged h.pos = true := by
  simp [Floor.engaged, hf]

theorem Floor.releaseCode_of_free {f : Floor} {p : Pos} (h : f.engaged p = false) : f.releaseCode p = .notWaiting := if_pos h

theorem Floor.releaseCode_of_pinned {f : Floor} {h : Holder} (hf : f.holder = some h) (hp : h.pinned = true) :
    f.releaseCode h.pos = .notPermitted := by
  simp [Floor.releaseCode, Floor.engaged_of_holder hf, hf, hp]

theorem Floor.releaseCode_of_holder {f : Floor} {h : Holder} (hf : f.holder = some h) (hp : h.pinned = false) :
    f.releaseCode h.pos = .accepted := by
  simp [Floor.releaseCode, Floor.engaged_of_holder hf, hf, hp]

theorem Floor.releaseCode_of_other {f : Floor} {p : Pos} (he : f.engaged p = true) (hp : f.holderPos ≠ some p) :
    f.releaseCode p = .accepted := by
  cases hf : f.holder with
  | none => simp [Floor.releaseCode, he, hf]
  | some h =>
    have hne : h.pos ≠ p := by simpa [Floor.holderPos, hf] using hp
    simp [Floor.releaseCode, he, hf, hne]

/-! ### The command -/

theorem exec_floorRelease_of_submits {s t : State} {q : Requester} {p : Pos} {b : List Byte}
    (hs : s.Submits q .floorRelease p b t) : exec (.floorRelease q) s = .next (t.floorRelease p (requesterVia q) b) :=
  congrArg Host.Outcome.next (State.request_of_sends hs _)

theorem exec_floorRelease_bad {s t : State} {q : Requester} {p : Pos} {b : List Byte} (hs : s.Submits q .floorRelease p b t)
    (hb : numOf 16 (byteAt b 0) = none) : exec (.floorRelease q) s = .next (t.answer q .badValue) := by
  rw [exec_floorRelease_of_submits hs, ← State.reply_of_sends hs]
  simp only [State.floorRelease, hb]

section OfGroup
variable {s t : State} {q : Requester} {p : Pos} {b : List Byte} {g : Grp} {r : GroupRec} (hs : s.Submits q .floorRelease p b t)
  (hb : numOf 16 (byteAt b 0) = some g) (hr : s.group g = r)
include hs hb hr

theorem exec_floorRelease_not_hoot (hk : r.kind ≠ .hoot) : exec (.floorRelease q) s = .next (t.answer q .notWaiting) := by
  rw [exec_floorRelease_of_submits hs, ← State.reply_of_sends hs]
  simp only [State.floorRelease, hb, State.group_of_submits hs, hr]
  rw [if_pos hk]

variable (hk : r.kind = .hoot)
include hk

theorem exec_floorRelease_refused {c : Code} (hc : r.floor.releaseCode p = c) (hn : c ≠ .accepted) :
    exec (.floorRelease q) s = .next (t.answer q c) := by
  rw [exec_floorRelease_of_submits hs, ← State.reply_of_sends hs]
  simp only [State.floorRelease, hb, State.group_of_submits hs, hr, hc]
  rw [if_neg (by simp [hk]), if_neg hn]

theorem exec_floorRelease_accepted (hc : r.floor.releaseCode p = .accepted) :
    exec (.floorRelease q) s = .next ((t.actFloor g fun a => a.release r.holdLimit t.fair p).answer q .accepted) := by
  rw [exec_floorRelease_of_submits hs, ← State.reply_of_sends hs]
  simp only [State.floorRelease, hb, State.group_of_submits hs, hr]
  rw [if_neg (by simp [hk]), if_pos hc]

end OfGroup

theorem exec_holdTimerExpiry_idle {s : State} {g : Grp} (ht : (s.group g).floor.holdTimer ≠ some 0) :
    exec (.holdTimerExpiry g) s = .next s := by
  change execHoldTimerExpiry g s = _
  rw [execHoldTimerExpiry, if_neg (by simpa [Timer.ran] using ht)]

theorem exec_holdTimerExpiry_ran {s : State} {g : Grp} {r : GroupRec} (hr : s.group g = r) (ht : r.floor.holdTimer = some 0) :
    exec (.holdTimerExpiry g) s =
      .next (s.actFloor g fun a => (a.endGrant (some .timedOut) (markFair s.fair)).grantRule r.holdLimit) := by
  change execHoldTimerExpiry g s = _
  rw [execHoldTimerExpiry, hr, if_pos (by simp [Timer.ran, ht])]
  rfl

/-- Settles O32: by what the position is to the floor, and by whether the hold timer has run out. -/
theorem floorEndsPassItOn : Obligations.FloorEndsPassItOn := by
  refine ⟨fun s t q p b hs hb => exec_floorRelease_bad hs hb, ?_⟩
  rintro s g r f p limit marked hr rfl rfl rfl
  refine ⟨fun t q b hs hb hk => exec_floorRelease_not_hoot hs hb hr hk, fun t q b hs hb hk => ?release,
    fun ht => exec_holdTimerExpiry_idle (hr ▸ ht), fun h w a b up stay ht hf hp hw hne => ?expiryPicks,
    fun h ht hf hp hw => ?expiryAlone⟩
  case release =>
    have hr' : t.group g = r := (State.group_of_submits hs g).trans hr
    have hfair : t.fair = s.fair := State.fair_of_submits hs
    refine ⟨fun he => ?free, fun h hf hp hpin => ?pinned, fun h hf hp hpin hw => ?alone,
      fun h w a b up stay hf hp hpin hw hne => ?picks, fun w a b up stay hp hw hpos hd ht => ?queued, fun he hp hw => ?unqueued⟩
    case free => exact exec_floorRelease_refused hs hb hr hk (Floor.releaseCode_of_free he) (by decide)
    case pinned =>
      subst hp
      exact exec_floorRelease_refused hs hb hr hk (Floor.releaseCode_of_pinned hf hpin) (by decide)
    case alone =>
      subst hp
      rw [exec_floorRelease_accepted hs hb hr hk (Floor.releaseCode_of_holder hf hpin),
        State.releaseFloor_of_holder_alone hr' (by simp [Floor.holderPos, hf]) hw, hfair]
      rfl
    case picks =>
      subst hp
      rw [exec_floorRelease_accepted hs hb hr hk (Floor.releaseCode_of_holder hf hpin),
        State.releaseFloor_of_holder_picks hr' (by simp [Floor.holderPos, hf]) hw hne, hfair]
      rfl
    case queued =>
      have he : r.floor.engaged p = true := by simp [Floor.engaged, hw.1, hpos]
      rw [exec_floorRelease_accepted hs hb hr hk (Floor.releaseCode_of_other he hp),
        State.releaseFloor_of_queued hr' hp hw hpos hd (by simp [ht])]
    case unqueued =>
      rw [exec_floorRelease_accepted hs hb hr hk (Floor.releaseCode_of_other he hp), State.releaseFloor_of_unqueued hr' hp hw]
  case expiryPicks =>
    subst hp
    rw [exec_holdTimerExpiry_ran hr ht, State.passFloor_to_picked hr hf _ hw hne]
    rfl
  case expiryAlone =>
    subst hp
    rw [exec_holdTimerExpiry_ran hr ht, State.passFloor_to_nobody hr hf _ hw]
    rfl

end Sys2Proof.Machine
end

section
/-! PIN_FLOOR and UNPIN (R80, R81, R84, R87, R88). -/

namespace Sys2Proof.Machine

/-! ### A pin on a floor (R87) -/

section Pin
variable {f : Floor} {p : Pos} (limit : Level) (fair : Pos → Bool)

/-- The present holder keeps the floor. -/
theorem FloorAct.pin_of_holder (hp : f.holderPos = some p) :
    FloorAct.pin { floor := f } limit fair p =
      { floor := { f with holder := some (pinnedHolder p), holdTimer := none, served := f.served.put p false }
        granted := [pinnedHolder p] } := if_pos hp

/-- A position that does not hold the floor leaves its queue or its deferred list; behind the last waiter of a level the deferred
entries move up (R84). -/
theorem FloorAct.withdraw_of_queued_or_not {w : Waiter} {a b up stay : List Waiter} (hp : f.holderPos ≠ some p)
    (ht : ∀ k ∈ f.talkers, k.pos ≠ p)
    (h : f.Splits w a b up stay ∧ w.pos = p ∧ (∀ k ∈ f.deferred, k.pos ≠ p)
      ∨ (∀ k ∈ f.wait, k.pos ≠ p) ∧ a = f.wait ∧ b = [] ∧ up = [] ∧ stay = f.deferred.filter fun k => k.pos != p) :
    FloorAct.withdraw { floor := f } p = { floor := f.movedUp (a ++ b) up stay, moved := up } := by
  have hrelease : FloorAct.release { floor := f } 0 (fun _ => false) p = FloorAct.withdraw { floor := f } p := if_neg hp
  rw [← hrelease]
  rcases h with ⟨hw, hpos, hd⟩ | ⟨hw, rfl, rfl, rfl, rfl⟩
  · exact FloorAct.release_of_queued _ _ hp hw hpos hd ht
  · have hstay : f.talkers.filter (fun k => k.pos != p) = f.talkers := List.filter_eq_self.mpr (by simpa using ht)
    have hany : (f.talkers.any fun k => k.pos == p) = false := by simpa using ht
    rw [FloorAct.release_of_unqueued _ _ hp hw, hstay, hany]
    simp [Floor.movedUp]

/-- A position that has left its place on the floor ends the grant of the holder. -/
theorem FloorAct.pin_over_holder {h : Holder} {rest up stay : List Waiter} (hf : f.holder = some h) (hne : h.pos ≠ p)
    (hw : FloorAct.withdraw { floor := f } p = { floor := f.movedUp rest up stay, moved := up }) :
    FloorAct.pin { floor := f } limit fair p =
      { floor := { f with
          holder := some (pinnedHolder p), holdTimer := none, wait := rest ++ up, deferred := stay
          served := (markFair fair h.pos (up.foldl (fun m k => m.put k.pos false) f.served)).put p false }
        lost := [(h.pos, .preempted)]
        granted := [pinnedHolder p]
        moved := up
        touched := [h.pos, p] } := by
  have hp : f.holderPos ≠ some p := by simpa [Floor.holderPos, hf] using hne
  rw [FloorAct.pin, if_neg hp, hw]
  simp [FloorAct.endGrant, FloorAct.direct, FloorAct.grant, Floor.movedUp, hf, pinnedHolder, unmark]

theorem FloorAct.pin_on_free (hf : f.holder = none) (he : f.engaged p = false) :
    FloorAct.pin { floor := f } limit fair p =
      { floor := { f with holder := some (pinnedHolder p), holdTimer := none, served := f.served.put p false }
        granted := [pinnedHolder p]
        touched := [p] } := by
  obtain ⟨hp, hw, hd, ht⟩ := Floor.engaged_eq_false.mp he
  have hstay : f.deferred.filter (fun k => k.pos != p) = f.deferred := filter_pos_ne_of_forall hd
  have hwithdraw := FloorAct.withdraw_of_queued_or_not (w := ⟨p, 0, false, .explicit⟩) hp ht (.inr ⟨hw, rfl, rfl, rfl, rfl⟩)
  rw [FloorAct.pin, if_neg hp, hwithdraw]
  simp [FloorAct.endGrant, FloorAct.direct, FloorAct.grant, Floor.movedUp, hf, pinnedHolder, unmark, hstay]

end Pin

/-! ### In the state -/

section PinFloor
variable {s : State} {g : Grp} {r : GroupRec} {p : Pos} (hg : s.group g = r)
include hg

theorem State.pinFloor_of_holder (hp : r.floor.holderPos = some p) :
    (s.actFloor g fun a => a.pin r.holdLimit s.fair p) = (s.setGroup g { r with floor := { r.floor with
        holder := some ⟨p, 3, true, true, .explicit⟩, holdTimer := none, served := r.floor.served.put p false } }).emit
      { given := [⟨.gfu, portOf p, .floorGranted g 3 true true⟩] } := by
  rw [State.actFloor_eq hg, FloorAct.pin_of_holder _ _ hp]
  refine congrArg (State.emit _) ?_
  simp [FloorAct.sends, hp, Floor.holderPos_mk, pinnedHolder]

theorem State.pinFloor_over_holder {h : Holder} {rest up stay : List Waiter} (hf : r.floor.holder = some h) (hne : h.pos ≠ p)
    (hw : FloorAct.withdraw { floor := r.floor } p = { floor := r.floor.movedUp rest up stay, moved := up }) :
    (s.actFloor g fun a => a.pin r.holdLimit s.fair p) = (s.setGroup g { r with floor := { r.floor with
        holder := some ⟨p, 3, true, true, .explicit⟩, holdTimer := none, wait := rest ++ up, deferred := stay
        served := (markFair s.fair h.pos (up.foldl (fun m k => m.put k.pos false) r.floor.served)).put p false } }).emit
      { given := ⟨.gfu, portOf h.pos, .floorLost g .preempted⟩ :: ⟨.gfu, portOf p, .floorGranted g 3 true true⟩
          :: (up.map fun k => ⟨.gfu, portOf k.pos, .floorWait g k.level⟩)
          ++ (posList r.listening).map fun j => ⟨.gfu, portOf j, .floorHolder g (some p)⟩
        notices := [.group g, .position h.pos, .position p] } := by
  rw [State.actFloor_eq hg, FloorAct.pin_over_holder _ _ hf hne hw]
  refine congrArg (State.emit _) ?_
  simp [FloorAct.sends, Floor.holderPos, hf, hne, pinnedHolder]

theorem State.pinFloor_on_free (hf : r.floor.holder = none) (he : r.floor.engaged p = false) :
    (s.actFloor g fun a => a.pin r.holdLimit s.fair p) = (s.setGroup g { r with floor := { r.floor with
        holder := some ⟨p, 3, true, true, .explicit⟩, holdTimer := none, served := r.floor.served.put p false } }).emit
      { given := ⟨.gfu, portOf p, .floorGranted g 3 true true⟩
          :: (posList r.listening).map fun j => ⟨.gfu, portOf j, .floorHolder g (some p)⟩
        notices := [.group g, .position p] } := by
  rw [State.actFloor_eq hg, FloorAct.pin_on_free _ _ hf he]
  refine congrArg (State.emit _) ?_
  simp [FloorAct.sends, Floor.holderPos, hf, pinnedHolder]

end PinFloor

/-! ### The checks (R87) -/

section Checks
variable {s : State} {g : Grp} {p : Pos}

theorem State.pinCheck_of_kind (h : (s.group g).kind ≠ .hoot ∨ (s.group g).openMode = true) : s.pinCheck g p = some .badKind :=
  if_pos h

variable (hk : (s.group g).kind = .hoot) (hm : (s.group g).openMode = false)
include hk hm

theorem State.pinCheck_of_outsider (h : (s.group g).listening.look p = false ∨ s.gfu.up.look p = false) :
    s.pinCheck g p = some .notMember := by
  have hmay : s.mayTalk p g = false := by rcases h with h | h <;> simp [State.mayTalk, h]
  rw [State.pinCheck, if_neg (by simp [hk, hm]), if_pos hmay]

variable (hl : (s.group g).listening.look p = true) (hup : s.gfu.up.look p = true)
include hl hup

theorem State.pinCheck_of_pinned {h : Holder} (hf : (s.group g).floor.holder = some h) (hp : h.pinned = true) :
    s.pinCheck g p = some (if h.pos = p then .already else .groupBusy) := by
  have hmay := State.mayTalk_iff.mpr ⟨hk, hl, hup⟩
  rw [State.pinCheck, if_neg (by simp [hk, hm]), if_neg (by simp [hmay])]
  simp only [hf, hp, if_true]

theorem State.pinCheck_of_unpinned (hf : ∀ h, (s.group g).floor.holder = some h → h.pinned = false) :
    s.pinCheck g p = if s.engagedElsewhere p g then some .micBusy else none := by
  have hmay := State.mayTalk_iff.mpr ⟨hk, hl, hup⟩
  rw [State.pinCheck, if_neg (by simp [hk, hm]), if_neg (by simp [hmay])]
  cases hh : (s.group g).floor.holder with
  | none => rfl
  | some h => simp only [hf h hh, Bool.false_eq_true, if_false]

end Checks

/-! ### The commands -/

theorem exec_pinFloor_bad {s : State} {n : Port} {f : Frame} (hs : s.Offers n .pinFloor f)
    (hb : numOf 16 (byteAt f.body 0) = none ∨ numOf 16 (byteAt f.body 1) = none) :
    exec (.pinFloor n) s = .next ((s.takeFrame n f).answer (.port n) .badValue) := by
  change execPinFloor n s = _
  rw [execPinFloor, State.dispatch_of_offers hs]
  rcases hb with hb | hb <;> simp [hb]

section PinCommand
variable {s : State} {n : Port} {f : Frame} {g : Grp} {p : Pos} (hs : s.Offers n .pinFloor f)
  (hg : numOf 16 (byteAt f.body 0) = some g) (hp : numOf 16 (byteAt f.body 1) = some p)
include hs hg hp

theorem exec_pinFloor_refused {c : Code} (hc : s.pinCheck g p = some c) :
    exec (.pinFloor n) s = .next ((s.takeFrame n f).answer (.port n) c) := by
  have hc' : (s.takeFrame n f).pinCheck g p = some c := hc
  change execPinFloor n s = _
  rw [execPinFloor, State.dispatch_of_offers hs]
  simp only [hg, hp, hc']

theorem exec_pinFloor_accepted {r : GroupRec} (hr : s.group g = r) (hc : s.pinCheck g p = none) :
    exec (.pinFloor n) s = .next
      (((s.takeFrame n f).actFloor g fun a => a.pin r.holdLimit (s.takeFrame n f).fair p).answer (.port n) .accepted) := by
  subst hr
  have hc' : (s.takeFrame n f).pinCheck g p = none := hc
  change execPinFloor n s = _
  rw [execPinFloor, State.dispatch_of_offers hs]
  simp only [hg, hp, hc', State.takeFrame_group]

end PinCommand

theorem exec_unpin_bad {s : State} {n : Port} {f : Frame} (hs : s.Offers n .unpin f)
    (hb : numOf 16 (byteAt f.body 0) = none) :
    exec (.unpin n) s = .next ((s.takeFrame n f).answer (.port n) .badValue) := by
  change execUnpin n s = _
  rw [execUnpin, State.dispatch_of_offers hs]
  simp only [hb]

section UnpinCommand
variable {s : State} {n : Port} {f : Frame} {g : Grp} (hs : s.Offers n .unpin f) (hg : numOf 16 (byteAt f.body 0) = some g)
include hs hg

theorem exec_unpin_refused (hf : ∀ h, (s.group g).floor.holder = some h → h.pinned = false) :
    exec (.unpin n) s = .next ((s.takeFrame n f).answer (.port n) .notWaiting) := by
  have hany : ((s.takeFrame n f).group g).floor.holder.any (fun h => h.pinned) = false := by
    rw [State.takeFrame_group]
    cases hh : (s.group g).floor.holder with
    | none => rfl
    | some h => exact hf h hh
  change execUnpin n s = _
  rw [execUnpin, State.dispatch_of_offers hs]
  simp only [hg]
  rw [if_neg (Bool.eq_false_iff.mp hany)]

theorem exec_unpin_accepted {r : GroupRec} {h : Holder} (hr : s.group g = r) (hf : r.floor.holder = some h)
    (hp : h.pinned = true) :
    exec (.unpin n) s = .next (((s.takeFrame n f).actFloor g fun a =>
      (a.endGrant (some .unpinned) (markFair (s.takeFrame n f).fair)).grantRule r.holdLimit).answer (.port n) .accepted) := by
  change execUnpin n s = _
  rw [execUnpin, State.dispatch_of_offers hs]
  subst hr
  simp only [hg]
  rw [if_pos (by simp [hf, hp])]
  rfl

end UnpinCommand

/-- Settles O33: by the check that refuses the pin, or else by what the position is to the floor; and by whether the holder that
UNPIN finds is pinned. -/
theorem pinAndUnpin : Obligations.PinAndUnpin := by
  refine ⟨fun s n f => ⟨exec_pinFloor_bad, exec_unpin_bad⟩, fun s n f g r hg hr => ⟨fun p hs hp => ?pin, fun hs => ?unpin⟩⟩
  case pin =>
    have hr' : (s.takeFrame n f).group g = r := hr
    refine ⟨fun hk => exec_pinFloor_refused hs hg hp (State.pinCheck_of_kind (hr ▸ hk)), fun hk hm hout => ?outsider,
      fun hk hm hl hup => ?member⟩
    case outsider =>
      subst hr
      exact exec_pinFloor_refused hs hg hp (State.pinCheck_of_outsider hk hm hout)
    case member =>
      have hunpinned (hf : ∀ h, r.floor.holder = some h → h.pinned = false) :
          s.pinCheck g p = if s.engagedElsewhere p g then some .micBusy else none := by
        subst hr
        exact State.pinCheck_of_unpinned hk hm hl hup hf
      have hpass (hf : ∀ h, r.floor.holder = some h → h.pinned = false)
          (hfree : ∀ k, k ≠ g → (s.group k).floor.engaged p = false) : s.pinCheck g p = none := by
        rw [hunpinned hf, if_neg (by simp [State.engagedElsewhere_eq_false.mpr hfree])]
      have hone {h : Holder} (hf : r.floor.holder = some h) (hpin : h.pinned = false) :
          ∀ h', r.floor.holder = some h' → h'.pinned = false := by
        rintro h' hf'
        rwa [← Option.some.inj (hf.symm.trans hf')]
      refine ⟨fun h hf hpin => ?pinned, fun hf helse => ?elsewhere, fun h hf hpin hfree hpos => ?holder,
        fun h hf hpin hfree => ?preempted, fun hf hfree => ?free, fun h w a b up stay hf hpin hne hfree ht hw => ?placed⟩
      case pinned =>
        subst hr
        exact exec_pinFloor_refused hs hg hp (State.pinCheck_of_pinned hk hm hl hup hf hpin)
      case elsewhere =>
        refine exec_pinFloor_refused hs hg hp ?_
        rw [hunpinned hf, if_pos (State.engagedElsewhere_iff.mpr helse)]
      case holder =>
        rw [exec_pinFloor_accepted hs hg hp hr (hpass (hone hf hpin) hfree),
          State.pinFloor_of_holder hr' (by simp [Floor.holderPos, hf, hpos])]
      case preempted =>
        obtain ⟨hh, hw, hd, ht⟩ := Floor.engaged_eq_false.mp (hr ▸ hfree g)
        have hwithdraw := FloorAct.withdraw_of_queued_or_not (w := ⟨p, 0, false, .explicit⟩) hh ht (.inr ⟨hw, rfl, rfl, rfl, rfl⟩)
        rw [exec_pinFloor_accepted hs hg hp hr (hpass (hone hf hpin) fun k _ => hfree k),
          State.pinFloor_over_holder hr' hf (Floor.holder_ne_of_free (hr ▸ hfree g) hf) hwithdraw, filter_pos_ne_of_forall hd,
          List.append_nil, List.append_nil]
        rfl
      case free =>
        rw [exec_pinFloor_accepted hs hg hp hr (hpass (by simp [hf]) fun k _ => hfree k),
          State.pinFloor_on_free hr' hf (hr ▸ hfree g)]
      case placed =>
        have hh : r.floor.holderPos ≠ some p := by simpa [Floor.holderPos, hf] using hne
        rw [exec_pinFloor_accepted hs hg hp hr (hpass (hone hf hpin) hfree),
          State.pinFloor_over_holder hr' hf hne (FloorAct.withdraw_of_queued_or_not hh ht hw)]
        rfl
  case unpin =>
    refine ⟨fun hf => exec_unpin_refused hs hg (hr ▸ hf), fun h hf hpin hw => ?alone, fun h w a b up stay hf hpin hw hne => ?picks⟩
    all_goals
      have hr' : (s.takeFrame n f).group g = r := hr
      rw [exec_unpin_accepted hs hg hr hf hpin]
    case alone =>
      rw [State.passFloor_to_nobody hr' hf _ hw]
      rfl
    case picks =>
      rw [State.passFloor_to_picked hr' hf _ hw hne]
      rfl

end Sys2Proof.Machine
end

section
/-! What the commands of the other blocks leave of the records of CMX and RTU: all of them. -/

namespace Sys2Proof.Machine

/-- The records of CMX and RTU. -/
def State.mixer (s : State) : Cmx × Rtu := (s.cmx, s.rtu)

theorem State.mixer_eq {s t : State} (hc : t.cmx = s.cmx) (hr : t.rtu = s.rtu) : t.mixer = s.mixer := by
  simp [State.mixer, hc, hr]

theorem State.cmx_of_mixer {s t : State} (h : t.mixer = s.mixer) : t.cmx = s.cmx := congrArg Prod.fst h
theorem State.rtu_of_mixer {s t : State} (h : t.mixer = s.mixer) : t.rtu = s.rtu := congrArg Prod.snd h

/-! ### The shared operations -/

@[simp] theorem State.emit_mixer (s : State) (o : Sends) : (s.emit o).mixer = s.mixer := rfl
@[simp] theorem State.setChan_mixer (s : State) (c : Chan) : (s.setChan c).mixer = s.mixer := rfl
@[simp] theorem State.setPort_mixer (s : State) (n : Port) (r : PortRec) : (s.setPort n r).mixer = s.mixer := rfl
@[simp] theorem State.setPos_mixer (s : State) (p : Pos) (r : PosRec) : (s.setPos p r).mixer = s.mixer := rfl
@[simp] theorem State.applyLine_mixer (s : State) (l : Line) (fx : LineFx) : (s.applyLine l fx).mixer = s.mixer := rfl
@[simp] theorem State.setGroup_mixer (s : State) (g : Grp) (r : GroupRec) : (s.setGroup g r).mixer = s.mixer := rfl
@[simp] theorem State.setRun_mixer (s : State) (p : Pos) (r : RunRec) : (s.setRun p r).mixer = s.mixer := rfl
@[simp] theorem State.setEvents_mixer (s : State) (n : Port) (e : EventPort) : (s.setEvents n e).mixer = s.mixer := rfl
@[simp] theorem State.setReset_mixer (s : State) (r : Option ResetProgress) : (s.setReset r).mixer = s.mixer := rfl
@[simp] theorem State.takeFrame_mixer (s : State) (n : Port) (f : Frame) : (s.takeFrame n f).mixer = s.mixer := rfl
@[simp] theorem State.answer_mixer (s : State) (r : Requester) (c : Code) (b : List Byte) :
    (s.answer r c b).mixer = s.mixer := State.mixer_eq (by simp) (by simp)
@[simp] theorem State.reply_mixer (s : State) (p : Pos) (v : Via) (c : Code) : (s.reply p v c).mixer = s.mixer :=
  State.answer_mixer ..
@[simp] theorem State.forward_mixer (s : State) (o : Owner) (m : ToOwner) : (s.forward o m).mixer = s.mixer :=
  State.mixer_eq (by simp) (by simp)
@[simp] theorem State.freeClaimOf_mixer (s : State) (p : Pos) (h : Handset) (c : Claim) :
    (s.freeClaimOf p h c).mixer = s.mixer := State.mixer_eq (by simp) (by simp)
@[simp] theorem State.claimFor_mixer (s : State) (p : Pos) (h : Handset) (v : Via) (o : Owner) (m : ToOwner) :
    (s.claimFor p h v o m).mixer = s.mixer := State.mixer_eq (by simp) (by simp)

theorem State.nextForHandset_mixer {s t : State} {o : Owner} {p : Pos} {h : Handset} {m : ToOwner}
    (e : s.nextForHandset o p h = some (m, t)) : t.mixer = s.mixer := by
  obtain ⟨-, _, _, -, rfl, -⟩ := State.nextForHandset_some e
  exact State.mixer_eq (by simp) (by simp)
theorem State.nextForSpeaker_mixer {s t : State} {o : Owner} {p : Pos} {k : Spk} {m : ToOwner}
    (e : s.nextForSpeaker o p k = some (m, t)) : t.mixer = s.mixer := by
  obtain ⟨-, _, _, -, rfl, -⟩ := State.nextForSpeaker_some e
  exact State.mixer_eq (by simp) (by simp)
theorem State.heardOfHandset_mixer {s t : State} {o : Owner} {p : Pos} {h : Handset} {m : ToPtb}
    (e : s.heardOfHandset o p h = some (m, t)) : t.mixer = s.mixer := by
  obtain ⟨-, _, _, -, rfl, -⟩ := State.heardOfHandset_some e
  exact State.mixer_eq (by simp) (by simp)
theorem State.heardOfSpeakers_mixer {s t : State} {o : Owner} {p : Pos} {m : ToPtb}
    (e : s.heardOfSpeakers o p = some (m, t)) : t.mixer = s.mixer := by
  obtain ⟨-, _, _, -, rfl, -⟩ := State.heardOfSpeakers_some e
  exact State.mixer_eq (by simp) (by simp)

theorem foldl_mixer {α : Type} {f : State → α → State} (h : ∀ u a, (f u a).mixer = u.mixer) (l : List α) (s : State) :
    (l.foldl f s).mixer = s.mixer := by
  induction l generalizing s with
  | nil => rfl
  | cons a l ih => exact (ih _).trans (h s a)

theorem State.dispatchIf_mixer {k : ReqKind} {n : Port} {ok : List Byte → Bool} {own : List Byte → State → State}
    (h : ∀ b t, (own b t).mixer = t.mixer) (s : State) : (s.dispatchIf k n ok own).mixer = s.mixer :=
  State.dispatchIf_keeps State.mixer (fun _ _ _ => rfl) State.answer_mixer h s

theorem State.request_mixer {k : ReqKind} {r : Requester} {own : Pos → Via → List Byte → State → State}
    (h : ∀ p v b t, (own p v b t).mixer = t.mixer) (s : State) : (s.request k r own).mixer = s.mixer :=
  State.request_keeps State.mixer (fun _ _ _ => rfl) State.answer_mixer (fun _ _ => rfl) h s

theorem State.portRequest_mixer {n : Port} {b : Byte} {own : Port → State → State}
    (h : ∀ m t, (own m t).mixer = t.mixer) (s : State) : (s.portRequest n b own).mixer = s.mixer := by
  unfold State.portRequest
  repeat' split
  all_goals simp [h]

/-! ### LCU -/

@[simp] theorem State.dropGrant_mixer (s : State) (w : Waiting) (granted ofReset : Bool) :
    (s.dropGrant w granted ofReset).mixer = s.mixer := by
  unfold State.dropGrant
  split <;> rfl

@[simp] theorem State.refuseTake_mixer (s : State) (p : Pos) (h : Handset) (v : Via) (c : Code) :
    (s.refuseTake p h v c).mixer = s.mixer := rfl
@[simp] theorem State.askCoverage_mixer (s : State) (p : Pos) (h : Handset) (v : Via) (l : Line) :
    (s.askCoverage p h v l).mixer = s.mixer := rfl
@[simp] theorem State.finishTake_mixer (s : State) (p : Pos) (h : Handset) (v : Via) (l : Line) (covered : Bool) :
    (s.finishTake p h v l covered).mixer = s.mixer := rfl

@[simp] theorem State.lcuTake_mixer (s : State) (p : Pos) (h : Handset) (v : Via) (l : Line) :
    (s.lcuTake p h v l).mixer = s.mixer := by
  unfold State.lcuTake
  repeat' split
  all_goals rfl

@[simp] theorem State.lcuAnswer_mixer (s : State) (w : Waiting) (granted : Bool) : (s.lcuAnswer w granted).mixer = s.mixer := by
  unfold State.lcuAnswer
  repeat' split
  all_goals simp

@[simp] theorem State.lcuHold_mixer (s : State) (p : Pos) (h : Handset) (v : Via) (l : Line) :
    (s.lcuHold p h v l).mixer = s.mixer := by
  unfold State.lcuHold
  repeat' split
  all_goals simp

@[simp] theorem State.setPrivacy_mixer (s : State) (p : Pos) (v : Via) (b : List Byte) :
    (s.setPrivacy p v b).mixer = s.mixer := by
  unfold State.setPrivacy
  repeat' split
  all_goals simp

@[simp] theorem State.signalLine_mixer (s : State) (p : Pos) (v : Via) (b : List Byte) :
    (s.signalLine p v b).mixer = s.mixer := by
  unfold State.signalLine
  repeat' split
  all_goals simp

@[simp] theorem State.lineConfig_mixer (s : State) (n : Port) (b : List Byte) : (s.lineConfig n b).mixer = s.mixer := by
  unfold State.lineConfig
  repeat' split
  all_goals simp

@[simp] theorem State.lineOut_mixer (s : State) (l : Line) : (s.lineOut l).mixer = s.mixer := by
  simp only [State.lineOut]
  repeat' split
  all_goals rfl

@[simp] theorem State.lineIn_mixer (s : State) (n : Port) (l : Line) : (s.lineIn n l).mixer = s.mixer := by
  unfold State.lineIn
  repeat' split
  all_goals simp

@[simp] theorem State.changeApp_mixer (s : State) (l : Line) (p : Pos) (m : AppMode) :
    (s.changeApp l p m).mixer = s.mixer := by
  simp only [State.changeApp]
  repeat' split
  all_goals rfl

@[simp] theorem State.setBars_mixer (s : State) (q : Line → Pos → Bool) (on : Bool) :
    (s.setBars q on).mixer = s.mixer := by
  simp only [State.setBars]
  split <;> rfl

@[simp] theorem State.lineDetach_mixer (s : State) (l : Line) (g : Grp) : (s.lineDetach l g).mixer = s.mixer := by
  unfold State.lineDetach
  split <;> rfl

@[simp] theorem State.lcuComplete_mixer (s : State) : s.lcuComplete.mixer = s.mixer :=
  foldl_mixer (fun u l => u.applyLine_mixer l _) _ s

/-! ### GFU -/

@[simp] theorem State.actFloor_mixer (s : State) (g : Grp) (act : FloorAct → FloorAct) :
    (s.actFloor g act).mixer = s.mixer := rfl
@[simp] theorem State.takeFloor_mixer (s : State) (p : Pos) (g : Grp) (latched : Bool) (o : Origin) :
    (s.takeFloor p g latched o).mixer = s.mixer := rfl
@[simp] theorem State.setAttached_mixer (s : State) (g : Grp) (ls : List Line) : (s.setAttached g ls).mixer = s.mixer := rfl
@[simp] theorem State.setListening_mixer (s : State) (m : Listening) : (s.setListening m).mixer = s.mixer := rfl
@[simp] theorem State.tellLcu_mixer (s : State) (m : AttachToLcu) : (s.tellLcu m).mixer = s.mixer := rfl
@[simp] theorem State.leaveGroup_mixer (s : State) (g : Grp) (p : Pos) : (s.leaveGroup g p).mixer = s.mixer := rfl

@[simp] theorem State.floorRequest_mixer (s : State) (p : Pos) (v : Via) (b : List Byte) :
    (s.floorRequest p v b).mixer = s.mixer := by
  unfold State.floorRequest
  repeat' split
  all_goals simp

@[simp] theorem State.floorRelease_mixer (s : State) (p : Pos) (v : Via) (b : List Byte) :
    (s.floorRelease p v b).mixer = s.mixer := by
  simp only [State.floorRelease]
  repeat' split
  all_goals simp

@[simp] theorem State.voxActive_mixer (s : State) (p : Pos) : (s.voxActive p).mixer = s.mixer := by
  unfold State.voxActive
  repeat' split
  all_goals rfl

@[simp] theorem State.voxQuiet_mixer (s : State) (p : Pos) : (s.voxQuiet p).mixer = s.mixer := by
  unfold State.voxQuiet
  split <;> rfl

theorem State.nextVox_mixer {s t : State} {p : Pos} {on : Bool} (h : s.nextVox p on = some t) : t.mixer = s.mixer := by
  unfold State.nextVox at h
  repeat' split at h
  · obtain rfl := Option.some.inj h
    rfl
  all_goals simp at h

theorem State.nextListening_mixer {s t : State} {on : Bool} {m : Listening} (h : s.nextListening on = some (m, t)) :
    t.mixer = s.mixer := by
  unfold State.nextListening at h
  repeat' split at h
  case h_2.isTrue =>
    obtain ⟨-, rfl⟩ := Prod.ext_iff.mp (Option.some.inj h)
    rfl
  all_goals simp at h

theorem State.nextAttach_mixer {s t : State} {l : Line} {m : AttachToGfu} (h : s.nextAttach l = some (m, t)) :
    t.mixer = s.mixer := by
  obtain ⟨_, -, e⟩ := Option.map_eq_some_iff.mp h
  obtain ⟨-, rfl⟩ := Prod.ext_iff.mp e
  rfl

@[simp] theorem State.loseStanding_mixer (s : State) (kind : GroupKind) (g : Grp) (p : Pos) :
    (s.loseStanding kind g p).mixer = s.mixer := by
  unfold State.loseStanding
  repeat' split
  all_goals rfl

@[simp] theorem State.configGroup_mixer (s : State) (g : Grp) (c : GroupConfig) : (s.configGroup g c).mixer = s.mixer := by
  have h (ps : List Pos) : (ps.foldl (fun u p => u.loseStanding (s.group g).kind g p)
      (s.setGroup g ((s.group g).configured c))).mixer = s.mixer :=
    foldl_mixer (fun u p => u.loseStanding_mixer _ g p) ps _
  simp only [State.configGroup]
  repeat' split
  all_goals simp [h]

@[simp] theorem State.gfuJoin_mixer (s : State) (p : Pos) (h : Handset) (v : Via) (g : Grp) :
    (s.gfuJoin p h v g).mixer = s.mixer := by
  unfold State.gfuJoin
  split <;> rfl

@[simp] theorem State.gfuCall_mixer (s : State) (p : Pos) (h : Handset) (v : Via) (callee : Byte) (voice : Bool) :
    (s.gfuCall p h v callee voice).mixer = s.mixer := by
  unfold State.gfuCall
  split <;> rfl

@[simp] theorem State.gfuAnswer_mixer (s : State) (p : Pos) (h : Handset) (v : Via) (c : CallNo) :
    (s.gfuAnswer p h v c).mixer = s.mixer := by
  unfold State.gfuAnswer
  repeat' split
  all_goals rfl

@[simp] theorem State.endCall_mixer (s : State) (c : CallNo) (p q : Pos) (o : Sends) : (s.endCall c p q o).mixer = s.mixer := rfl

@[simp] theorem State.declineCall_mixer (s : State) (p : Pos) (v : Via) (b : List Byte) :
    (s.declineCall p v b).mixer = s.mixer := by
  unfold State.declineCall
  repeat' split
  all_goals simp

@[simp] theorem State.queryGroupRec_mixer (s : State) (n : Port) (b : Byte) (body : GroupRec → List Byte) :
    (s.queryGroupRec n b body).mixer = s.mixer := by
  unfold State.queryGroupRec
  repeat' split
  all_goals simp

@[simp] theorem State.gfuDown_mixer (s : State) (p : Pos) : (s.gfuDown p).mixer = s.mixer := by
  rw [s.gfuDown_whole p]
  rfl

/-! ### Either owner -/

theorem State.leave_mixer {s t : State} {p : Pos} {h : Handset} {c : Claim} (e : s.leave p h c = some t) : t.mixer = s.mixer := by
  cases c with
  | none | pending => simp [State.leave] at e
  | line l =>
    obtain ⟨_, -, rfl⟩ := Option.map_eq_some_iff.mp e
    rfl
  | group g =>
    obtain ⟨-, rfl⟩ : _ ∧ s.leaveGroup g p = t := by simpa [State.leave, State.leaveJoined] using e
    rfl
  | call n =>
    simp only [State.leave, State.leaveCall] at e
    repeat' split at e
    all_goals cases e
    all_goals rfl

@[simp] theorem State.ownerRelease_mixer (s : State) (p : Pos) (h : Handset) (v : Via) (c : Claim) :
    (s.ownerRelease p h v c).mixer = s.mixer := by
  unfold State.ownerRelease
  split
  · simp
  · next e => simp [State.leave_mixer e]

@[simp] theorem State.ownerReturn_mixer (s : State) (o : Owner) (p : Pos) (h : Handset) (c : Claim) :
    (s.ownerReturn o p h c).mixer = s.mixer := by
  unfold State.ownerReturn
  split
  · rfl
  · next e => simp [State.leave_mixer e]

@[simp] theorem State.answerSpeaker_mixer (s : State) (p : Pos) (k : Spk) (t : Target) :
    (s.answerSpeaker p k t).mixer = s.mixer := by
  cases t <;> rfl

/-! ### PTB -/

theorem State.ptbTake_mixer (s : State) (p : Pos) (v : Via) (b : List Byte) : (s.ptbTake p v b).mixer = s.mixer := by
  unfold State.ptbTake
  split <;> simp

theorem State.ptbJoin_mixer (s : State) (p : Pos) (v : Via) (b : List Byte) : (s.ptbJoin p v b).mixer = s.mixer := by
  unfold State.ptbJoin
  split <;> simp

theorem State.ptbCall_mixer (s : State) (p : Pos) (v : Via) (b : List Byte) : (s.ptbCall p v b).mixer = s.mixer := by
  unfold State.ptbCall
  split <;> simp

theorem State.ptbAnswer_mixer (s : State) (p : Pos) (v : Via) (b : List Byte) : (s.ptbAnswer p v b).mixer = s.mixer := by
  unfold State.ptbAnswer
  split <;> simp

@[simp] theorem State.takeOutcome_mixer (s : State) (o : Owner) (p : Pos) (h : Handset) (v : Via) (x : Claim ⊕ Code) :
    (s.takeOutcome o p h v x).mixer = s.mixer := by
  cases x
  · simp only [State.takeOutcome]
    split <;> simp
  · simp [State.takeOutcome]

theorem State.ptbRelease_mixer (s : State) (p : Pos) (v : Via) (b : List Byte) : (s.ptbRelease p v b).mixer = s.mixer := by
  unfold State.ptbRelease
  repeat' split
  all_goals simp

theorem State.ptbHold_mixer (s : State) (p : Pos) (v : Via) (b : List Byte) : (s.ptbHold p v b).mixer = s.mixer := by
  unfold State.ptbHold
  repeat' split
  all_goals simp

theorem State.ptbMute_mixer (s : State) (p : Pos) (v : Via) (b : List Byte) : (s.ptbMute p v b).mixer = s.mixer := by
  simp only [State.ptbMute]
  repeat' split
  all_goals simp

@[simp] theorem State.assignTo_mixer (s : State) (p : Pos) (k : Spk) (t : Target) : (s.assignTo p k t).mixer = s.mixer := rfl
@[simp] theorem State.setAsking_mixer (s : State) (p : Pos) (k : Spk) (m : Option Asking) :
    (s.setAsking p k m).mixer = s.mixer := rfl
@[simp] theorem State.askSpeaker_mixer (s : State) (p : Pos) (v : Via) (k : Spk) (o : Owner) (t : Target) :
    (s.askSpeaker p v k o t).mixer = s.mixer := State.forward_mixer ..

theorem State.ptbAssign_mixer (s : State) (p : Pos) (v : Via) (b : List Byte) : (s.ptbAssign p v b).mixer = s.mixer := by
  unfold State.ptbAssign
  repeat' split
  all_goals simp

@[simp] theorem State.takeAnswer_mixer (s : State) (p : Pos) (k : Spk) (t : Target) (x : Option Code) (early : Bool) :
    (s.takeAnswer p k t x early).mixer = s.mixer := by
  cases h : (s.pos p).asking.look k with
  | none => simp [State.takeAnswer, h]
  | some m =>
    obtain ⟨c, e, -⟩ | ⟨-, -, -, -, -, e⟩ := State.takeAnswer_cases s h t x early <;> rw [e] <;> simp

@[simp] theorem State.offTarget_mixer (s : State) (p : Pos) (t : Target) : (s.offTarget p t).mixer = s.mixer := by
  simp only [State.offTarget]
  split <;> rfl

theorem State.setVolume_mixer (s : State) (r : Requester) (p : Option Pos) (b : List Byte) :
    (s.setVolume r p b).mixer = s.mixer := by
  unfold State.setVolume
  split <;> simp

@[simp] theorem State.ptbDown_mixer (s : State) (p : Pos) : (s.ptbDown p).mixer = s.mixer := rfl

/-! ### EVU and LKI -/

@[simp] theorem State.evuDown_mixer (s : State) (n : Port) : (s.evuDown n).mixer = s.mixer := by
  unfold State.evuDown
  split <;> simp

@[simp] theorem State.portDown_mixer (s : State) (n : Port) : (s.portDown n).mixer = s.mixer := by
  simp only [State.portDown]
  split <;> rfl

@[simp] theorem State.ptbCatchUp_mixer (s : State) (p : Pos) : (s.ptbCatchUp p).mixer = s.mixer := by
  unfold State.ptbCatchUp
  split <;> simp

@[simp] theorem State.portUp_mixer (s : State) (n : Port) : (s.portUp n).mixer = s.mixer := by
  simp only [State.portUp, State.ptbUp]
  split <;> simp

@[simp] theorem State.changeMode_mixer (s : State) (n : Port) (m : PortMode) : (s.changeMode n m).mixer = s.mixer := by
  simp only [State.changeMode]
  split <;> simp

@[simp] theorem State.endTest_mixer (s : State) (n : Port) (o : LoopOutcome) : (s.endTest n o).mixer = s.mixer := by
  unfold State.endTest
  repeat' split
  all_goals simp

@[simp] theorem State.rxEvent_mixer (s : State) (n : Port) (e : RxEvent) : (s.rxEvent n e).mixer = s.mixer := by
  cases e <;> simp [State.rxEvent]

@[simp] theorem State.takeLoop_mixer (s : State) (n : Port) (bytes : List Byte) (named : RxEvent → Bool) :
    (s.takeLoop n bytes named).mixer = s.mixer := by
  simp only [State.takeLoop]
  repeat' split
  case h_1.isTrue => exact foldl_mixer (fun u a => State.rxEvent_mixer u n a) _ _
  all_goals rfl

@[simp] theorem State.takeOpen_mixer (s : State) (n : Port) : (s.takeOpen n).mixer = s.mixer := by
  unfold State.takeOpen
  split <;> simp

@[simp] theorem State.hear_mixer (s : State) (n : Port) (due : RxState) (bytes : List Byte) (named : RxEvent → Bool) :
    (s.hear n due bytes named).mixer = s.mixer := by
  simp only [State.hear]
  repeat' split
  · exact State.takeLoop_mixer ..
  · exact foldl_mixer (fun u a => State.rxEvent_mixer u n a) _ _
  · rfl

@[simp] theorem State.resetPort_mixer (s : State) (m : Port) : (s.resetPort m).mixer = s.mixer := rfl

/-! ### SQU -/

@[simp] theorem State.endRun_mixer (s : State) (p : Pos) (e : Event) : (s.endRun p e).mixer = s.mixer := rfl
@[simp] theorem State.submit_mixer (s : State) (p : Pos) (q : Submission) : (s.submit p q).mixer = s.mixer := rfl

@[simp] theorem State.seqStep_mixer (s : State) (p : Pos) (k : StepNo) (done : Nat) : (s.seqStep p k done).mixer = s.mixer := by
  unfold State.seqStep
  split <;> simp

@[simp] theorem State.beginStep_mixer (s : State) (p : Pos) (k first : StepNo) (done fuel : Nat) :
    (s.beginStep p k first done fuel).mixer = s.mixer := by
  induction fuel generalizing s k done with
  | zero => rfl
  | succ n ih =>
    simp only [State.beginStep]
    repeat' split
    all_goals simp [ih]

@[simp] theorem State.begin_mixer (s : State) (p : Pos) (k first : StepNo) (done : Nat) :
    (s.begin p k first done).mixer = s.mixer := State.beginStep_mixer ..

@[simp] theorem State.goOn_mixer (s : State) (p : Pos) (k first : StepNo) (done : Nat) :
    (s.goOn p k first done).mixer = s.mixer := by
  unfold State.goOn
  split <;> simp

@[simp] theorem State.stepOutcome_mixer (s : State) (p : Pos) (k first : StepNo) (abort : Bool) (done : Nat) (c : Code) :
    (s.stepOutcome p k first abort done c).mixer = s.mixer := by
  simp only [State.stepOutcome]
  repeat' split
  all_goals simp

theorem State.abortRun_mixer (s : State) (p : Pos) (v : Via) : (s.abortRun p v).mixer = s.mixer := by
  unfold State.abortRun
  split <;> simp

end Sys2Proof.Machine
end

section
/-! The commands by which another block than CMX and RTU takes something leave the records of both alone. -/

namespace Sys2Proof.Machine

/-- The commands that move records of CMX or of RTU. -/
def Instr.movesMixer : Instr → Bool
  | .powerOnReset .. | .changeNotice .. | .derivationStart | .listInstall | .audioFrame .. | .legLevel .. | .queryLeg ..
  | .detectorConfig .. | .softResetAtCmx | .softResetCompletion | .coverageReservation | .coverageRelease | .tapSet ..
  | .tapDisable .. | .tapEnable .. | .tapLock .. | .tapUnlock .. | .tapFix .. | .recorderPresentChange .. => true
  | _ => false

theorem exec_mixer {i : Instr} (hi : Instr.movesMixer i = false) (s : State) :
    ∃ t, exec i s = .next t ∧ t.mixer = s.mixer := by
  cases i with
  | powerOnReset | changeNotice | derivationStart | listInstall | audioFrame | legLevel | queryLeg | detectorConfig
  | softResetAtCmx | softResetCompletion | coverageReservation | coverageRelease | tapSet | tapDisable | tapEnable | tapLock
  | tapUnlock | tapFix | recorderPresentChange => simp [Instr.movesMixer] at hi
  -- An expiry, a notice or a report that moves records of one other block.
  | farSeizeChange | qualifyExpiry | answerExpiry | ringOutExpiry | holdRecallExpiry | guardExpiry | talkReport
  | positionDownAtLcu | attachQuestion | attachOutcome | holdTimerExpiry | positionDownAtPtb | positionDownAtSqu | syncFound
  | replySend | eventFrame | testFrameSend | frameSent | recordPlacement | callAlertExpiry =>
    simp only [exec, execFarSeizeChange, execQualifyExpiry, execAnswerExpiry, execRingOutExpiry, execHoldRecallExpiry,
      execGuardExpiry, execTalkReport, execPositionDownAtLcu, execAttachQuestion, execAttachOutcome, execHoldTimerExpiry,
      execPositionDownAtPtb, execPositionDownAtSqu, execSyncFound, execReplySend, execEventFrame, execTestFrameSend,
      execFrameSent, execRecordPlacement, execCallAlertExpiry]
    repeat' split
    all_goals exact ⟨_, rfl, rfl⟩
  | linkLossTimerExpiry | linkUpTimerExpiry | positionDownAtEvu | positionDownAtGfu | frameOpen | receiverHunt | frameClose
  | frameAbort | frameError | unknownRequest =>
    simp only [exec, execLinkLossTimerExpiry, execLinkUpTimerExpiry, execPositionDownAtEvu, execPositionDownAtGfu,
      execFrameOpen, execReceiverHunt, execFrameClose, execFrameAbort, execFrameError, execUnknownRequest]
    repeat' split
    all_goals exact ⟨_, rfl, by simp⟩
  | standingUpNotice =>
    simp only [exec, execStandingUpNotice]
    repeat' split
    all_goals exact ⟨_, rfl, rfl⟩
  -- A message that is taken from its path.
  | takeLineAtLcu | holdAtLcu | joinGroupAtGfu | callPositionAtGfu | answerCallAtGfu | releaseAtOwner | returnNotice =>
    simp only [exec, execTakeLineAtLcu, execHoldAtLcu, execJoinGroupAtGfu, execCallPositionAtGfu, execAnswerCallAtGfu,
      execReleaseAtOwner, execReturnNotice]
    split
    · next e =>
      have ht := State.nextForHandset_mixer e
      repeat' split
      all_goals exact ⟨_, rfl, by simp [ht]⟩
    · exact ⟨_, rfl, rfl⟩
  | speakerQuestion =>
    simp only [exec, execSpeakerQuestion]
    split
    · next e => exact ⟨_, rfl, by simp [State.nextForSpeaker_mixer e]⟩
    · exact ⟨_, rfl, rfl⟩
  | finalClaim | releaseNotice =>
    simp only [exec, execFinalClaim, execReleaseNotice]
    split
    · next e => exact ⟨_, rfl, by simp [State.heardOfHandset_mixer e]⟩
    · exact ⟨_, rfl, rfl⟩
  | assignmentAnswer | removalNotice =>
    simp only [exec, execAssignmentAnswer, execRemovalNotice]
    split
    · next e => exact ⟨_, rfl, by simp [State.heardOfSpeakers_mixer e]⟩
    · exact ⟨_, rfl, rfl⟩
  | attachAnswer | hootLineRemoval =>
    simp only [exec, execAttachAnswer, execHootLineRemoval]
    split
    · next e =>
      have ht := State.nextAttach_mixer e
      repeat' split
      all_goals exact ⟨_, rfl, by simp [ht]⟩
    · exact ⟨_, rfl, rfl⟩
  | listenOn | listenOff =>
    simp only [exec, execListenOn, execListenOff]
    split
    · next e =>
      have ht := State.nextListening_mixer e
      repeat' split
      all_goals exact ⟨_, rfl, by simp [ht]⟩
    · exact ⟨_, rfl, rfl⟩
  | voxActiveReport | voxQuietReport =>
    simp only [exec, execVoxActiveReport, execVoxQuietReport]
    split
    · next e => exact ⟨_, rfl, by simp [State.nextVox_mixer e]⟩
    · exact ⟨_, rfl, rfl⟩
  | reservationAnswer p h =>
    change ∃ t, execReservationAnswer p h s = .next t ∧ _
    unfold execReservationAnswer
    split
    · exact ⟨_, rfl, State.lcuAnswer_mixer ..⟩
    · exact ⟨_, rfl, rfl⟩
  | stepOutcome p =>
    change ∃ t, execStepOutcome p s = .next t ∧ _
    cases ho : s.chan.outcomes.look p with
    | none => exact ⟨s, by simp only [execStepOutcome, ho], rfl⟩
    | some c =>
      rcases hr : (s.runOf p).state with _ | ⟨k, first, abort⟩ | _ | _ <;> simp only [execStepOutcome, ho, hr]
      case waiting => exact ⟨_, rfl, State.stepOutcome_mixer ..⟩
      all_goals exact ⟨_, rfl, rfl⟩
  | pauseExpiry p =>
    change ∃ t, execPauseExpiry p s = .next t ∧ _
    unfold execPauseExpiry
    split
    · exact ⟨_, rfl, by simp⟩
    · exact ⟨_, rfl, rfl⟩
  -- A request of a position.
  | takeLine r => exact ⟨_, rfl, State.request_mixer (fun p v b t => t.ptbTake_mixer p v b) s⟩
  | joinGroup r => exact ⟨_, rfl, State.request_mixer (fun p v b t => t.ptbJoin_mixer p v b) s⟩
  | callPosition r => exact ⟨_, rfl, State.request_mixer (fun p v b t => t.ptbCall_mixer p v b) s⟩
  | answerCall n => exact ⟨_, rfl, State.request_mixer (fun p v b t => t.ptbAnswer_mixer p v b) s⟩
  | declineCall n => exact ⟨_, rfl, State.request_mixer (fun p v b t => t.declineCall_mixer p v b) s⟩
  | release r => exact ⟨_, rfl, State.request_mixer (fun p v b t => t.ptbRelease_mixer p v b) s⟩
  | hold r => exact ⟨_, rfl, State.request_mixer (fun p v b t => t.ptbHold_mixer p v b) s⟩
  | mute n => exact ⟨_, rfl, State.request_mixer (fun p v b t => t.ptbMute_mixer p v b) s⟩
  | assignSpeaker r => exact ⟨_, rfl, State.request_mixer (fun p v b t => t.ptbAssign_mixer p v b) s⟩
  | abortSequence n => exact ⟨_, rfl, State.request_mixer (fun p v _ t => t.abortRun_mixer p v) s⟩
  | setPrivacy r => exact ⟨_, rfl, State.request_mixer (fun p v b t => t.setPrivacy_mixer p v b) s⟩
  | signalLine r => exact ⟨_, rfl, State.request_mixer (fun p v b t => t.signalLine_mixer p v b) s⟩
  | floorRequest r => exact ⟨_, rfl, State.request_mixer (fun p v b t => t.floorRequest_mixer p v b) s⟩
  | floorRelease r => exact ⟨_, rfl, State.request_mixer (fun p v b t => t.floorRelease_mixer p v b) s⟩
  | runSequence n =>
    refine ⟨_, rfl, State.request_mixer (fun p v b t => ?_) s⟩
    split <;> simp
  | setVolume r =>
    cases r with
    | port n => exact ⟨_, rfl, State.dispatchIf_mixer (fun b t => t.setVolume_mixer ..) s⟩
    | run p =>
      refine ⟨_, rfl, ?_⟩
      unfold State.takeStep
      repeat' split
      case isTrue => exact State.setVolume_mixer ..
      all_goals rfl
  -- A request of a port.
  | queryTap =>
    refine ⟨_, rfl, State.dispatchIf_mixer (fun b t => ?_) s⟩
    split <;> simp
  | statusRead | eventSetup | portReset =>
    refine ⟨_, rfl, State.dispatchIf_mixer (fun b t => State.portRequest_mixer (fun m u => ?_) t) s⟩
    repeat' split
    all_goals simp
  | lineConfig | lineServiceOut | lineServiceIn | appearanceSet | appearanceBar | queryPosition | positionConfig | groupConfig
  | hootAttach | hootDetach | queryGroup | pinFloor | unpin | querySource | stepRead | portMode | testFrame | fetchEvents
  | summary | resetArm =>
    refine ⟨_, rfl, State.dispatchIf_mixer (fun b t => ?_) s⟩
    repeat' split
    all_goals simp
  | queryLine | callConfig | stepWrite | identify =>
    refine ⟨_, rfl, State.dispatchIf_mixer (fun b t => ?_) s⟩
    dsimp only
    repeat' split
    all_goals exact State.answer_mixer ..
  | resetExecute =>
    refine ⟨_, rfl, State.dispatchIf_mixer (fun b t => ?_) s⟩
    split
    · rfl
    · simp
  -- The soft reset at the other owners.
  | softResetAtPtb | softResetAtLcu | softResetAtGfu | softResetAtRtu | softResetAtSqu =>
    refine ⟨_, rfl, ?_⟩
    unfold State.ownerReset
    repeat' split
    all_goals rfl

end Sys2Proof.Machine
end

section
/-! What an installation does (R101, R116 to R118). -/

namespace Sys2Proof.Machine

/-- How many entries the leg of a derivation can take: those that are free, and those that its old list gives back (R116). -/
def State.canTake (s : State) (d : Derivation) : Nat := s.cmx.free + (s.leg d.leg).list.length

/-- How many entries of a derivation an installation keeps (R116). -/
def State.kept (s : State) (d : Derivation) : Nat := keptCount d.list.length (s.canTake d)

theorem State.kept_eq (s : State) (d : Derivation) : s.kept d = min d.list.length (min 16 (s.canTake d)) := rfl

/-- Whether an installation leaves entries out (R116). -/
def State.cutsShort (s : State) (d : Derivation) : Bool := decide (s.kept d < d.list.length)

/-- The MIX_SHORT record of an installation, where its leg comes into the Truncated Set (R117). -/
def State.shortRecord (s : State) (d : Derivation) : Sends :=
  if s.cutsShort d && !s.cmx.truncated.look d.leg then
    record .cmx mgmt (.mixShort d.leg d.list.length (s.kept d)
      (decide (s.canTake d < Config.listLimit ∧ s.canTake d < d.list.length)))
  else {}

/-- The pending set after an installation (R118). -/
def State.awaitedAfter (s : State) (d : Derivation) : Table 208 Bool :=
  if s.cmx.free < s.canTake d - s.kept d then
    Table.build fun k => s.cmx.awaited.look k || (s.cmx.truncated.put d.leg (s.cutsShort d)).look k
  else s.cmx.awaited

theorem State.ite_emit (c : Prop) [Decidable c] (s : State) (o : Sends) :
    (if c then s.emit o else s) = s.emit (if c then o else {}) := by
  split
  · rfl
  · simp [State.emit, Chan.add]

theorem State.install_eq (s : State) (d : Derivation) :
    s.install d = State.emit { s with cmx := { s.cmx with
      legs := s.cmx.legs.put d.leg { s.leg d.leg with list := d.list.take (s.kept d), idle := d.idle }
      free := s.canTake d - s.kept d
      awaited := s.awaitedAfter d
      truncated := s.cmx.truncated.put d.leg (s.cutsShort d)
      inProgress := none } } (s.shortRecord d) := by
  refine (State.ite_emit ..).trans (congrArg (State.emit · _) ?_)
  unfold State.awaitedAfter
  by_cases hrise : s.cmx.free < s.canTake d - s.kept d
  · rw [if_pos hrise]
    exact if_pos hrise
  · rw [if_neg hrise]
    exact if_neg hrise

end Sys2Proof.Machine
end

section
/-! What a leg is by its number (R1). -/

namespace Sys2Proof.Machine

theorem legKind_of_ear {k : Leg} {p : Pos} {h : Handset} (e : k.val = 8 * p.val + (match h with | .A => 0 | .B => 1)) :
    legKind k = .ear p h := by
  have hp := p.isLt
  obtain ⟨k, hk⟩ := k
  cases h
  all_goals
    dsimp only at e
    subst e
    simp only [legKind]
    rw [dif_pos (by omega)]
  · rw [if_pos (by omega)]
    congr
    omega
  · rw [if_neg (by omega), if_pos (by omega)]
    congr
    omega

theorem legKind_of_speaker {k : Leg} {p : Pos} {j : Spk} (e : k.val = 8 * p.val + 2 + j.val) : legKind k = .speaker p j := by
  have hp := p.isLt
  have hj := j.isLt
  obtain ⟨k, hk⟩ := k
  dsimp only at e
  subst e
  simp only [legKind]
  rw [dif_pos (by omega), if_neg (by omega), if_neg (by omega)]
  congr <;> omega

theorem legKind_of_send {k : Leg} {l : Line} (e : k.val = 128 + l.val) : legKind k = .send l := by
  have hl := l.isLt
  obtain ⟨k, hk⟩ := k
  dsimp only at e
  subst e
  simp only [legKind]
  rw [dif_neg (by omega), dif_pos (by omega)]
  exact congrArg LegKind.send (Fin.ext (Nat.add_sub_cancel_left ..))

theorem legKind_of_recorder {k : Leg} {r : TapNo} (e : k.val = 192 + r.val) : legKind k = .recorder r := by
  have hr := r.isLt
  obtain ⟨k, hk⟩ := k
  dsimp only at e
  subst e
  simp only [legKind]
  rw [dif_neg (by omega), dif_neg (by omega)]
  exact congrArg LegKind.recorder (Fin.ext (Nat.add_sub_cancel_left ..))

/-- Every leg is one of the four kinds, and its number says which. -/
theorem legKind_cases (k : Leg) :
    (∃ p h, legKind k = .ear p h ∧ k.val = 8 * p.val + (match h with | .A => 0 | .B => 1))
      ∨ (∃ p j, legKind k = .speaker p j ∧ k.val = 8 * p.val + 2 + j.val)
      ∨ (∃ l, legKind k = .send l ∧ k.val = 128 + l.val)
      ∨ ∃ r, legKind k = .recorder r ∧ k.val = 192 + r.val := by
  have hk := k.isLt
  rcases Nat.lt_or_ge k.val 128 with hout | hge
  · have hp : k.val / 8 < 16 := by omega
    rcases Nat.lt_or_ge (k.val % 8) 2 with hear | hspk
    · rcases (by omega : k.val % 8 = 0 ∨ k.val % 8 = 1) with h0 | h1
      · have e : k.val = 8 * (k.val / 8) + 0 := by omega
        exact .inl ⟨⟨_, hp⟩, .A, legKind_of_ear e, e⟩
      · have e : k.val = 8 * (k.val / 8) + 1 := by omega
        exact .inl ⟨⟨_, hp⟩, .B, legKind_of_ear e, e⟩
    · have e : k.val = 8 * (k.val / 8) + 2 + (k.val % 8 - 2) := by omega
      exact .inr (.inl ⟨⟨_, hp⟩, ⟨k.val % 8 - 2, by omega⟩, legKind_of_speaker e, e⟩)
  · rcases Nat.lt_or_ge k.val 192 with hsend | hrec
    · have e : k.val = 128 + (k.val - 128) := by omega
      exact .inr (.inr (.inl ⟨⟨k.val - 128, by omega⟩, legKind_of_send e, e⟩))
    · have e : k.val = 192 + (k.val - 192) := by omega
      exact .inr (.inr (.inr ⟨⟨k.val - 192, by omega⟩, legKind_of_recorder e, e⟩))

theorem legKind_recorder_iff {k : Leg} {r : TapNo} : legKind k = .recorder r ↔ k.val = 192 + r.val := by
  refine ⟨fun h => ?_, legKind_of_recorder⟩
  obtain ⟨_, _, e, -⟩ | ⟨_, _, e, -⟩ | ⟨_, e, -⟩ | ⟨q, e, hq⟩ := legKind_cases k <;> rw [e] at h <;> cases h
  exact hq

end Sys2Proof.Machine
end

section
/-! LIST_INSTALL (R101, R116 to R118, R141). -/

namespace Sys2Proof.Machine

theorem State.replyDue_iff {s : State} {es : List MixEntry} :
    s.replyDue es = true ↔ ∃ p h v l, .outcome p h v (.inl (.line l)) ∈ s.chan.fromLcu ∧ ∃ e ∈ es, e.src = micSource p h := by
  simp only [State.replyDue, List.any_eq_true]
  constructor
  · rintro ⟨m, hm, h⟩
    split at h
    · exact ⟨_, _, _, _, hm, by simpa using h⟩
    · cases h
  · rintro ⟨p, h, v, l, hm, he⟩
    exact ⟨_, hm, by simpa using he⟩

/-- An installation is too early only on the leg of a LINE tap, and there while a reply is due (R141). -/
theorem State.tooEarly_iff {s : State} {d : Derivation} :
    s.tooEarly d = true ↔ ∃ r l, d.leg.val = 192 + r.val ∧ (s.tap r).target = .line l ∧ s.replyDue d.list = true := by
  simp only [← legKind_recorder_iff, State.tooEarly]
  constructor
  · intro h
    split at h
    · next r hr =>
      split at h
      · next l hl => exact ⟨r, l, hr, hl, h⟩
      · cases h
    · cases h
  · rintro ⟨r, l, hr, hl, h⟩
    simp [hr, hl, h]

theorem exec_listInstall_early {s : State} {d : Derivation} (hd : s.cmx.inProgress = some d) (h : s.tooEarly d = true) :
    exec .listInstall s = .next s := by simp [exec, execListInstall, hd, h]

theorem exec_listInstall_due {s : State} {d : Derivation} (hd : s.cmx.inProgress = some d) (h : s.tooEarly d = false) :
    exec .listInstall s = .next (s.install d) := by simp [exec, execListInstall, hd, h]

theorem State.install_leg (s : State) (d : Derivation) (k : Leg) :
    (s.install d).leg k =
      if d.leg = k then { s.leg d.leg with list := d.list.take (s.kept d), idle := d.idle } else s.leg k := by
  rw [State.install_eq]
  exact Table.look_put ..

theorem State.kept_le (s : State) (d : Derivation) : s.kept d ≤ d.list.length ∧ s.kept d ≤ 16 ∧ s.kept d ≤ s.canTake d := by
  rw [State.kept_eq]
  omega

theorem State.awaitedAfter_look (s : State) (d : Derivation) (k : Leg) :
    (s.awaitedAfter d).look k = true ↔ s.cmx.awaited.look k = true
      ∨ s.cmx.free < s.canTake d - s.kept d ∧ (s.cmx.truncated.put d.leg (s.cutsShort d)).look k = true := by
  unfold State.awaitedAfter
  split <;> simp_all [-Table.look_put]

/-- Settles O36: a reply that is due holds the installation back (`tooEarly_iff`), and otherwise it is `install_eq`, field by
field. -/
theorem installationsAccountForThePool : Obligations.InstallationsAccountForThePool := by
  refine ⟨fun s d r l i p h v hd hleg ht hm he => ?early, fun s d can kept hd hearly hcan hkept => ?due⟩
  case early =>
    exact exec_listInstall_early hd (State.tooEarly_iff.mpr ⟨r, l, hleg, ht, State.replyDue_iff.mpr ⟨p, h, v, i, hm, he⟩⟩)
  case due =>
    have hdue : s.tooEarly d = false := by
      rw [Bool.eq_false_iff, Ne, State.tooEarly_iff]
      rintro ⟨r, l, hleg, ht, hreply⟩
      obtain ⟨p, h, v, i, hm, e, he, hsrc⟩ := State.replyDue_iff.mp hreply
      exact hearly r l i p h v hleg ht hm e he hsrc
    obtain rfl : can = s.canTake d := hcan
    obtain rfl : kept = s.kept d := hkept
    obtain ⟨-, -, hle⟩ := s.kept_le d
    refine ⟨s.install d, exec_listInstall_due hd hdue, ?leg, fun k hk => ?other, ?free, ?none, fun k => ?truncated,
      fun k => ?awaited, ?chan, ?frame⟩
    case leg => rw [State.install_leg, if_pos rfl]
    case other => rw [State.install_leg, if_neg (Ne.symm hk)]
    all_goals rw [State.install_eq]
    case free => exact Nat.sub_add_cancel hle
    case none => rfl
    case truncated =>
      simp only [State.emit_cmx, Table.look_put, eq_comm (a := d.leg)]
      split <;> simp [State.cutsShort]
    case awaited => exact s.awaitedAfter_look d k
    case chan =>
      simp only [State.emit_chan, State.shortRecord, State.cutsShort, Bool.and_eq_true, Bool.not_eq_true', decide_eq_true_eq]
      split
      · simp only [Chan.add, record, List.append_nil]
        rfl
      · simp [Chan.add]
    case frame => rfl

end Sys2Proof.Machine
end

section
/-! What power-on reset leaves meets every invariant (R26, R32, R57, R67, R98, R134, R165, R168). -/

namespace Sys2Proof.Machine

theorem toList_eq_map_look {n : Nat} {α : Type} (t : Table n α) : t.toList = (List.finRange n).map t.look :=
  List.ext_getElem (by simp) fun i _ _ => by simp [Table.look]

/-- No list of a family of empty ones holds anything. -/
theorem flatMap_finRange_eq_nil {n : Nat} {α : Type} {f : Fin n → List α} (h : ∀ i, f i = []) :
    (List.finRange n).flatMap f = [] := List.flatMap_eq_nil_iff.mpr fun i _ => h i

/-- The entries of all installed lists together, leg by leg (R97). -/
theorem State.held_eq (s : State) :
    (s.cmx.legs.toList.map fun r => r.list.length).sum = ∑ k, (s.leg k).list.length := by
  rw [toList_eq_map_look, List.map_map, Fin.sum_univ_def]
  rfl

section PoweredOn
variable (far : Vector Bool 64) (present : Vector Bool 16) (cs : List Instr)

theorem State.poweredOn_poolBalanced : (State.poweredOn far present cs).PoolBalanced :=
  ⟨by rw [State.held_eq]; simp [Cmx.reset], fun k => by simp⟩

theorem State.poweredOn_sourcesOnce : (State.poweredOn far present cs).SourcesOnce :=
  ⟨fun k => by simp, fun d hd => by simp [Cmx.reset] at hd⟩

theorem State.poweredOn_coverageKept : (State.poweredOn far present cs).CoverageKept :=
  ⟨fun r => by simp, by rw [State.coveredHandsets, flatMap_finRange_eq_nil fun r => by simp]; exact .nil⟩

theorem State.poweredOn_requestsFit : (State.poweredOn far present cs).RequestsFit := fun n => by
  simp [PortRec.reset]

theorem State.poweredOn_eventsFit : (State.poweredOn far present cs).EventsFit := fun n => by simp [PortRec.reset]

theorem State.poweredOn_downIsEmpty : (State.poweredOn far present cs).DownIsEmpty := fun p _ => by simp [PosRec.reset]

theorem State.poweredOn_linesSound : (State.poweredOn far present cs).LinesSound := fun l => by
  simp [LineRec.Sound, LineRec.reset, LineConfig.reset]

theorem State.poweredOn_handsetsStandOnce : (State.poweredOn far present cs).HandsetsStandOnce := by
  rw [State.HandsetsStandOnce, State.lineHandsets, State.talkHandsets,
    flatMap_finRange_eq_nil fun l => by simp [LineRec.reset], flatMap_finRange_eq_nil fun g => by simp [GroupRec.reset],
    flatMap_finRange_eq_nil fun c => by simp [CallRec.handsets]]
  exact ⟨.nil, .nil⟩

theorem State.poweredOn_floorsSound : (State.poweredOn far present cs).FloorsSound := fun g => by
  rw [State.poweredOn_group]
  exact ⟨Floor.sound_of_everyone_nil rfl _, fun _ => rfl⟩

theorem State.poweredOn_micsEngagedOnce : (State.poweredOn far present cs).MicsEngagedOnce := fun p g k hg _ => by
  simp [GroupRec.reset, Floor.engaged, Floor.empty] at hg

theorem State.poweredOn_callsNameUp : (State.poweredOn far present cs).CallsNameUp := fun c p hc => by
  simp [CallRec.names] at hc

theorem State.poweredOn_unusedGroupsIdle : (State.poweredOn far present cs).UnusedGroupsIdle := fun g _ => by
  rw [State.poweredOn_group]
  exact GroupRec.inUse_eq_false_iff.mpr ⟨rfl, fun p => Table.look_fill .., rfl, rfl⟩

end PoweredOn

/-- Settles O60: the reset leaves one record everywhere in each table, and each record meets its invariant. -/
theorem powerOnMeetsTheInvariants : Obligations.PowerOnMeetsTheInvariants := fun far present cs =>
  ⟨State.poweredOn_poolBalanced far present cs, State.poweredOn_coverageKept far present cs,
    State.poweredOn_requestsFit far present cs, State.poweredOn_eventsFit far present cs,
    State.poweredOn_downIsEmpty far present cs, State.poweredOn_linesSound far present cs,
    State.poweredOn_floorsSound far present cs, State.poweredOn_handsetsStandOnce far present cs,
    State.poweredOn_sourcesOnce far present cs, State.poweredOn_micsEngagedOnce far present cs,
    State.poweredOn_callsNameUp far present cs, State.poweredOn_unusedGroupsIdle far present cs⟩

/-! ### Levels (R102) -/

theorem compose_eq_of_quotient {a b q : Nat} (hle : q * 128 ≤ a * b + 64) (hlt : a * b + 64 < (q + 1) * 128) :
    compose a b = if 255 < q then 255 else q := by
  have hq : (a * b + 64) / 128 = q := by omega
  rw [compose, hq]
  split <;> omega

/-- Settles O38: the quotient is the one between the two bounds, and the defaults are those of the reset's records. -/
theorem levelsCompose : Obligations.LevelsCompose :=
  ⟨fun _ _ _ => compose_eq_of_quotient, fun _ _ _ => rfl, by decide,
    fun l => by simp [State.reset, LineRec.reset, LineConfig.reset], fun g => by simp [State.reset, GroupRec.reset],
    fun p => by simp [State.reset, PosRec.reset, Settings.reset]⟩

end Sys2Proof.Machine
end

section
/-! The entries of a derived list, and each source once (R97, R102, R103). -/

namespace Sys2Proof.Machine

/-! ### Entries -/

@[simp] theorem entryOf_zero (src : Src) (gated : Bool) : entryOf src 0 gated = [] := rfl

theorem toLevel_ne_zero {n : Nat} (h : n ≠ 0) : toLevel n ≠ 0 := by
  simp only [toLevel, Ne, Fin.ext_iff, Fin.val_zero]
  omega

theorem toLevel_val (q : Level) : toLevel q.val = q := by
  have hq := q.isLt
  simp only [toLevel, Fin.ext_iff]
  omega

theorem entryOf_of_level {src : Src} {q : Level} {n : Nat} {gated : Bool} (hq : q.val = n) (hn : n ≠ 0) :
    entryOf src n gated = [⟨src, q, gated⟩] := by
  rw [entryOf, if_neg hn, ← hq, toLevel_val]

theorem mem_entryOf {e : MixEntry} {src : Src} {n : Nat} {gated : Bool} :
    e ∈ entryOf src n gated ↔ n ≠ 0 ∧ e = ⟨src, toLevel n, gated⟩ := by
  unfold entryOf
  split <;> simp_all

theorem State.mem_micEntry {s : State} {e : MixEntry} {n : Nat} {p : Pos} {h : Handset} :
    e ∈ s.micEntry n p h ↔ (s.pos p).mute.of h = false ∧ e ∈ entryOf (micSource p h) n false := by
  unfold State.micEntry
  split <;> simp_all

/-! ### Sources -/

theorem micSource_val (p : Pos) (h : Handset) : (micSource p h).val = 3 * p.val + (match h with | .A => 0 | .B => 1) := by
  cases h <;> simp [micSource, Nat.mul_comm]

theorem deskSource_val (p : Pos) : (deskSource p).val = 3 * p.val + 2 := by simp [deskSource, Nat.mul_comm]

theorem micSource_inj {p q : Pos} {h i : Handset} (e : micSource p h = micSource q i) : p = q ∧ h = i := by
  have hv := congrArg Fin.val e
  cases h <;> cases i <;> simp only [micSource_val] at hv
  case A.A | B.B => exact ⟨Fin.ext (by omega), rfl⟩
  all_goals omega

theorem micSource_ne_deskSource (p q : Pos) (h : Handset) : micSource p h ≠ deskSource q := by
  intro e
  have hv := congrArg Fin.val e
  cases h <;> simp only [micSource_val, deskSource_val] at hv <;> omega

/-! ### The receives of some lines -/

theorem receiveEntries_eq (ls : List Line) (n : Nat) :
    receiveEntries ls n = ((List.finRange 64).filter fun l => decide (l ∈ ls)).flatMap fun l => entryOf (receiveSource l) n false := by
  simp [receiveEntries]

theorem receiveEntries_singleton (l : Line) (n : Nat) : receiveEntries [l] n = entryOf (receiveSource l) n false := by
  have hone : ((List.finRange 64).filter fun k => decide (k ∈ [l])) = [l] := by
    simp only [List.mem_singleton, List.filter_eq, List.count_eq_one_of_mem (List.nodup_finRange 64) (List.mem_finRange l)]
    rfl
  rw [receiveEntries_eq, hone, List.flatMap_singleton]

theorem mem_receiveEntries {e : MixEntry} {ls : List Line} {n : Nat} :
    e ∈ receiveEntries ls n ↔ ∃ l ∈ ls, e ∈ entryOf (receiveSource l) n false := by
  simp [receiveEntries_eq]

/-! ### The microphones of a floor (R108, R112, R140) -/

theorem floorMics_of_open {r : GroupRec} (h : r.openMode = true) (n : Nat) (out : Option Pos) :
    floorMics r n out =
      { others := (r.floor.talkers.filter fun t => some t.pos != out).flatMap fun t => entryOf (deskSource t.pos) n true } := if_pos h

theorem floorMics_of_managed {r : GroupRec} (h : r.openMode = false) (n : Nat) (out : Option Pos) :
    floorMics r n out =
      { principal := (r.floor.holder.toList.filter fun i => some i.pos != out).flatMap fun i =>
          entryOf (deskSource i.pos) n false } := if_neg (by simp [h])

/-- All of them, where nobody is left out. -/
theorem floorMics_all (r : GroupRec) (n : Nat) :
    (floorMics r n none).principal ++ (floorMics r n none).others =
      if r.openMode then r.floor.talkers.flatMap fun i => entryOf (deskSource i.pos) n true
      else match r.floor.holder with
        | none => []
        | some i => entryOf (deskSource i.pos) n false := by
  cases hm : r.openMode
  · cases hh : r.floor.holder <;> simp [floorMics_of_managed hm, hh]
  · simp [floorMics_of_open hm, List.filter_eq_self.mpr]

theorem floorMics_rest (r : GroupRec) (n : Nat) (out : Option Pos) :
    (floorMics r n out).tones = [] ∧ (floorMics r n out).sidetone = [] := by
  unfold floorMics
  split <;> exact ⟨rfl, rfl⟩

/-! ### Each source once (R97) -/

theorem eachSourceOnce_of_nodup {es : List MixEntry} (h : (es.map fun x => x.src).Nodup) : eachSourceOnce es = es := by
  induction es with
  | nil => rfl
  | cons e es ih =>
    obtain ⟨hnot, hes⟩ := List.nodup_cons.mp h
    have hkeep : ∀ x ∈ es, (x.src != e.src) = true := fun x hx => by
      simpa using fun he => hnot (List.mem_map.mpr ⟨x, hx, he⟩)
    rw [eachSourceOnce, ih hes, List.filter_eq_self.mpr hkeep]

theorem eachSourceOnce_entryOf (src : Src) (n : Nat) (gated : Bool) :
    eachSourceOnce (entryOf src n gated) = entryOf src n gated := by
  refine eachSourceOnce_of_nodup ?_
  unfold entryOf
  split <;> simp

theorem State.eachSourceOnce_micEntry (s : State) (n : Nat) (p : Pos) (h : Handset) :
    eachSourceOnce (s.micEntry n p h) = s.micEntry n p h := by
  unfold State.micEntry
  split
  · rfl
  · exact eachSourceOnce_entryOf ..

end Sys2Proof.Machine
end

section
/-! What a handset stands in: the first line, group or call that holds it (R105, R106). -/

namespace Sys2Proof.Machine

theorem State.lineOf_eq_some {s : State} {p : Pos} {h : Handset} {l : Line} (hl : ((s.line l).entry p h).isSome = true)
    (hfirst : ∀ m, m < l → (s.line m).entry p h = none) : s.lineOf p h = some l := by
  rw [State.lineOf, ← Fin.find?_eq_find?_finRange, Fin.find?_eq_some_iff]
  exact ⟨hl, fun m hm => by simp [hfirst m hm]⟩

theorem State.lineOf_eq_none {s : State} {p : Pos} {h : Handset} :
    s.lineOf p h = none ↔ ∀ l, (s.line l).entry p h = none := by simp [State.lineOf, List.find?_eq_none]

theorem State.groupOf_eq_some {s : State} {p : Pos} {h : Handset} {g : Grp} (hg : (p, h) ∈ (s.group g).joined)
    (hfirst : ∀ i, i < g → (p, h) ∉ (s.group i).joined) : s.groupOf p h = some g := by
  rw [State.groupOf, ← Fin.find?_eq_find?_finRange, Fin.find?_eq_some_iff]
  exact ⟨by simpa using hg, fun i hi => by simpa using hfirst i hi⟩

theorem State.groupOf_eq_none {s : State} {p : Pos} {h : Handset} :
    s.groupOf p h = none ↔ ∀ g, (p, h) ∉ (s.group g).joined := by simp [State.groupOf, List.find?_eq_none]

theorem CallRec.stance_eq_none {c : CallRec} {p : Pos} {h : Handset} : c.stance p h = none ↔ c.holds p h = false := by
  cases c with
  | free => simp [CallRec.stance, CallRec.holds]
  | alerting q k callee voice timer => simp [CallRec.stance, CallRec.holds]
  | active q k callee j voice =>
    simp only [CallRec.stance, CallRec.holds]
    split
    · simp_all
    · split <;> simp_all

/-- The party that is heard in an ACTIVE call, by caller and callee. -/
theorem CallRec.stance_of_active {c : CallRec} {p q : Pos} {h i : Handset} {voice : Bool}
    (hc : c = .active p h q i voice ∨ c = .active q i p h voice ∧ (q, i) ≠ (p, h)) : c.stance p h = some (.active q i) := by
  obtain rfl | ⟨rfl, hne⟩ := hc
  · simp [CallRec.stance]
  · have hne : ¬(q = p ∧ i = h) := fun e => hne (by rw [e.1, e.2])
    simp [CallRec.stance, hne]

theorem State.stance_of_line {s : State} {p : Pos} {h : Handset} {l : Line} (hl : s.lineOf p h = some l) :
    s.stance p h = .line l := by simp [State.stance, hl]

theorem State.stance_of_group {s : State} {p : Pos} {h : Handset} {g : Grp} (hl : s.lineOf p h = none)
    (hg : s.groupOf p h = some g) : s.stance p h = .group g := by simp [State.stance, hl, hg]

/-- The first call that holds the handset decides, where no line and no group does. -/
theorem State.stance_of_call {s : State} {p : Pos} {h : Handset} {c : CallNo} {x : Stance} (hl : s.lineOf p h = none)
    (hg : s.groupOf p h = none) (hc : (s.call c).stance p h = some x)
    (hfirst : ∀ d, d < c → (s.call d).holds p h = false) : s.stance p h = x := by
  have hsome : ((List.finRange 8).findSome? fun c => (s.call c).stance p h) = some x := by
    rw [← Fin.findSome?_eq_findSome?_finRange, Fin.findSome?_eq_some_iff]
    exact ⟨c, hc, fun d hd => CallRec.stance_eq_none.mpr (hfirst d hd)⟩
  simp [State.stance, hl, hg, hsome]

/-- A handset that nothing holds stands in nothing. -/
theorem State.stance_of_nothing {s : State} {p : Pos} {h : Handset} (hl : s.lineOf p h = none) (hg : s.groupOf p h = none)
    (hc : ∀ c, (s.call c).holds p h = false) : s.stance p h = .none := by
  have hnone : ((List.finRange 8).findSome? fun c => (s.call c).stance p h) = none :=
    List.findSome?_eq_none_iff.mpr fun c _ => CallRec.stance_eq_none.mpr (hc c)
  simp [State.stance, hl, hg, hnone]

theorem CallRec.stance_ne_none (c : CallRec) (p : Pos) (h : Handset) : c.stance p h ≠ some .none := by
  cases c with
  | free => simp [CallRec.stance]
  | alerting q k callee voice timer => simp [CallRec.stance]
  | active q k callee j voice =>
    simp only [CallRec.stance]
    split
    · simp
    · split <;> simp

theorem State.stance_eq_none {s : State} {p : Pos} {h : Handset} :
    s.stance p h = .none ↔ (∀ l, (s.line l).entry p h = none) ∧ (∀ g, (p, h) ∉ (s.group g).joined)
      ∧ ∀ c, (s.call c).holds p h = false := by
  rw [← State.lineOf_eq_none, ← State.groupOf_eq_none]
  refine ⟨fun hs => ?_, fun ⟨hl, hg, hc⟩ => State.stance_of_nothing hl hg hc⟩
  cases hl : s.lineOf p h with
  | some l => simp [State.stance_of_line hl] at hs
  | none =>
    cases hg : s.groupOf p h with
    | some g => simp [State.stance_of_group hl hg] at hs
    | none =>
      refine ⟨rfl, rfl, ?_⟩
      by_contra hheld
      obtain ⟨c, hc⟩ : ∃ c, (s.call c).stance p h ≠ none := by simpa [CallRec.stance_eq_none] using hheld
      have hsome : ((List.finRange 8).findSome? fun c => (s.call c).stance p h) ≠ none := by
        simpa [List.findSome?_eq_none_iff] using ⟨c, hc⟩
      obtain ⟨x, hx⟩ := Option.ne_none_iff_exists'.mp hsome
      obtain ⟨d, -, hd⟩ := List.exists_of_findSome?_eq_some hx
      obtain rfl : x = .none := by simpa [State.stance, hl, hg, hx] using hs
      exact CallRec.stance_ne_none _ p h hd

end Sys2Proof.Machine
end

section
/-! The derived list of a leg by its number (R104 to R113, R140). -/

namespace Sys2Proof.Machine

theorem State.derivedList_of_ear {s : State} {k : Leg} {p : Pos} {h : Handset}
    (hk : k.val = 8 * p.val + (match h with | .A => 0 | .B => 1)) (hup : (s.pos p).up = true) :
    s.derivedList k = (s.earCats p h).entries := by simp [State.derivedList, legKind_of_ear hk, hup]

theorem State.derivedList_of_speaker {s : State} {k : Leg} {p : Pos} {j : Spk} (hk : k.val = 8 * p.val + 2 + j.val)
    (hup : (s.pos p).up = true) : s.derivedList k = (s.speakerCats p j).entries := by
  simp [State.derivedList, legKind_of_speaker hk, hup]

theorem State.derivedList_of_send {k : Leg} {l : Line} (hk : k.val = 128 + l.val) (s : State) :
    s.derivedList k = (s.sendCats l).entries := by simp [State.derivedList, legKind_of_send hk]

theorem State.derivedList_of_recorder {k : Leg} {r : TapNo} (hk : k.val = 192 + r.val) (s : State) :
    s.derivedList k = (s.tapCats (s.tap r)).entries := by simp [State.derivedList, legKind_of_recorder hk]

/-- Every output leg of a DOWN position is empty (R110). -/
theorem State.derivedList_of_down {s : State} {k : Leg} {p : Pos} (hk : k.val / 8 = p.val) (hup : (s.pos p).up = false) :
    s.derivedList k = [] := by
  have hp := p.isLt
  obtain ⟨q, h, e, hq⟩ | ⟨q, j, e, hq⟩ | ⟨l, -, hl⟩ | ⟨r, -, hr⟩ := legKind_cases k
  · obtain rfl : q = p := Fin.ext (by cases h <;> simp only at hq <;> omega)
    simp [State.derivedList, e, hup]
  · obtain rfl : q = p := Fin.ext (by omega)
    simp [State.derivedList, e, hup]
  all_goals omega

end Sys2Proof.Machine
end

section
/-! What a command keeps of the pool, the mix lists, the coverage lists and the FIXED taps (R97, R117, R133, R135, R137, R138). -/

namespace Sys2Proof.Machine

/-- A tap that is FIXED and ENABLED keeps its lock, its state and its programming (R137). -/
structure TapRec.StaysFixed (t u : TapRec) : Prop where
  kept : t.lock = .fixed → t.enabled = true →
    u.lock = .fixed ∧ u.enabled = true ∧ u.target = t.target ∧ u.receive = t.receive ∧ u.send = t.send
      ∧ u.incoming = t.incoming ∧ u.outgoing = t.outgoing

theorem TapRec.StaysFixed.of_not_fixed {t u : TapRec} (h : t.lock ≠ .fixed) : t.StaysFixed u := ⟨fun e => absurd e h⟩

theorem TapRec.StaysFixed.of_not_enabled {t u : TapRec} (h : t.enabled = false) : t.StaysFixed u := ⟨fun _ e => by simp [h] at e⟩

/-- A change of what a FIXED tap does not keep: its coverage and its recorder. -/
theorem TapRec.StaysFixed.of_same (t : TapRec) (cs : List Cover) (present : Bool) :
    t.StaysFixed { t with coverage := cs, present := present } := ⟨fun hl he => ⟨hl, he, rfl, rfl, rfl, rfl, rfl⟩⟩

theorem TapRec.StaysFixed.refl (t : TapRec) : t.StaysFixed t := .of_same t t.coverage t.present

theorem TapRec.StaysFixed.trans {t u v : TapRec} (h : t.StaysFixed u) (k : u.StaysFixed v) : t.StaysFixed v := by
  refine ⟨fun hl he => ?_⟩
  obtain ⟨hl, he, ht, hr, hs, hi, ho⟩ := h.kept hl he
  obtain ⟨hl', he', ht', hr', hs', hi', ho'⟩ := k.kept hl he
  exact ⟨hl', he', ht'.trans ht, hr'.trans hr, hs'.trans hs, hi'.trans hi, ho'.trans ho⟩

/-- A tap that covers nobody new, stays empty where it must be (R133, R135), and stays FIXED. -/
structure TapRec.Trims (t u : TapRec) : Prop where
  fewer : u.coverage.Sublist t.coverage
  empty : (t.enabled = false → t.coverage = []) → u.enabled = false → u.coverage = []
  fixed : t.StaysFixed u

theorem TapRec.Trims.refl (t : TapRec) : t.Trims t := ⟨.refl _, id, .refl t⟩

/-- The next state keeps the invariants of CMX's lists and of RTU's taps. -/
structure State.HoldsMixer (s t : State) : Prop where
  pool : s.PoolBalanced → t.PoolBalanced
  once : s.SourcesOnce → t.SourcesOnce
  coverage : s.CoverageKept → t.CoverageKept
  fixed : ∀ r, (s.tap r).StaysFixed (t.tap r)

namespace State.HoldsMixer

theorem trans {s t u : State} (h : s.HoldsMixer t) (k : t.HoldsMixer u) : s.HoldsMixer u :=
  ⟨k.pool ∘ h.pool, k.once ∘ h.once, k.coverage ∘ h.coverage, fun r => (h.fixed r).trans (k.fixed r)⟩

/-- A change that leaves RTU's taps alone, and keeps the two invariants of the lists. -/
theorem of_taps {s t : State} (h : t.rtu.taps = s.rtu.taps) (pool : s.PoolBalanced → t.PoolBalanced)
    (once : s.SourcesOnce → t.SourcesOnce) : s.HoldsMixer t := by
  have ht (r : TapNo) : t.tap r = s.tap r := by rw [State.tap, State.tap, h]
  refine ⟨pool, once, fun hs => ?_, fun r => ?_⟩
  · simpa only [State.CoverageKept, State.coveredHandsets, ht] using hs
  · rw [ht]
    exact .refl _

/-- A change of CMX that leaves its lists, the free count and the leg in derivation alone. -/
theorem of_lists {s t : State} (h : t.rtu.taps = s.rtu.taps) (hlist : ∀ k, (t.leg k).list = (s.leg k).list)
    (hfree : t.cmx.free = s.cmx.free) (hd : t.cmx.inProgress = s.cmx.inProgress) : s.HoldsMixer t := by
  refine of_taps h (fun hs => ?_) fun hs => ?_
  · simpa only [State.PoolBalanced, State.held_eq, hlist, hfree] using hs
  · simpa only [State.SourcesOnce, hlist, hd] using hs

theorem of_mixer {s t : State} (h : t.mixer = s.mixer) : s.HoldsMixer t := by
  have hc := State.cmx_of_mixer h
  exact of_lists (by rw [State.rtu_of_mixer h]) (fun k => by rw [State.leg, State.leg, hc]) (by rw [hc]) (by rw [hc])

theorem refl (s : State) : s.HoldsMixer s := of_mixer rfl

theorem then_mixer {s t u : State} (h : s.HoldsMixer t) (e : u.mixer = t.mixer) : s.HoldsMixer u := h.trans (of_mixer e)

theorem answer (s : State) (r : Requester) (c : Code) (b : List Byte) : s.HoldsMixer (s.answer r c b) :=
  of_mixer (State.answer_mixer ..)

/-- A change that leaves CMX alone and trims the taps. -/
theorem of_trims {s t : State} (h : t.cmx = s.cmx) (htap : ∀ r, (s.tap r).Trims (t.tap r)) : s.HoldsMixer t := by
  have hleg (k : Leg) : t.leg k = s.leg k := by rw [State.leg, State.leg, h]
  refine ⟨fun hs => ?_, fun hs => ?_, fun ⟨hroom, hnodup⟩ => ⟨fun r => ⟨?_, ?_⟩, hnodup.sublist ?_⟩, fun r => (htap r).fixed⟩
  · simpa only [State.PoolBalanced, State.held_eq, hleg, h] using hs
  · simpa only [State.SourcesOnce, hleg, h] using hs
  · exact (htap r).fewer.length_le.trans (hroom r).1
  · exact (htap r).empty (hroom r).2
  · exact List.Sublist.flatMap_right _ fun r _ => (htap r).fewer.map _

theorem setTap {s : State} {r : TapNo} {u : TapRec} (h : (s.tap r).Trims u) : s.HoldsMixer (s.setTap r u) := by
  refine of_trims rfl fun q => ?_
  rw [State.setTap_tap]
  split
  · next e => exact e ▸ h
  · exact .refl _

theorem dispatchIf {k : ReqKind} {n : Port} {ok : List Byte → Bool} {own : List Byte → State → State}
    (h : ∀ b (t : State), t.HoldsMixer (own b t)) (s : State) : s.HoldsMixer (s.dispatchIf k n ok own) :=
  State.dispatchIf_preserves (s.HoldsMixer ·) (fun _ _ _ ht => ht.then_mixer rfl)
    (fun _ _ _ _ ht => ht.then_mixer (State.answer_mixer ..)) (fun b t ht => ht.trans (h b t)) s (.refl s)

theorem tapRequest {k : ReqKind} {n : Port} {own : TapNo → List Byte → State → State}
    (h : ∀ r b (t : State), t.HoldsMixer (own r b t)) (s : State) : s.HoldsMixer (s.tapRequest k n own) := by
  unfold State.tapRequest
  refine dispatchIf (fun b t => ?_) s
  split
  · exact .answer ..
  · exact h _ _ t

end State.HoldsMixer

open State (HoldsMixer)

/-! ### CMX -/

/-- An installation moves entries between the pool and one list, and the list it keeps is the start of the derived one (R101,
R116). -/
theorem State.install_holdsMixer {s : State} {d : Derivation} (hd : s.cmx.inProgress = some d) : s.HoldsMixer (s.install d) := by
  have hleg := s.install_leg d
  obtain ⟨hlen, hlimit, hcan⟩ := s.kept_le d
  refine .of_taps (by rw [State.install_eq]; rfl) (fun ⟨hsum, hroom⟩ => ⟨?_, fun k => ?_⟩) fun ⟨honce, hder⟩ => ⟨fun k => ?_, ?_⟩
  · have hkept : ((s.install d).leg d.leg).list.length = s.kept d := by simp [hleg, hlen]
    have hothers : ∑ k ∈ Finset.univ.erase d.leg, ((s.install d).leg k).list.length
        = ∑ k ∈ Finset.univ.erase d.leg, (s.leg k).list.length :=
      Finset.sum_congr rfl fun k hk => by rw [hleg, if_neg (Finset.ne_of_mem_erase hk).symm]
    have hfree : (s.install d).cmx.free = s.canTake d - s.kept d := by rw [State.install_eq]; rfl
    rw [State.held_eq, ← Finset.add_sum_erase _ _ (Finset.mem_univ d.leg)] at hsum ⊢
    rw [hothers, hkept, hfree]
    unfold State.canTake at hcan ⊢
    omega
  · rw [hleg]
    split
    · simpa [Config.listLimit] using .inl hlimit
    · exact hroom k
  · rw [hleg]
    split
    · simpa only [List.map_take] using (hder d hd).sublist (List.take_sublist ..)
    · exact honce k
  · rw [State.install_eq]
    intro x hx
    cases hx

/-- Every derived list is empty or put together from its categories. -/
theorem State.derivedList_cases (s : State) (k : Leg) : s.derivedList k = [] ∨ ∃ c : Cats, s.derivedList k = c.entries := by
  unfold State.derivedList
  repeat' split
  all_goals simp

theorem State.derivedList_nodup (s : State) (k : Leg) : ((s.derivedList k).map fun e => e.src).Nodup := by
  obtain e | ⟨c, e⟩ := s.derivedList_cases k <;> rw [e]
  · exact .nil
  · exact List.pairwise_map.mpr (eachSourceOnce_once _)

theorem execDerivationStart_holdsMixer {s t : State} (e : execDerivationStart s = .next t) : s.HoldsMixer t := by
  unfold execDerivationStart at e
  split at e <;> cases e
  · next k hnone _ =>
    refine .of_taps rfl id fun ⟨honce, _⟩ => ⟨honce, fun d hd => ?_⟩
    obtain rfl := Option.some.inj hd
    exact s.derivedList_nodup k
  · exact .refl s

theorem State.cmxReset_holdsMixer (s : State) : s.HoldsMixer s.cmxReset := by
  have hlist (k : Leg) : (s.cmxReset.leg k).list = [] := by simp [State.cmxReset, State.leg]
  refine .of_taps rfl (fun _ => ⟨?_, fun k => ?_⟩) fun _ => ⟨fun k => ?_, fun d hd => ?_⟩
  · have hfree : s.cmxReset.cmx.free = Config.poolSize := rfl
    simp [State.held_eq, hlist, hfree]
  · simp [hlist]
  · simp [hlist]
  · cases hd

theorem State.frame_holdsMixer (s : State) (mics : Vector Sample 48) (receives : Vector Sample 64) :
    s.HoldsMixer (s.frame mics receives) := by
  refine .of_lists rfl (fun k => ?_) rfl rfl
  have hleg : (s.frame mics receives).leg k
      = (s.leg k).frame (s.sampleOf mics receives) (activeIn (s.cmx.framed (s.sampleOf mics receives))) := Table.look_build ..
  rw [hleg, LegRec.frame]
  split <;> rfl

/-- A leg whose level or clip counter is replaced keeps its list. -/
theorem State.setLeg_holdsMixer {s : State} {k : Leg} {r : LegRec} (h : r.list = (s.leg k).list) : s.HoldsMixer (s.setLeg k r) := by
  refine .of_lists rfl (fun j => ?_) rfl rfl
  rw [State.setLeg_leg]
  split
  · next e => rw [h, e]
  · rfl

/-! ### RTU -/

/-- Recording fault marks move, and what is sent; nothing else does (R142). -/
theorem State.moveFaults_frame (s : State) (r : TapNo) (cs : List Cover) (on quiet : Bool) :
    ∃ f c, s.moveFaults r cs on quiet = { s with rtu := { s.rtu with faults := f }, chan := c } := by
  have hmarks (l : List Cover) (u : State) : ∃ f, l.foldl (fun u c => u.setFault c.pos c.hs on) u
      = { u with rtu := { u.rtu with faults := f } } := by
    induction l generalizing u with
    | nil => exact ⟨_, rfl⟩
    | cons c l ih =>
      obtain ⟨f, hf⟩ := ih (u.setFault c.pos c.hs on)
      exact ⟨f, hf⟩
  obtain ⟨f, hf⟩ := hmarks (cs.filter fun c => s.fault c.pos c.hs != on) s
  simp only [State.moveFaults, hf]
  repeat' split
  all_goals exact ⟨_, _, rfl⟩

theorem State.moveFaults_holdsMixer (s : State) (r : TapNo) (cs : List Cover) (on quiet : Bool) :
    s.HoldsMixer (s.moveFaults r cs on quiet) := by
  obtain ⟨f, c, e⟩ := s.moveFaults_frame r cs on quiet
  rw [e]
  exact .of_lists rfl (fun _ => rfl) rfl rfl

/-- One more entry, in an ENABLED tap that has room and for a handset that no tap covers (R133, R138). -/
theorem State.cover_holdsMixer {s : State} {r : TapNo} {c : Cover} (hon : (s.tap r).enabled = true)
    (hroom : (s.tap r).coverage.length < Config.coverageRoom) (hnew : s.covered c.pos c.hs = false) :
    s.HoldsMixer (s.setTap r { s.tap r with coverage := (s.tap r).coverage ++ [c] }) := by
  refine ⟨id, id, fun ⟨hs, hnodup⟩ => ⟨fun q => ?_, ?_⟩, fun q => ?_⟩
  · rw [State.setTap_tap]
    split
    · exact ⟨by simpa using hroom, fun hoff => by simp [hon] at hoff⟩
    · exact hs q
  · have hperm : (State.coveredHandsets (s.setTap r { s.tap r with coverage := (s.tap r).coverage ++ [c] })).Perm
        ((c.pos, c.hs) :: s.coveredHandsets) :=
      flatMap_finRange_perm_cons (i := r) (by simp) fun q hq => by simp [hq.symm]
    refine hperm.nodup_iff.mpr (.cons ?_ hnodup)
    simpa [State.coveredHandsets, State.covered] using hnew
  · rw [State.setTap_tap]
    split
    · next e => exact e ▸ .of_same _ _ _
    · exact .refl _

theorem State.coveringTap_some {s : State} {p : Pos} {h : Handset} {l : Line} {d : Direction} {r : TapNo}
    (e : s.coveringTap p h l d = some r) :
    (s.tap r).enabled = true ∧ (s.tap r).coverage.length < Config.coverageRoom := by
  obtain ⟨hcovers, hroom⟩ : (s.tap r).covers p h l d = true ∧ _ := by simpa using List.find?_some e
  refine ⟨?_, hroom⟩
  by_contra hoff
  simp [TapRec.covers, hoff] at hcovers

theorem State.reserve_holdsMixer (s : State) (p : Pos) (h : Handset) (l : Line) (d : Direction) :
    s.HoldsMixer (s.reserve p h l d) := by
  simp only [State.reserve]
  split
  · exact .of_mixer rfl
  · next hnew =>
    split
    · exact .of_mixer rfl
    · next r hr =>
      obtain ⟨hon, hroom⟩ := State.coveringTap_some hr
      have hcover : s.HoldsMixer
          ((s.setTap r { s.tap r with coverage := (s.tap r).coverage ++ [⟨p, h, l⟩] }).answerLcu p h true) :=
        .then_mixer (State.cover_holdsMixer (c := ⟨p, h, l⟩) hon hroom (by simpa using hnew)) rfl
      split
      · exact hcover
      · exact hcover.trans (State.moveFaults_holdsMixer ..)

theorem State.releaseCover_holdsMixer (s : State) (c : Cover) (ofReset : Bool) : s.HoldsMixer (s.releaseCover c ofReset) := by
  unfold State.releaseCover
  split
  · exact .refl s
  · next r _ =>
    refine (HoldsMixer.setTap ⟨List.filter_sublist, fun hs hoff => ?_, .of_same ..⟩).trans (State.moveFaults_holdsMixer ..)
    simp [hs hoff]

theorem State.recorderChange_holdsMixer (s : State) (r : TapNo) (present : Bool) : s.HoldsMixer (s.recorderChange r present) := by
  have hset : s.HoldsMixer (s.setTap r { s.tap r with present := present }) := .setTap ⟨.refl _, id, .of_same ..⟩
  simp only [State.recorderChange]
  split
  · exact (hset.then_mixer (State.emit_mixer ..)).trans (State.moveFaults_holdsMixer ..)
  · exact hset

/-- The lock of a tap that is not FIXED may be replaced (R137). -/
theorem State.lockTo_holdsMixer {s : State} {r : TapNo} (h : (s.tap r).lock ≠ .fixed) (n : Port) (l : Lock) :
    s.HoldsMixer (s.lockTo n r l) :=
  .then_mixer (.setTap (u := { s.tap r with lock := l }) ⟨.refl _, id, .of_not_fixed h⟩) (State.answer_mixer ..)

theorem State.tapSet_holdsMixer (s : State) (n : Port) (r : TapNo) (b : List Byte) : s.HoldsMixer (s.tapSet n r b) := by
  unfold State.tapSet
  repeat' split
  case h_2.isFalse.isFalse.isFalse hlock _ _ =>
    have hopen : (s.tap r).lock = .opened := by simpa using hlock
    refine .then_mixer (.then_mixer ?_ (State.emit_mixer ..)) (State.answer_mixer ..)
    exact .setTap ⟨.refl _, id, .of_not_fixed (by simp [hopen])⟩
  all_goals exact .answer ..

/-! ### Every command -/

theorem exec_holdsMixer {i : Instr} {s t : State} (hreset : ∀ far present, i ≠ .powerOnReset far present)
    (e : exec i s = .next t) : s.HoldsMixer t := by
  by_cases hi : Instr.movesMixer i = false
  · obtain ⟨u, hu, hmixer⟩ := exec_mixer hi s
    obtain rfl : u = t := by simpa [hu] using e
    exact .of_mixer hmixer
  cases i with
  | powerOnReset far present => exact absurd rfl (hreset far present)
  | changeNotice q =>
    change execChangeNotice q s = .next t at e
    unfold execChangeNotice at e
    split at e <;> cases e
    · exact .refl s
    · exact .of_lists rfl (fun _ => rfl) rfl rfl
  | derivationStart => exact execDerivationStart_holdsMixer e
  | listInstall =>
    change execListInstall s = .next t at e
    unfold execListInstall at e
    repeat' split at e
    case h_2.isFalse d hd _ =>
      cases e
      exact State.install_holdsMixer hd
    all_goals
      cases e
      exact .refl s
  | audioFrame mics receives =>
    cases e
    exact s.frame_holdsMixer mics receives
  | legLevel n =>
    cases e
    refine .dispatchIf (fun b t => ?_) s
    split
    · exact .answer ..
    · exact .then_mixer (State.setLeg_holdsMixer (by rfl)) (State.answer_mixer ..)
  | queryLeg n =>
    cases e
    refine .dispatchIf (fun b t => ?_) s
    repeat' split
    case h_2 => exact .then_mixer (State.setLeg_holdsMixer (by rfl)) (State.answer_mixer ..)
    all_goals exact .answer ..
  | detectorConfig n =>
    cases e
    refine .dispatchIf (fun b t => ?_) s
    repeat' split
    case h_2.isTrue | h_2.isFalse.isTrue =>
      refine .then_mixer (.of_lists ?_ (fun _ => ?_) ?_ ?_) (State.answer_mixer ..)
      all_goals rfl
    all_goals exact .answer ..
  | softResetAtCmx =>
    cases e
    unfold State.ownerReset
    repeat' split
    case h_2.isFalse => exact s.cmxReset_holdsMixer.then_mixer rfl
    all_goals exact .refl s
  | softResetCompletion =>
    change execSoftResetCompletion s = .next t at e
    unfold execSoftResetCompletion at e
    repeat' split at e
    case h_1.isTrue =>
      cases e
      refine (HoldsMixer.of_mixer s.lcuComplete_mixer).trans
        (.then_mixer (.of_lists ?_ (fun _ => ?_) ?_ ?_) (State.answer_mixer ..))
      all_goals rfl
    all_goals
      cases e
      exact .refl s
  | coverageReservation =>
    change execCoverageReservation s = .next t at e
    unfold execCoverageReservation at e
    split at e <;> cases e
    · exact (HoldsMixer.of_mixer (State.setChan_mixer ..)).trans (State.reserve_holdsMixer ..)
    · exact .refl s
  | coverageRelease =>
    change execCoverageRelease s = .next t at e
    unfold execCoverageRelease at e
    split at e <;> cases e
    · exact (HoldsMixer.of_mixer (State.setChan_mixer ..)).trans (State.releaseCover_holdsMixer ..)
    · exact .refl s
  | recorderPresentChange r present =>
    change execRecorderPresentChange r present s = .next t at e
    unfold execRecorderPresentChange at e
    split at e <;> cases e
    · exact .refl s
    · exact s.recorderChange_holdsMixer r present
  | tapSet n =>
    cases e
    exact .tapRequest (fun r b t => t.tapSet_holdsMixer n r b) s
  | tapDisable n =>
    cases e
    refine .tapRequest (fun r b t => ?_) s
    repeat' split
    case isFalse.isFalse.isTrue hlock hcov _ =>
      have hopen : (t.tap r).lock = .opened := by simpa using hlock
      have hset := HoldsMixer.setTap (s := t) (r := r) (u := { t.tap r with enabled := false })
        ⟨.refl _, fun _ _ => by simpa using hcov, .of_not_fixed (by simp [hopen])⟩
      exact (hset.then_mixer (State.emit_mixer ..)).trans (.answer ..)
    all_goals exact .answer ..
  | tapEnable n =>
    cases e
    refine .tapRequest (fun r b t => ?_) s
    dsimp only
    split
    · exact .answer ..
    · next hoff =>
      split
      · exact .answer ..
      · have hset := HoldsMixer.setTap (s := t) (r := r) (u := { t.tap r with enabled := true })
          ⟨.refl _, fun _ hu => by simp at hu, .of_not_enabled (by simpa using hoff)⟩
        refine .trans ?_ (.answer ..)
        split
        · exact hset.then_mixer (State.emit_mixer ..)
        · exact hset.then_mixer (by simp)
  | tapLock n =>
    cases e
    refine .tapRequest (fun r b t => ?_) s
    split
    · next hl => exact State.lockTo_holdsMixer (by simp [hl]) n _
    all_goals exact .answer ..
  | tapUnlock n =>
    cases e
    refine .tapRequest (fun r b t => ?_) s
    split
    case h_2 hl => exact State.lockTo_holdsMixer (by simp [hl]) n _
    all_goals exact .answer ..
  | tapFix n =>
    cases e
    refine .tapRequest (fun r b t => ?_) s
    repeat' split
    case h_1.isTrue hl _ => exact State.lockTo_holdsMixer (by simp [hl]) n _
    all_goals exact .answer ..
  | _ => exact absurd rfl hi

theorem step_holdsMixer {s t : State} (hreset : ∀ far present rest, s.pending ≠ .powerOnReset far present :: rest)
    (e : step s = .next t) : s.HoldsMixer t := by
  unfold step at e
  split at e
  · cases e
    exact .of_mixer rfl
  · next c rest hc =>
    have h : s.HoldsMixer { s with pending := rest } := .of_mixer rfl
    exact h.trans (exec_holdsMixer (fun far present hp => hreset far present rest (hp ▸ hc)) e)

/-- Settles O55: the power-on reset leaves the pool whole and every list empty; every other step is in `step_holdsMixer`. -/
theorem poolAndTapsAreKept : Obligations.PoolAndTapsAreKept := by
  intro s t e
  by_cases hreset : ∃ far present rest, s.pending = .powerOnReset far present :: rest
  · obtain ⟨far, present, rest, hp⟩ := hreset
    obtain rfl : State.poweredOn far present rest = t := by simpa [step, hp, exec, execPowerOnReset] using e
    exact ⟨fun _ => State.poweredOn_poolBalanced far present rest, fun _ => State.poweredOn_sourcesOnce far present rest,
      fun _ => State.poweredOn_coverageKept far present rest, fun _ _ _ h => absurd hp (h far present rest)⟩
  · have h := step_holdsMixer (by simpa using hreset) e
    exact ⟨h.pool, h.once, h.coverage, fun r hlock hon _ => (h.fixed r).kept hlock hon⟩

end Sys2Proof.Machine
end

section
/-! The categories of each list, case by case (R104 to R113, R140). -/

namespace Sys2Proof.Machine

/-! ### Ears (R105, R106) -/

section Ears
variable {s : State} {p : Pos} {h : Handset}

/-- The sidetone entry of an ear. -/
def State.ownEntry (s : State) (p : Pos) (h : Handset) : List MixEntry := s.micEntry (s.pos p).settings.sidetone.val p h

/-- The recording warning of an ear (R105). -/
def State.warning (s : State) (p : Pos) (h : Handset) : List MixEntry :=
  if (s.rtu.faults.look p).of h then entryOf attentionSource (s.pos p).settings.attentionLevel.val false else []

/-- The other handsets of the line of an ear, in list order (R105). -/
def State.bridged (s : State) (l : Line) (p : Pos) (h : Handset) : List MixEntry :=
  ((s.line l).connected.filter fun d => decide (¬(d.pos = p ∧ d.hs = h))).flatMap fun d =>
    s.micEntry (s.line l).cfg.bridgeLevel.val d.pos d.hs

/-- The other members of the group of an ear, in list order (R106). -/
def State.fellows (s : State) (g : Grp) (p : Pos) (h : Handset) : List MixEntry :=
  ((s.group g).joined.filter fun m => m != (p, h)).flatMap fun m => s.micEntry (s.group g).talkLevel.val m.1 m.2

theorem State.earCats_of_none (hs : s.stance p h = .none) : s.earCats p h = {} := by simp [State.earCats, hs]

theorem State.earCats_of_line {l : Line} (hs : s.stance p h = .line l) :
    s.earCats p h = { tones := s.warning p h, receives := entryOf (receiveSource l) (s.line l).cfg.receiveLevel.val false,
                      others := s.bridged l p h, sidetone := s.ownEntry p h } := by
  have hother : (fun d : Conn => !(d.pos == p && d.hs == h)) = fun d => decide (¬(d.pos = p ∧ d.hs = h)) := by
    funext d
    simp [Bool.beq_eq_decide_eq]
  simp only [State.earCats, hs, receiveEntries_singleton, hother]
  rfl

theorem State.earCats_of_group {g : Grp} (hs : s.stance p h = .group g) :
    s.earCats p h = { others := s.fellows g p h, sidetone := s.ownEntry p h } := by
  simp only [State.earCats, hs]
  rfl

theorem State.earCats_of_active {q : Pos} {i : Handset} (hs : s.stance p h = .active q i) :
    s.earCats p h = { principal := s.micEntry 128 q i, sidetone := s.ownEntry p h } := by
  simp only [State.earCats, hs]
  rfl

theorem State.earCats_of_caller (hs : s.stance p h = .caller) : s.earCats p h = { sidetone := s.ownEntry p h } := by
  simp only [State.earCats, hs]
  rfl

end Ears

/-! ### Speakers (R107 to R110) -/

section Speakers
variable {s : State} {p : Pos} {j : Spk}

/-- A level composed with the volume and the duck of a speaker (R104). -/
def State.spkLevel (s : State) (p : Pos) (j : Spk) (level : Nat) : Nat :=
  compose3 level ((s.pos p).volume.look j).val (s.duck p ((s.pos p).assign.look j))

theorem State.assignedCats_of_none (ht : (s.pos p).assign.look j = .none) : s.assignedCats p j = {} := by
  simp [State.assignedCats, ht]

theorem State.assignedCats_of_line {l : Line} (ht : (s.pos p).assign.look j = .line l) :
    s.assignedCats p j =
      { receives := entryOf (receiveSource l) (s.spkLevel p j (s.line l).cfg.receiveLevel.val) false
        others := ((s.line l).connected.filter fun d => d.pos != p).flatMap fun d =>
          s.micEntry (s.spkLevel p j (s.line l).cfg.bridgeLevel.val) d.pos d.hs } := by
  simp only [State.assignedCats, State.spkLevel, ht, receiveEntries_singleton]

theorem State.assignedCats_of_hoot {g : Grp} (ht : (s.pos p).assign.look j = .group g) (hk : (s.group g).kind = .hoot) :
    s.assignedCats p j =
      { floorMics (s.group g) (s.spkLevel p j (s.group g).talkLevel.val) (some p) with
        receives := receiveEntries (s.group g).attached (s.spkLevel p j (s.group g).talkLevel.val) } := by
  simp only [State.assignedCats, State.spkLevel, ht, hk, if_pos]

theorem State.assignedCats_of_other {g : Grp} (ht : (s.pos p).assign.look j = .group g) (hk : (s.group g).kind ≠ .hoot) :
    s.assignedCats p j = {} := by
  simp only [State.assignedCats, ht, if_neg hk]

/-- The alert tone at a speaker (R109). -/
def State.alertTone (s : State) (p : Pos) (j : Spk) : List MixEntry :=
  entryOf alertSource (compose (s.pos p).settings.alertLevel.val ((s.pos p).volume.look j).val) false

theorem State.alertCats_of_call {q : Pos} {i : Handset} {voice : Bool} (hc : s.alertingTo p = some (q, i, voice)) :
    s.alertCats p j =
      { tones := s.alertTone p j
        principal := if voice then s.micEntry (compose 128 ((s.pos p).volume.look j).val) q i else [] } := by
  simp only [State.alertCats, hc]
  rfl

theorem State.alertCats_of_ring (hc : s.alertingTo p = none) {l : Line} (hl : s.ringsAt p l = true) :
    s.alertCats p j = { tones := s.alertTone p j } := by
  have hany : ((List.finRange 64).any fun l => s.ringsAt p l) = true := List.any_eq_true.mpr ⟨l, List.mem_finRange l, hl⟩
  simp only [State.alertCats, hc, if_pos hany]
  rfl

theorem State.alertCats_of_quiet (hc : s.alertingTo p = none) (hl : ∀ l, s.ringsAt p l = false) : s.alertCats p j = {} := by
  have hany : ¬((List.finRange 64).any fun l => s.ringsAt p l) = true := by simp [hl]
  simp only [State.alertCats, hc, if_neg hany]

end Speakers

/-! ### Line sends (R111, R112) -/

section Sends
variable {s : State} {l : Line}

theorem State.sendCats_of_unused (hk : (s.line l).cfg.kind = .unused) : s.sendCats l = {} := by simp only [State.sendCats, hk]

theorem State.sendCats_of_dealers (hk : (s.line l).cfg.kind = .ringdown ∨ (s.line l).cfg.kind = .automatic) :
    s.sendCats l = if (s.line l).state = .outgoing ∨ (s.line l).state = .connected then
        { others := (s.line l).connected.flatMap fun d => s.micEntry (s.line l).cfg.sendLevel.val d.pos d.hs }
      else {} := by
  obtain hk | hk := hk <;> simp only [State.sendCats, hk]

theorem State.sendCats_of_unattached (hk : (s.line l).cfg.kind = .hoot) (hst : (s.line l).state ≠ .attached) :
    s.sendCats l = {} := by
  simp only [State.sendCats, hk]
  split
  · next h _ => exact absurd h hst
  · rfl

theorem State.sendCats_of_loose (hk : (s.line l).cfg.kind = .hoot) (hg : (s.line l).hoot = none) : s.sendCats l = {} := by
  simp only [State.sendCats, hk, hg]
  cases (s.line l).state <;> rfl

theorem State.sendCats_of_attached {g : Grp} (hk : (s.line l).cfg.kind = .hoot) (hst : (s.line l).state = .attached)
    (hg : (s.line l).hoot = some g) :
    s.sendCats l = { floorMics (s.group g) (s.group g).talkLevel.val none with
      receives := receiveEntries ((s.group g).attached.filter fun k => k != l) (s.group g).talkLevel.val } := by
  simp only [State.sendCats, hk, hst, hg]

end Sends

/-! ### Recorder legs (R113, R140) -/

section Recorders
variable {s : State} {t : TapRec}

theorem State.tapCats_of_inactive (h : t.enabled = false ∨ s.tapActive t = false) : s.tapCats t = {} := if_pos h

theorem State.tapCats_of_line {l : Line} (hon : t.enabled = true) (ha : s.tapActive t = true) (ht : t.target = .line l) :
    s.tapCats t =
      { receives := if t.receive then entryOf (receiveSource l) 128 false else []
        others := if t.send then (s.line l).connected.flatMap fun d => s.micEntry 128 d.pos d.hs else [] } := by
  simp only [State.tapCats, hon, ha, ht, receiveEntries_singleton]
  simp

theorem State.tapCats_of_handset {p : Pos} {h : Handset} (hon : t.enabled = true) (ha : s.tapActive t = true)
    (ht : t.target = .handset p h) :
    s.tapCats t =
      { receives := if t.receive then (s.earCats p h).receives else []
        others := if t.receive then (s.earCats p h).others else []
        principal := (if t.receive then (s.earCats p h).principal else []) ++ if t.send then s.micEntry 128 p h else [] } := by
  simp only [State.tapCats, hon, ha, ht]
  cases t.receive <;> simp

theorem State.tapCats_of_group {g : Grp} (hon : t.enabled = true) (ha : s.tapActive t = true) (ht : t.target = .group g) :
    s.tapCats t =
      { (if t.send then floorMics (s.group g) 128 none else {}) with
        receives := if t.receive then receiveEntries (s.group g).attached 128 else [] } := by
  simp only [State.tapCats, hon, ha, ht]
  simp

/-- A tap with no target is never active (R140). -/
theorem State.tapActive_of_none (ht : t.target = .none) : s.tapActive t = false := by simp only [State.tapActive, ht]

end Recorders

end Sys2Proof.Machine
end

section
/-! What no derived list holds, and the order in which each stands (R97, R103, R114, R115). -/

namespace Sys2Proof.Machine

/-- An entry that a list may hold: its level is not 0, it is not the microphone of a muted handset (R103), and it is gated only
as the desk microphone of an open talker (R114). -/
structure State.Admits (s : State) (e : MixEntry) : Prop where
  level : e.level ≠ 0
  unmuted : ∀ p h, (s.pos p).mute.of h = true → e.src ≠ micSource p h
  talker : e.gated = true →
    ∃ g p, e.src = deskSource p ∧ (s.group g).openMode = true ∧ ∃ t ∈ (s.group g).floor.talkers, t.pos = p

theorem State.admits_entryOf {s : State} {e : MixEntry} {src : Src} {n : Nat} (he : e ∈ entryOf src n false)
    (hsrc : ∀ p h, (s.pos p).mute.of h = true → src ≠ micSource p h) : s.Admits e := by
  obtain ⟨hn, rfl⟩ := mem_entryOf.mp he
  exact ⟨toLevel_ne_zero hn, hsrc, fun hg => by cases hg⟩

/-- A source that is no position's microphone is no muted one. -/
theorem ne_micSource_of_le {src : Src} (h : 48 ≤ src.val) (p : Pos) (i : Handset) : src ≠ micSource p i := by
  rintro rfl
  have hp := p.isLt
  cases i <;> simp only [micSource_val] at h <;> omega

/-! ### One category -/

/-- Entries of tones. -/
structure State.Tones (s : State) (es : List MixEntry) : Prop where
  each : ∀ e ∈ es, s.Admits e ∧ 112 ≤ e.src.val

/-- Entries of line receives, in line order. -/
structure State.Receives (s : State) (es : List MixEntry) : Prop where
  each : ∀ e ∈ es, s.Admits e ∧ 48 ≤ e.src.val ∧ e.src.val < 112
  increasing : es.Pairwise fun a b => a.src < b.src

/-- Entries of microphones. -/
structure State.Mics (s : State) (es : List MixEntry) : Prop where
  each : ∀ e ∈ es, s.Admits e ∧ e.src.val < 48

theorem State.tones_entryOf (s : State) {src : Src} (h : 112 ≤ src.val) (n : Nat) : s.Tones (entryOf src n false) := by
  refine ⟨fun e he => ?_⟩
  refine ⟨State.admits_entryOf he fun p i _ => ne_micSource_of_le (by omega) p i, ?_⟩
  obtain ⟨-, rfl⟩ := mem_entryOf.mp he
  exact h

theorem State.tones_nil (s : State) : s.Tones [] := ⟨fun _ h => nomatch h⟩

theorem State.receives_nil (s : State) : s.Receives [] := ⟨(fun _ h => nomatch h), .nil⟩

theorem State.receives_receiveEntries (s : State) (ls : List Line) (n : Nat) : s.Receives (receiveEntries ls n) := by
  refine ⟨fun e he => ?_, ?_⟩
  · obtain ⟨l, -, he⟩ := mem_receiveEntries.mp he
    have hsrc : (receiveSource l).val = 48 + l.val := rfl
    refine ⟨State.admits_entryOf he fun p i _ => ne_micSource_of_le (by omega) p i, ?_⟩
    obtain ⟨-, rfl⟩ := mem_entryOf.mp he
    exact ⟨by simp only [hsrc]; omega, by simp only [hsrc]; omega⟩
  · rw [receiveEntries_eq, List.pairwise_flatMap]
    refine ⟨fun l _ => ?_, ((List.pairwise_lt_finRange 64).filter _).imp fun {l m} hlt a ha b hb => ?_⟩
    · unfold entryOf
      split <;> simp
    · obtain ⟨-, rfl⟩ := mem_entryOf.mp ha
      obtain ⟨-, rfl⟩ := mem_entryOf.mp hb
      exact Nat.add_lt_add_left hlt 48

namespace State.Mics

variable {s : State}

theorem nil : s.Mics [] := ⟨fun _ h => nomatch h⟩

theorem append {a b : List MixEntry} (ha : s.Mics a) (hb : s.Mics b) : s.Mics (a ++ b) :=
  ⟨fun e he => (List.mem_append.mp he).elim (ha.each e) (hb.each e)⟩

theorem flatMap {α : Type} {l : List α} {f : α → List MixEntry} (h : ∀ x ∈ l, s.Mics (f x)) : s.Mics (l.flatMap f) := by
  refine ⟨fun e he => ?_⟩
  obtain ⟨x, hx, he⟩ := List.mem_flatMap.mp he
  exact (h x hx).each e he

theorem micEntry (s : State) (n : Nat) (p : Pos) (h : Handset) : s.Mics (s.micEntry n p h) := by
  refine ⟨fun e he => ?_⟩
  obtain ⟨hmute, he⟩ := State.mem_micEntry.mp he
  refine ⟨State.admits_entryOf he ?_, ?_⟩
  · rintro q i hq heq
    obtain ⟨rfl, rfl⟩ := micSource_inj heq
    simp [hmute] at hq
  · obtain ⟨-, rfl⟩ := mem_entryOf.mp he
    have hp := p.isLt
    cases h <;> simp only [micSource_val] <;> omega

theorem deskEntry (s : State) (n : Nat) (p : Pos) : s.Mics (entryOf (deskSource p) n false) := by
  refine ⟨fun e he => ?_⟩
  refine ⟨State.admits_entryOf he fun q i _ => (micSource_ne_deskSource q p i).symm, ?_⟩
  obtain ⟨-, rfl⟩ := mem_entryOf.mp he
  have hp := p.isLt
  simp only [deskSource_val]
  omega

/-- An open talker's desk microphone, gated (R114). -/
theorem talkerEntry {g : Grp} (hopen : (s.group g).openMode = true) {t : Talker} (ht : t ∈ (s.group g).floor.talkers) (n : Nat) :
    s.Mics (entryOf (deskSource t.pos) n true) := by
  refine ⟨fun e he => ?_⟩
  obtain ⟨hn, rfl⟩ := mem_entryOf.mp he
  have hp := t.pos.isLt
  refine ⟨⟨toLevel_ne_zero hn, fun q i _ => (micSource_ne_deskSource q t.pos i).symm, fun _ => ⟨g, _, rfl, hopen, t, ht, rfl⟩⟩, ?_⟩
  simp only [deskSource_val]
  omega

theorem floorMics (s : State) (g : Grp) (n : Nat) (out : Option Pos) :
    s.Mics ((floorMics (s.group g) n out).principal ++ (Machine.floorMics (s.group g) n out).others) := by
  cases hm : (s.group g).openMode
  · rw [floorMics_of_managed hm]
    exact .append (.flatMap fun _ _ => .deskEntry ..) .nil
  · rw [floorMics_of_open hm]
    exact .append .nil (.flatMap fun t ht => .talkerEntry hm (List.mem_of_mem_filter ht) n)

end State.Mics

/-! ### A whole list -/

/-- The categories of a list hold what they are for. -/
structure State.Sorts (s : State) (c : Cats) : Prop where
  tones : s.Tones c.tones
  receives : s.Receives c.receives
  mics : s.Mics (c.principal ++ c.others ++ c.sidetone)

theorem Cats.entries_sublist (c : Cats) :
    c.entries.Sublist (c.tones ++ (c.receives ++ (c.principal ++ c.others ++ c.sidetone))) := by
  simpa only [Cats.entries, List.append_assoc] using eachSourceOnce_sublist _

theorem Cats.mem_entries {c : Cats} {e : MixEntry} (he : e ∈ c.entries) :
    e ∈ c.tones ∨ e ∈ c.receives ∨ e ∈ c.principal ++ c.others ++ c.sidetone := by
  simpa only [List.mem_append] using c.entries_sublist.subset he

namespace State.Sorts

variable {s : State}

theorem admits {c : Cats} (hc : s.Sorts c) {e : MixEntry} (he : e ∈ c.entries) : s.Admits e := by
  obtain he | he | he := Cats.mem_entries he
  · exact (hc.tones.each e he).1
  · exact (hc.receives.each e he).1
  · exact (hc.mics.each e he).1

/-- Tones stand before receives, receives in line order before microphones (R115). -/
theorem ordered {c : Cats} (hc : s.Sorts c) : c.entries.Pairwise fun a b =>
    (a.src.val < 112 → b.src.val < 112) ∧ (a.src.val < 48 → b.src.val < 48)
      ∧ (48 ≤ a.src.val → a.src.val < 112 → 48 ≤ b.src.val → a.src < b.src) := by
  refine List.Pairwise.sublist c.entries_sublist ?_
  have hreceive (x) (hx : x ∈ c.receives) := (hc.receives.each x hx).2
  have hmic (x) (hx : x ∈ c.principal ++ c.others ++ c.sidetone) := (hc.mics.each x hx).2
  refine List.pairwise_append.mpr ⟨?_, List.pairwise_append.mpr ⟨?_, ?_, fun a ha b hb => ?_⟩, fun a ha b _ => ?_⟩
  · exact List.pairwise_of_forall_mem_list fun a ha b hb => by
      have h1 := (hc.tones.each a ha).2
      omega
  · refine hc.receives.increasing.imp_of_mem fun {a b} ha hb hlt => ?_
    have h1 := hreceive a ha
    have h2 := hreceive b hb
    exact ⟨by omega, by omega, fun _ _ _ => hlt⟩
  · refine List.pairwise_of_forall_mem_list fun a ha b hb => ?_
    have h1 := hmic a ha
    have h2 := hmic b hb
    omega
  · have h1 := hreceive a ha
    have h2 := hmic b hb
    omega
  · have h1 := (hc.tones.each a ha).2
    omega

theorem nil : s.Sorts {} := ⟨s.tones_nil, s.receives_nil, .nil⟩

/-- Receives and microphones alone. -/
theorem ofMics {c : Cats} (ht : c.tones = []) (hr : s.Receives c.receives) (hm : s.Mics (c.principal ++ c.others ++ c.sidetone)) :
    s.Sorts c := ⟨ht ▸ s.tones_nil, hr, hm⟩

/-- A floor's microphones with some receives. -/
theorem ofFloor (s : State) (g : Grp) (n : Nat) (out : Option Pos) {es : List MixEntry} (hr : s.Receives es) :
    s.Sorts { floorMics (s.group g) n out with receives := es } := by
  obtain ⟨htones, hside⟩ := floorMics_rest (s.group g) n out
  exact .ofMics htones hr (.append (.floorMics s g n out) (hside ▸ .nil))

theorem earCats (s : State) (p : Pos) (h : Handset) : s.Sorts (s.earCats p h) := by
  have hown : s.Mics (s.ownEntry p h) := .micEntry ..
  cases hs : s.stance p h with
  | none => exact State.earCats_of_none hs ▸ .nil
  | line l =>
    rw [State.earCats_of_line hs, ← receiveEntries_singleton]
    refine ⟨?_, s.receives_receiveEntries .., .append (.append .nil (.flatMap fun _ _ => .micEntry ..)) hown⟩
    show s.Tones (s.warning p h)
    unfold State.warning
    split
    · exact s.tones_entryOf (by decide) _
    · exact s.tones_nil
  | group g =>
    rw [State.earCats_of_group hs]
    exact .ofMics rfl s.receives_nil (.append (.append .nil (.flatMap fun _ _ => .micEntry ..)) hown)
  | active q i =>
    rw [State.earCats_of_active hs]
    exact .ofMics rfl s.receives_nil (.append (.append (.micEntry ..) .nil) hown)
  | caller =>
    rw [State.earCats_of_caller hs]
    exact .ofMics rfl s.receives_nil (.append .nil hown)

theorem assignedCats (s : State) (p : Pos) (j : Spk) : s.Sorts (s.assignedCats p j) := by
  cases ht : (s.pos p).assign.look j with
  | none => exact State.assignedCats_of_none ht ▸ .nil
  | line l =>
    rw [State.assignedCats_of_line ht, ← receiveEntries_singleton]
    exact .ofMics rfl (s.receives_receiveEntries ..) (.append (.append .nil (.flatMap fun _ _ => .micEntry ..)) .nil)
  | group g =>
    by_cases hk : (s.group g).kind = .hoot
    · rw [State.assignedCats_of_hoot ht hk]
      exact .ofFloor s _ _ _ (s.receives_receiveEntries ..)
    · exact State.assignedCats_of_other ht hk ▸ .nil

theorem alertCats (s : State) (p : Pos) (k : Spk) : s.Sorts (s.alertCats p k) ∧ (s.alertCats p k).receives = [] := by
  have htone (n : Nat) : s.Tones (entryOf alertSource n false) := s.tones_entryOf (by decide) n
  unfold State.alertCats
  split
  · refine ⟨⟨htone _, s.receives_nil, .append (.append ?_ .nil) .nil⟩, rfl⟩
    split
    · exact .micEntry ..
    · exact .nil
  · refine ⟨⟨?_, s.receives_nil, .nil⟩, rfl⟩
    split
    · exact htone _
    · exact s.tones_nil

theorem speakerCats (s : State) (p : Pos) (k : Spk) : s.Sorts (s.speakerCats p k) := by
  obtain ⟨halert, hnone⟩ := alertCats s p k
  have hassigned := assignedCats s p k
  unfold State.speakerCats
  split
  · refine ⟨⟨fun e he => ?_⟩, ?_, ⟨fun e he => ?_⟩⟩
    · exact (List.mem_append.mp he).elim (hassigned.tones.each e) (halert.tones.each e)
    · simpa [Cats.with, hnone] using hassigned.receives
    · simp only [Cats.with, List.mem_append] at he
      have hsplit : e ∈ (s.assignedCats p k).principal ++ (s.assignedCats p k).others ++ (s.assignedCats p k).sidetone
          ∨ e ∈ (s.alertCats p k).principal ++ (s.alertCats p k).others ++ (s.alertCats p k).sidetone := by
        simp only [List.mem_append]
        tauto
      exact hsplit.elim (hassigned.mics.each e) (halert.mics.each e)
  · exact hassigned

theorem sendCats (s : State) (l : Line) : s.Sorts (s.sendCats l) := by
  have hdealers (hk : (s.line l).cfg.kind = .ringdown ∨ (s.line l).cfg.kind = .automatic) : s.Sorts (s.sendCats l) := by
    rw [State.sendCats_of_dealers hk]
    split
    · exact .ofMics rfl s.receives_nil (.append (.append .nil (.flatMap fun _ _ => .micEntry ..)) .nil)
    · exact .nil
  cases hk : (s.line l).cfg.kind with
  | unused => exact State.sendCats_of_unused hk ▸ .nil
  | ringdown => exact hdealers (.inl hk)
  | automatic => exact hdealers (.inr hk)
  | hoot =>
    by_cases hst : (s.line l).state = .attached
    · cases hg : (s.line l).hoot with
      | none => exact State.sendCats_of_loose hk hg ▸ .nil
      | some g =>
        rw [State.sendCats_of_attached hk hst hg]
        exact .ofFloor s _ _ _ (s.receives_receiveEntries ..)
    · exact State.sendCats_of_unattached hk hst ▸ .nil

theorem tapCats (s : State) (t : TapRec) : s.Sorts (s.tapCats t) := by
  by_cases hoff : t.enabled = false ∨ s.tapActive t = false
  · exact State.tapCats_of_inactive hoff ▸ .nil
  obtain ⟨hon, ha⟩ : t.enabled = true ∧ s.tapActive t = true := by simpa [not_or] using hoff
  have hreceive {b : Bool} {es : List MixEntry} (h : s.Receives es) : s.Receives (if b then es else []) := by
    split
    · exact h
    · exact s.receives_nil
  have hmics {b : Bool} {es : List MixEntry} (h : s.Mics es) : s.Mics (if b then es else []) := by
    split
    · exact h
    · exact .nil
  cases ht : t.target with
  | none => simp [State.tapActive_of_none ht] at ha
  | line l =>
    rw [State.tapCats_of_line hon ha ht, ← receiveEntries_singleton]
    exact .ofMics rfl (hreceive (s.receives_receiveEntries ..))
      (.append (.append .nil (hmics (.flatMap fun _ _ => .micEntry ..))) .nil)
  | handset p h =>
    rw [State.tapCats_of_handset hon ha ht]
    have hear := earCats s p h
    have hprincipal : s.Mics (s.earCats p h).principal := ⟨fun e he => hear.mics.each e (by simp [he])⟩
    have hothers : s.Mics (s.earCats p h).others := ⟨fun e he => hear.mics.each e (by simp [he])⟩
    exact .ofMics rfl (hreceive hear.receives)
      (.append (.append (.append (hmics hprincipal) (hmics (.micEntry ..))) (hmics hothers)) .nil)
  | group g =>
    rw [State.tapCats_of_group hon ha ht]
    cases t.send
    · exact .ofMics rfl (hreceive (s.receives_receiveEntries ..)) .nil
    · exact .ofFloor s _ _ _ (hreceive (s.receives_receiveEntries ..))

end State.Sorts

theorem State.derivedList_sorts (s : State) (k : Leg) : s.derivedList k = [] ∨ ∃ c, s.Sorts c ∧ s.derivedList k = c.entries := by
  unfold State.derivedList
  split
  · split
    · exact .inr ⟨_, .earCats .., rfl⟩
    · exact .inl rfl
  · split
    · exact .inr ⟨_, .speakerCats .., rfl⟩
    · exact .inl rfl
  · exact .inr ⟨_, .sendCats .., rfl⟩
  · exact .inr ⟨_, .tapCats .., rfl⟩

theorem State.derivedList_admits {s : State} {k : Leg} {e : MixEntry} (he : e ∈ s.derivedList k) : s.Admits e := by
  obtain h | ⟨c, hc, h⟩ := s.derivedList_sorts k <;> rw [h] at he
  · cases he
  · exact hc.admits he

theorem State.derivedList_ordered (s : State) (k : Leg) : (s.derivedList k).Pairwise fun a b =>
    (a.src.val < 112 → b.src.val < 112) ∧ (a.src.val < 48 → b.src.val < 48)
      ∧ (48 ≤ a.src.val → a.src.val < 112 → 48 ≤ b.src.val → a.src < b.src) := by
  obtain h | ⟨c, hc, h⟩ := s.derivedList_sorts k <;> rw [h]
  · exact .nil
  · exact hc.ordered

/-- The receives of a send are of other lines (R103, R112). -/
theorem State.sendCats_receives {s : State} {l : Line} {e : MixEntry} (he : e ∈ (s.sendCats l).receives) :
    ∃ m, m ≠ l ∧ e.src = receiveSource m := by
  revert he
  simp only [State.sendCats]
  repeat' split
  case h_1 =>
    intro he
    obtain ⟨m, hm, he⟩ := mem_receiveEntries.mp he
    obtain ⟨-, rfl⟩ := mem_entryOf.mp he
    exact ⟨m, by simpa using (List.mem_filter.mp hm).2, rfl⟩
  all_goals exact fun he => nomatch he

/-- A line's own receive is not in its send (R103). -/
theorem State.ne_own_receive {s : State} {k : Leg} {l : Line} (hk : k.val = 128 + l.val) {e : MixEntry}
    (he : e ∈ s.derivedList k) : e.src ≠ receiveSource l := by
  rw [State.derivedList_of_send hk] at he
  have hsorts := State.Sorts.sendCats s l
  intro hsrc
  have hval : e.src.val = 48 + l.val := congrArg Fin.val hsrc
  obtain he | he | he := Cats.mem_entries he
  · have := (hsorts.tones.each e he).2
    omega
  · obtain ⟨m, hne, hm⟩ := State.sendCats_receives he
    have hm : e.src.val = 48 + m.val := congrArg Fin.val hm
    exact hne (Fin.ext (by omega))
  · have := (hsorts.mics.each e he).2
    omega

end Sys2Proof.Machine
end

section
/-! What an ear carries (R105, R106). -/

namespace Sys2Proof.Machine

section Ears
variable {s : State} {p : Pos} {h : Handset}

theorem State.entries_on_line {l : Line} (hs : s.stance p h = .line l) :
    (s.earCats p h).entries = eachSourceOnce (s.warning p h
      ++ entryOf (receiveSource l) (s.line l).cfg.receiveLevel.val false ++ s.bridged l p h ++ s.ownEntry p h) := by
  simp only [State.earCats_of_line hs, Cats.entries, List.append_nil]

theorem State.entries_in_group {g : Grp} (hs : s.stance p h = .group g) :
    (s.earCats p h).entries = eachSourceOnce (s.fellows g p h ++ s.ownEntry p h) := by
  simp only [State.earCats_of_group hs, Cats.entries, List.nil_append]

theorem State.entries_in_call {q : Pos} {i : Handset} (hs : s.stance p h = .active q i) :
    (s.earCats p h).entries = eachSourceOnce (s.micEntry 128 q i ++ s.ownEntry p h) := by
  simp only [State.earCats_of_active hs, Cats.entries, List.nil_append, List.append_nil]

/-- The caller of an ALERTING call hears its own sidetone alone (R106). -/
theorem State.entries_of_caller (hs : s.stance p h = .caller) : (s.earCats p h).entries = s.ownEntry p h := by
  simp only [State.earCats_of_caller hs, Cats.entries, List.nil_append]
  exact s.eachSourceOnce_micEntry ..

theorem State.entries_of_nothing (hs : s.stance p h = .none) : (s.earCats p h).entries = [] := by
  rw [State.earCats_of_none hs]
  rfl

end Ears

end Sys2Proof.Machine
end

section
/-! What a speaker carries (R104, R107 to R110). -/

namespace Sys2Proof.Machine

/-! ### The duck (R104) -/

theorem State.handsetBusy_iff {s : State} {p : Pos} :
    s.handsetBusy p = true ↔ ∃ h, (∃ l, ((s.line l).entry p h).isSome = true) ∨ (∃ g, (p, h) ∈ (s.group g).joined)
      ∨ ∃ c, (s.call c).holds p h = true := by
  have hstands (h : Handset) : s.stance p h ≠ .none ↔ (∃ l, ((s.line l).entry p h).isSome = true)
      ∨ (∃ g, (p, h) ∈ (s.group g).joined) ∨ ∃ c, (s.call c).holds p h = true := by
    rw [Ne, State.stance_eq_none]
    simp only [not_and_or, not_forall, not_not, Bool.not_eq_false, ← Option.isSome_iff_ne_none]
  have hboth : s.handsetBusy p = true ↔ s.stance p .A ≠ .none ∨ s.stance p .B ≠ .none := by simp [State.handsetBusy]
  rw [hboth]
  constructor
  · rintro (hA | hB)
    · exact ⟨.A, (hstands .A).mp hA⟩
    · exact ⟨.B, (hstands .B).mp hB⟩
  · rintro ⟨h, hh⟩
    cases h
    · exact .inl ((hstands .A).mpr hh)
    · exact .inr ((hstands .B).mpr hh)

theorem State.talking_iff {s : State} {p : Pos} {t : Target} :
    s.talking p t = true ↔ ∃ g, t = .group g ∧ (s.group g).kind = .hoot
      ∧ ((s.group g).floor.holderPos = some p ∨ ∃ i ∈ (s.group g).floor.talkers, i.pos = p) := by
  cases t with
  | none => simp [State.talking]
  | line l => simp [State.talking]
  | group g => cases hh : (s.group g).floor.holder <;> simp [State.talking, Floor.holderPos, hh]

theorem State.duck_eq (s : State) (p : Pos) (t : Target) :
    s.duck p t = if s.handsetBusy p && s.talking p t then
        min (s.pos p).settings.handsetDuck.val (s.pos p).settings.talkingDuck.val
      else if s.handsetBusy p then (s.pos p).settings.handsetDuck.val
      else if s.talking p t then (s.pos p).settings.talkingDuck.val else 128 := by
  unfold State.duck
  cases s.handsetBusy p <;> cases s.talking p t <;> rfl

/-! ### The alert speaker (R109) -/

theorem State.alertingTo_eq_some {s : State} {p q : Pos} {i : Handset} {voice : Bool} {x : Timer} {c : CallNo}
    (hc : s.call c = .alerting q i p voice x) (hfirst : ∀ d, d < c → (s.call d).alerts p = false) :
    s.alertingTo p = some (q, i, voice) := by
  rw [State.alertingTo, ← Fin.findSome?_eq_findSome?_finRange, Fin.findSome?_eq_some_iff]
  refine ⟨c, by simp [hc], fun d hd => ?_⟩
  have h := hfirst d hd
  cases hcall : s.call d <;> simp_all [CallRec.alerts]

theorem State.alertingTo_eq_none {s : State} {p : Pos} (h : ∀ c, (s.call c).alerts p = false) : s.alertingTo p = none := by
  refine List.findSome?_eq_none_iff.mpr fun c _ => ?_
  have hc := h c
  cases hcall : s.call c <;> simp_all [CallRec.alerts]

theorem State.ringsAt_iff {s : State} {p : Pos} {l : Line} :
    s.ringsAt p l = true ↔ (s.line l).state = .incoming
      ∧ ((s.line l).cfg.kind = .ringdown ∨ (s.line l).cfg.kind = .automatic) ∧ (s.row l).look p = ⟨.full, false⟩ := by
  cases ha : (s.row l).look p
  simp [State.ringsAt, ha, and_assoc]

/-! ### Its list -/

/-- The list of a speaker that is not the alert speaker. -/
theorem State.entries_of_speaker {s : State} {p : Pos} {j : Spk} {receives principal others : List MixEntry}
    (ha : s.assignedCats p j = { receives := receives, principal := principal, others := others })
    (hj : j ≠ (s.pos p).settings.alertSpeaker) :
    (s.speakerCats p j).entries = eachSourceOnce (receives ++ principal ++ others) := by
  simp only [State.speakerCats, if_neg hj, ha, Cats.entries, List.nil_append, List.append_nil]

/-- The list of the alert speaker, with what R109 adds. -/
theorem State.entries_of_alertSpeaker {s : State} {p : Pos} {j : Spk} {receives principal others tones voices : List MixEntry}
    (ha : s.assignedCats p j = { receives := receives, principal := principal, others := others })
    (hj : j = (s.pos p).settings.alertSpeaker) (halert : s.alertCats p j = { tones := tones, principal := voices }) :
    (s.speakerCats p j).entries = eachSourceOnce (tones ++ receives ++ principal ++ voices ++ others) := by
  simp only [State.speakerCats, if_pos hj, ha, halert, Cats.with, Cats.entries, List.nil_append, List.append_nil,
    List.append_assoc]

end Sys2Proof.Machine
end

section
/-! What the lists hold and what they do not, as O37 says it (R97, R103 to R110, R114, R115). -/

namespace Sys2Proof.Machine

/-- The microphones of a MANAGED floor without one position: the holder's, unless it is the position's own (R108). -/
theorem floorMics_principal {r : GroupRec} (hm : r.openMode = false) (n : Nat) (p : Pos) :
    (floorMics r n (some p)).principal = (match r.floor.holder with
      | none => []
      | some i => if i.pos = p then [] else entryOf (deskSource i.pos) n false) := by
  rw [floorMics_of_managed hm]
  cases r.floor.holder with
  | none => rfl
  | some i => by_cases hi : i.pos = p <;> simp [hi]

/-- And of an OPEN floor. -/
theorem floorMics_others {r : GroupRec} (hm : r.openMode = true) (n : Nat) (p : Pos) :
    (floorMics r n (some p)).others = (r.floor.talkers.filter fun i => i.pos != p).flatMap fun i =>
      entryOf (deskSource i.pos) n true := by
  have hother : (fun t : Talker => some t.pos != some p) = fun t => t.pos != p := by
    funext t
    simp [bne]
  rw [floorMics_of_open hm, hother]

/-- Settles O37: what no list holds is `derivedList_sorts`; what an ear and a speaker carry is their list by what the handset
stands in and by the assignment. -/
theorem derivedListsKeepTheirExclusions : Obligations.DerivedListsKeepTheirExclusions := by
  refine ⟨fun s k => ⟨s.derivedList_nodup k, fun e he => ?level, fun p h hm e he => ?muted, fun l hk e he => ?own,
      fun p hk hup => ?down, fun e he hg => ?gated, s.derivedList_ordered k⟩,
    fun e es => ⟨rfl, eachSourceOnce_of_nodup⟩, fun s p h l src level gated => ⟨rfl, fun q hq hn => ?entry, rfl, micSource_val p h,
      deskSource_val p, rfl⟩, fun s k p h own hk hup hown => ?ear,
    fun s k p j t v duck busy talks tone receives principal others hk hup ht hv htone hbusy htalks hduck hlist => ?speaker⟩
  case level => exact (State.derivedList_admits he).level
  case muted => exact (State.derivedList_admits he).unmuted p h hm
  case own => exact State.ne_own_receive hk he
  case down => exact State.derivedList_of_down hk hup
  case gated => exact (State.derivedList_admits he).talker hg
  case entry => exact entryOf_of_level hq hn
  case ear =>
    subst hown
    rw [State.derivedList_of_ear hk hup]
    refine ⟨fun l r hr hl hfirst => ?line, fun hline => ⟨fun g hg hfirst => ?group, fun hgroup =>
      ⟨fun c q i voice hc hfirst => ?call, fun c q voice x hc hfirst => ?caller, fun hcall => ?nothing⟩⟩⟩
    case line =>
      subst hr
      exact State.entries_on_line (State.stance_of_line (State.lineOf_eq_some hl hfirst))
    all_goals have hline := State.lineOf_eq_none.mpr hline
    case group => exact State.entries_in_group (State.stance_of_group hline (State.groupOf_eq_some hg hfirst))
    all_goals have hgroup := State.groupOf_eq_none.mpr hgroup
    case call =>
      exact State.entries_in_call (State.stance_of_call hline hgroup (CallRec.stance_of_active hc) hfirst)
    case caller =>
      exact State.entries_of_caller (State.stance_of_call hline hgroup (by simp [hc, CallRec.stance]) hfirst)
    case nothing => exact State.entries_of_nothing (State.stance_of_nothing hline hgroup hcall)
  case speaker =>
    obtain rfl : busy = s.handsetBusy p := Bool.eq_iff_iff.mpr (hbusy.trans State.handsetBusy_iff.symm)
    obtain rfl : talks = s.talking p t := Bool.eq_iff_iff.mpr (htalks.trans State.talking_iff.symm)
    rw [← State.duck_eq] at hduck
    subst hduck hv
    have hlevel (n : Nat) : s.spkLevel p j n = compose (compose n ((s.pos p).volume.look j).val) (s.duck p t) := by
      rw [State.spkLevel, ht]
      rfl
    have hassigned : s.assignedCats p j = { receives := receives, principal := principal, others := others } := by
      obtain ⟨rfl, rfl, rfl, rfl⟩ | ⟨l, r, rfl, rfl, rfl, rfl, rfl⟩ | ⟨g, r, m, rfl, rfl, hkind, rfl, rfl, hfloor⟩ := hlist
      · exact State.assignedCats_of_none ht
      · simp only [State.assignedCats_of_line ht, hlevel]
      · obtain ⟨htones, hside⟩ := floorMics_rest (s.group g) (s.spkLevel p j (s.group g).talkLevel.val) (some p)
        rw [State.assignedCats_of_hoot ht hkind]
        simp only [htones, hside, receiveEntries_eq]
        obtain ⟨hm, rfl, rfl⟩ | ⟨hm, rfl, rfl⟩ := hfloor
        · rw [floorMics_principal hm, floorMics_of_managed hm, hlevel] <;> rfl
        · rw [floorMics_others hm, floorMics_of_open hm, hlevel]
    rw [State.derivedList_of_speaker hk hup, htone]
    refine ⟨State.entries_of_speaker hassigned, fun hj => ⟨fun c q i voice x hc hfirst => ?alerted, fun hquiet =>
      ⟨fun ⟨l, hl⟩ => ?rung, fun hl => ?silent⟩⟩⟩
    case alerted =>
      exact State.entries_of_alertSpeaker hassigned hj (State.alertCats_of_call (State.alertingTo_eq_some hc hfirst))
    all_goals have hnone := State.alertingTo_eq_none hquiet
    case rung =>
      have h := State.entries_of_alertSpeaker hassigned hj (State.alertCats_of_ring hnone (State.ringsAt_iff.mpr hl))
      rwa [List.append_nil] at h
    case silent =>
      have h := State.entries_of_alertSpeaker hassigned hj (State.alertCats_of_quiet hnone fun l =>
        Bool.eq_false_iff.mpr fun hr => hl l (State.ringsAt_iff.mp hr))
      rwa [List.append_nil, List.nil_append] at h

end Sys2Proof.Machine
end

section
/-! The legs that a change notice reaches, by their numbers (R99, R141). -/

namespace Sys2Proof.Machine

/-- The area of a leg: an output of position `k / 8`, a line send or a recorder leg. -/
theorem legKind_areas (k : Leg) :
    (∃ q : Pos, k.val / 8 = q.val ∧ ((∃ h, legKind k = .ear q h) ∨ ∃ j, legKind k = .speaker q j))
      ∨ (∃ l, legKind k = .send l ∧ k.val = 128 + l.val) ∨ ∃ r, legKind k = .recorder r ∧ k.val = 192 + r.val := by
  obtain ⟨q, h, e, hk⟩ | ⟨q, j, e, hk⟩ | hsend | hrec := legKind_cases k
  · exact .inl ⟨q, by cases h <;> simp only at hk <;> omega, .inl ⟨h, e⟩⟩
  · exact .inl ⟨q, by omega, .inr ⟨j, e⟩⟩
  · exact .inr (.inl hsend)
  · exact .inr (.inr hrec)

section Areas
variable {k : Leg} {P : Pos → Prop}

theorem exists_pos_of_output {q : Pos} (hq : k.val / 8 = q.val) : (∃ p : Pos, k.val / 8 = p.val ∧ P p) ↔ P q := by
  simp [hq, ← Fin.ext_iff]

theorem no_pos_of_other (hk : 128 ≤ k.val) : ¬∃ p : Pos, k.val / 8 = p.val ∧ P p := by
  rintro ⟨p, hp, -⟩
  omega

theorem outputOf_iff {p : Pos} : outputOf p k = true ↔ k.val / 8 = p.val := by
  obtain ⟨q, hq, ⟨h, e⟩ | ⟨j, e⟩⟩ | ⟨l, e, hl⟩ | ⟨r, e, hr⟩ := legKind_areas k
  case inl.inl | inl.inr => simp [outputOf, e, hq, Fin.ext_iff]
  all_goals
    simp only [outputOf, e]
    exact ⟨nofun, fun hp => by omega⟩

end Areas

section Reach
variable {s : State} {k : Leg}

theorem State.reachLine_iff {l : Line} : s.reachLine l k = true ↔
    (∃ p : Pos, k.val / 8 = p.val ∧ ((s.row l).look p).mode ≠ .none) ∨ k.val = 128 + l.val ∨ 192 ≤ k.val := by
  obtain ⟨q, hq, hout⟩ | ⟨m, e, hm⟩ | ⟨r, e, hr⟩ := legKind_areas k
  case inl =>
    have hreach : s.reachLine l k = (((s.row l).look q).mode != .none) := by
      obtain ⟨h, e⟩ | ⟨j, e⟩ := hout <;> simp only [State.reachLine, e]
    have hsend : ¬(k.val = 128 + l.val ∨ 192 ≤ k.val) := by omega
    simp [hreach, exists_pos_of_output hq, hsend]
  case inr.inl =>
    have hline : k.val = 128 + l.val ∨ 192 ≤ k.val ↔ m = l := by rw [Fin.ext_iff]; omega
    simp [State.reachLine, e, no_pos_of_other (P := fun p => ((s.row l).look p).mode ≠ .none) (show 128 ≤ k.val by omega), hline]
  case inr.inr =>
    have hrec : 192 ≤ k.val := by omega
    simp [State.reachLine, e, hrec]

theorem State.reachGroup_iff {g : Grp} : s.reachGroup g k = true ↔
    (∃ p : Pos, k.val / 8 = p.val ∧ (s.group g).allow.look p = true)
      ∨ (∃ l ∈ (s.group g).attached, k.val = 128 + l.val) ∨ 192 ≤ k.val := by
  obtain ⟨q, hq, hout⟩ | ⟨m, e, hm⟩ | ⟨r, e, hr⟩ := legKind_areas k
  case inl =>
    have hreach : s.reachGroup g k = (s.group g).allow.look q := by
      obtain ⟨h, e⟩ | ⟨j, e⟩ := hout <;> simp only [State.reachGroup, e]
    have hsend : ¬((∃ l ∈ (s.group g).attached, k.val = 128 + l.val) ∨ 192 ≤ k.val) := by
      rintro (⟨l, -, hl⟩ | hrec) <;> omega
    simp only [hreach, exists_pos_of_output hq, hsend, or_false]
  case inr.inl =>
    have hline : (∃ l ∈ (s.group g).attached, k.val = 128 + l.val) ∨ 192 ≤ k.val ↔ m ∈ (s.group g).attached := by
      constructor
      · rintro (⟨l, hl, hk⟩ | hrec)
        · obtain rfl : m = l := Fin.ext (by omega)
          exact hl
        · omega
      · exact fun h => .inl ⟨m, h, hm⟩
    have hnot := no_pos_of_other (P := fun p => (s.group g).allow.look p = true) (show 128 ≤ k.val by omega)
    simp only [State.reachGroup, e, List.contains_iff_mem, hnot, false_or, hline]
  case inr.inr =>
    have hrec : 192 ≤ k.val := by omega
    simp [State.reachGroup, e, hrec]

theorem State.reachTap_iff {r : TapNo} : s.reachTap r k = true ↔ k.val = 192 + r.val
    ∨ ∃ c ∈ (s.tap r).coverage, k.val = 8 * c.pos.val + (match c.hs with | .A => 0 | .B => 1) := by
  have hear {c : Cover} (hk : k.val = 8 * c.pos.val + (match c.hs with | .A => 0 | .B => 1)) :
      legKind k = .ear c.pos c.hs := legKind_of_ear hk
  obtain ⟨p, h, e, hk⟩ | ⟨p, j, e, hk⟩ | ⟨l, e, hk⟩ | ⟨q, e, hk⟩ := legKind_cases k
  case inl =>
    have hrec : k.val ≠ 192 + r.val := fun hr => by simp [legKind_of_recorder hr] at e
    simp only [State.reachTap, e, List.any_eq_true, Bool.and_eq_true, beq_iff_eq, hrec, false_or]
    refine ⟨fun ⟨c, hc, hp, hh⟩ => ⟨c, hc, by subst hp hh; exact hk⟩, fun ⟨c, hc, hkc⟩ => ⟨c, hc, ?_⟩⟩
    have hsame := e.symm.trans (hear hkc)
    simp only [LegKind.ear.injEq] at hsame
    exact ⟨hsame.1.symm, hsame.2.symm⟩
  case inr.inr.inr =>
    have hnot : ¬∃ c ∈ (s.tap r).coverage, k.val = 8 * c.pos.val + (match c.hs with | .A => 0 | .B => 1) :=
      fun ⟨c, _, hkc⟩ => by simp [hear hkc] at e
    have hrec : k.val = 192 + r.val ↔ q = r := by rw [Fin.ext_iff]; omega
    simp only [State.reachTap, e, beq_iff_eq, hnot, or_false, hrec]
  all_goals
    simp only [State.reachTap, e, Bool.false_eq_true, false_iff, not_or, not_exists, not_and]
    exact ⟨fun hr => by simp [legKind_of_recorder hr] at e, fun c _ hkc => by simp [hear hkc] at e⟩

theorem LineRec.has_iff {r : LineRec} {p : Pos} : r.has p = true ↔ ∃ c ∈ r.connected, c.pos = p := by simp [LineRec.has]

theorem State.partOf_iff {p : Pos} {g : Grp} : s.partOf p g = true ↔
    (∃ m ∈ (s.group g).joined, m.1 = p) ∨ (∃ j, (s.pos p).assign.look j = .group g)
      ∨ (s.group g).floor.engaged p = true := by
  simp [State.partOf, toList_eq_map_look, or_assoc]

theorem TapRec.targets_iff {t : TapRec} {p : Pos} : t.targets p = true ↔ ∃ h, t.target = .handset p h := by
  cases ht : t.target <;> simp [TapRec.targets, ht]

theorem State.reachPosition_iff {p : Pos} : s.reachPosition p k = true ↔
    k.val / 8 = p.val ∨ (∃ e ∈ (s.leg k).list, e.src.val / 3 = p.val)
      ∨ (∃ l, (∃ c ∈ (s.line l).connected, c.pos = p) ∧ s.reachLine l k = true)
      ∨ (∃ g, ((∃ m ∈ (s.group g).joined, m.1 = p) ∨ (∃ j, (s.pos p).assign.look j = .group g)
          ∨ (s.group g).floor.engaged p = true) ∧ s.reachGroup g k = true)
      ∨ ∃ r h, k.val = 192 + r.val ∧ (s.tap r).target = .handset p h := by
  simp only [← TapRec.targets_iff, exists_and_left, ← legKind_recorder_iff, ← LineRec.has_iff, ← State.partOf_iff, ← outputOf_iff]
  simp only [State.reachPosition, Bool.or_eq_true, List.any_eq_true, List.mem_finRange, true_and, Bool.and_eq_true, sourceOf,
    beq_iff_eq, or_assoc]
  refine or_congr_right (or_congr_right (or_congr_right (or_congr_right ?_)))
  cases legKind k with
  | recorder r => simp
  | _ => simp

end Reach

end Sys2Proof.Machine
end

section
/-! CHANGE_NOTICE and DERIVATION_START (R99, R100). -/

namespace Sys2Proof.Machine

theorem exec_changeNotice_waiting {s : State} {q : Subject} {rest : List Subject}
    (h : takeFirst (· == q) s.chan.notices = some (q, rest)) :
    exec (.changeNotice q) s =
      .next { s with chan := { s.chan with notices := rest }, cmx := s.cmx.await (s.reach q) } := by
  simp only [exec, execChangeNotice, h]

theorem Cmx.lowest_eq_some {c : Cmx} {k : Leg} (hk : c.awaited.look k = true)
    (hfirst : ∀ j, j < k → c.awaited.look j = false) : c.lowest = some k := by
  rw [Cmx.lowest, ← Fin.find?_eq_find?_finRange, Fin.find?_eq_some_iff]
  exact ⟨hk, fun j hj => by simp [hfirst j hj]⟩

theorem exec_derivationStart_lowest {s : State} {k : Leg} (hidle : s.cmx.inProgress = none) (hk : s.cmx.lowest = some k) :
    exec .derivationStart s = .next { s with cmx := { s.cmx with
      awaited := s.cmx.awaited.put k false
      inProgress := some { leg := k, list := s.derivedList k, idle := s.idleOf k } } } := by
  simp only [exec, execDerivationStart, hidle, hk]

end Sys2Proof.Machine
end

section
/-! What a line send carries (R97, R111, R112). -/

namespace Sys2Proof.Machine

theorem State.idleOf_send {k : Leg} {l : Line} (hk : k.val = 128 + l.val) (s : State) :
    s.idleOf k = (s.line l).cfg.idleSample := by simp only [State.idleOf, legKind_of_send hk]

/-- Only a line send has an idle sample of its own. -/
theorem State.idleOf_other {k : Leg} (hk : k.val < 128 ∨ 192 ≤ k.val) (s : State) : s.idleOf k = 0 := by
  obtain ⟨p, h, e, -⟩ | ⟨p, j, e, -⟩ | ⟨l, -, hl⟩ | ⟨r, e, -⟩ := legKind_cases k
  case inr.inr.inl => omega
  all_goals simp only [State.idleOf, e]

@[simp] theorem Cats.entries_empty : Cats.entries {} = [] := rfl

section Sends
variable {s : State} {k : Leg} {l : Line}

theorem State.derivedList_of_dealers (hk : k.val = 128 + l.val)
    (hkind : (s.line l).cfg.kind = .ringdown ∨ (s.line l).cfg.kind = .automatic) :
    s.derivedList k = if (s.line l).state = .outgoing ∨ (s.line l).state = .connected then
        eachSourceOnce ((s.line l).connected.flatMap fun d => s.micEntry (s.line l).cfg.sendLevel.val d.pos d.hs)
      else [] := by
  rw [State.derivedList_of_send hk, State.sendCats_of_dealers hkind]
  split
  · simp only [Cats.entries, List.nil_append, List.append_nil]
  · rfl

theorem State.derivedList_of_quietSend (hk : k.val = 128 + l.val)
    (h : (s.line l).cfg.kind = .unused ∨ (s.line l).cfg.kind = .hoot ∧ (s.line l).state ≠ .attached) :
    s.derivedList k = [] := by
  rw [State.derivedList_of_send hk]
  obtain hkind | ⟨hkind, hstate⟩ := h
  · rw [State.sendCats_of_unused hkind]
    rfl
  · rw [State.sendCats_of_unattached hkind hstate]
    rfl

/-- The list of receives and of a floor with nobody left out (R112, R140). -/
theorem entries_of_floor (r : GroupRec) (receives : List MixEntry) (n : Nat) :
    Cats.entries { floorMics r n none with receives := receives } =
      eachSourceOnce (receives ++ if r.openMode then r.floor.talkers.flatMap fun i => entryOf (deskSource i.pos) n true
        else match r.floor.holder with
          | none => []
          | some i => entryOf (deskSource i.pos) n false) := by
  obtain ⟨htones, hside⟩ := floorMics_rest r n none
  simp only [Cats.entries, htones, hside, List.nil_append, List.append_nil, List.append_assoc, floorMics_all r n] <;> rfl

theorem State.derivedList_of_attached {g : Grp} (hk : k.val = 128 + l.val) (hkind : (s.line l).cfg.kind = .hoot)
    (hstate : (s.line l).state = .attached) (hg : (s.line l).hoot = some g) :
    s.derivedList k = eachSourceOnce
      ((((List.finRange 64).filter fun m => decide (m ∈ (s.group g).attached ∧ m ≠ l)).flatMap fun m =>
        entryOf (receiveSource m) (s.group g).talkLevel.val false)
      ++ if (s.group g).openMode then
          (s.group g).floor.talkers.flatMap fun i => entryOf (deskSource i.pos) (s.group g).talkLevel.val true
        else match (s.group g).floor.holder with
          | none => []
          | some i => entryOf (deskSource i.pos) (s.group g).talkLevel.val false) := by
  have hothers : (fun m => decide (m ∈ (s.group g).attached.filter fun k => k != l)) =
      fun m => decide (m ∈ (s.group g).attached ∧ m ≠ l) := by
    funext m
    simp [List.mem_filter]
  rw [State.derivedList_of_send hk, State.sendCats_of_attached hkind hstate hg, entries_of_floor, receiveEntries_eq, hothers]

end Sends

end Sys2Proof.Machine
end

section
/-! What a recorder leg carries (R113, R140). -/

namespace Sys2Proof.Machine

section Recorders
variable {s : State} {k : Leg} {n : TapNo}

theorem State.directionTaken_iff {t : TapRec} {l : Line} : s.directionTaken t l = true ↔
    ((s.line l).direction = some .incoming ∧ t.incoming = true)
      ∨ ((s.line l).direction = some .outgoing ∧ t.outgoing = true) := by
  cases hd : (s.line l).direction with
  | none => simp [State.directionTaken, hd]
  | some d => cases d <;> simp [State.directionTaken, hd, TapRec.takes]

theorem State.tapActive_of_line {t : TapRec} {l : Line} (ht : t.target = .line l) : s.tapActive t = true ↔
    ((s.line l).cfg.kind = .ringdown ∨ (s.line l).cfg.kind = .automatic)
      ∧ ((s.line l).state = .outgoing ∨ (s.line l).state = .connected) ∧ s.directionTaken t l = true := by
  simp [State.tapActive, ht, and_assoc]

theorem State.tapActive_of_group {t : TapRec} {g : Grp} (ht : t.target = .group g) :
    s.tapActive t = true ↔ (s.group g).kind = .hoot := by simp [State.tapActive, ht]

theorem State.derivedList_of_inactive (hk : k.val = 192 + n.val)
    (h : (s.tap n).enabled = false ∨ s.tapActive (s.tap n) = false) : s.derivedList k = [] := by
  rw [State.derivedList_of_recorder hk, State.tapCats_of_inactive h]
  rfl

theorem State.derivedList_of_lineTap {l : Line} (hk : k.val = 192 + n.val) (hon : (s.tap n).enabled = true)
    (ha : s.tapActive (s.tap n) = true) (ht : (s.tap n).target = .line l) :
    s.derivedList k = eachSourceOnce ((if (s.tap n).receive then entryOf (receiveSource l) 128 false else [])
      ++ if (s.tap n).send then (s.line l).connected.flatMap fun d => s.micEntry 128 d.pos d.hs else []) := by
  rw [State.derivedList_of_recorder hk, State.tapCats_of_line hon ha ht]
  simp only [Cats.entries, List.nil_append, List.append_nil]

theorem State.derivedList_of_groupTap {g : Grp} (hk : k.val = 192 + n.val) (hon : (s.tap n).enabled = true)
    (hhoot : (s.group g).kind = .hoot) (ht : (s.tap n).target = .group g) :
    s.derivedList k = eachSourceOnce
      ((if (s.tap n).receive then ((List.finRange 64).filter fun l => decide (l ∈ (s.group g).attached)).flatMap
        (fun l => entryOf (receiveSource l) 128 false) else [])
      ++ if (s.tap n).send = false then []
        else if (s.group g).openMode then (s.group g).floor.talkers.flatMap fun i => entryOf (deskSource i.pos) 128 true
        else match (s.group g).floor.holder with
          | none => []
          | some i => entryOf (deskSource i.pos) 128 false) := by
  rw [State.derivedList_of_recorder hk, State.tapCats_of_group hon ((State.tapActive_of_group ht).mpr hhoot) ht, ← receiveEntries_eq]
  cases hsend : (s.tap n).send with
  | true => simp only [if_true, Bool.true_eq_false, if_false, entries_of_floor]
  | false => simp only [Bool.false_eq_true, if_false, if_true, Cats.entries, List.nil_append, List.append_nil]

/-- A handset's ear without sidetone and tone, with its own microphone (R140). -/
theorem State.derivedList_of_handsetTap {p : Pos} {h : Handset} {tones receives principal others sidetone : List MixEntry}
    (hk : k.val = 192 + n.val) (hon : (s.tap n).enabled = true) (ha : s.tapActive (s.tap n) = true)
    (ht : (s.tap n).target = .handset p h)
    (hear : s.earCats p h = { tones := tones, receives := receives, principal := principal, others := others, sidetone := sidetone }) :
    s.derivedList k = eachSourceOnce ((if (s.tap n).receive then receives else [])
      ++ ((if (s.tap n).receive then principal else []) ++ if (s.tap n).send then s.micEntry 128 p h else [])
      ++ if (s.tap n).receive then others else []) := by
  rw [State.derivedList_of_recorder hk, State.tapCats_of_handset hon ha ht, hear]
  simp only [Cats.entries, List.nil_append, List.append_nil]

/-- Whether a handset target is active, by what the handset stands in (R140). -/
theorem State.tapActive_of_handset {t : TapRec} {p : Pos} {h : Handset} (ht : t.target = .handset p h) :
    s.tapActive t = match s.stance p h with
      | .none => false
      | .line l => s.directionTaken t l
      | .group _ | .active _ _ | .caller => true := by
  simp only [State.tapActive, ht]
  cases s.stance p h <;> rfl

end Recorders

end Sys2Proof.Machine
end

section
/-! The notices, the derivations, and what a line send and a recorder leg carry, as O35 says it. -/

namespace Sys2Proof.Machine

/-- Settles O35: the reach by leg numbers, then the lists of line sends and recorder legs by the state of their line or the target
of their tap. -/
theorem noticesAndDerivations : Obligations.NoticesAndDerivations := by
  refine ⟨fun s q rest h => ⟨_, exec_changeNotice_waiting h, fun k => Table.look_build _ k⟩,
    fun s k => ⟨fun j => ?legs, fun l => State.reachLine_iff, fun g => State.reachGroup_iff, fun r => State.reachTap_iff,
      fun p => State.reachPosition_iff, fun ls ps => ?bars⟩,
    fun s k hidle hk hfirst => exec_derivationStart_lowest hidle (Cmx.lowest_eq_some hk hfirst),
    fun s k l r hk hr => ?send, fun s k hk => State.idleOf_other hk s, fun s k n t takes hk hn htakes => ?recorder⟩
  case legs => rw [State.reach, beq_iff_eq, eq_comm]
  case bars => simp [State.reach]
  case send =>
    subst hr
    refine ⟨State.idleOf_send hk s, State.derivedList_of_dealers hk, State.derivedList_of_quietSend hk,
      fun g x hkind hstate hg hx => ?attached⟩
    subst hx
    exact State.derivedList_of_attached hk hkind hstate hg
  case recorder =>
    subst hn
    have htaken (l : Line) : takes l ↔ s.directionTaken (s.tap n) l = true := by rw [htakes, State.directionTaken_iff]
    refine ⟨fun h => ?idle, fun hon => ⟨fun l r active ht hr hactive => ?line, fun g x ht hx => ?group,
      fun p h own ht hown => ?handset⟩⟩
    case idle => exact State.derivedList_of_inactive hk (h.imp_right State.tapActive_of_none)
    case line =>
      subst hr
      have hiff : active ↔ s.tapActive (s.tap n) = true := by rw [hactive, State.tapActive_of_line ht, htaken]
      refine ⟨fun h => State.derivedList_of_inactive hk (.inr ?_), fun h => State.derivedList_of_lineTap hk hon (hiff.mp h) ht⟩
      rwa [hiff, Bool.not_eq_true] at h
    case group =>
      subst hx
      refine ⟨fun h => State.derivedList_of_inactive hk (.inr ?_), fun h => State.derivedList_of_groupTap hk hon h ht⟩
      rwa [Ne, ← State.tapActive_of_group ht, Bool.not_eq_true] at h
    case handset =>
      subst hown
      have hactive := State.tapActive_of_handset (s := s) ht
      refine ⟨fun l r hr hl hfirst => ?onLine, fun hline => ⟨fun g hg hfirst => ?inGroup, fun hgroup =>
        ⟨fun c q i voice hc hfirst => ?inCall, fun c q voice x hc hfirst => ?caller, fun hcall => ?nothing⟩⟩⟩
      case onLine =>
        subst hr
        have hs := State.stance_of_line (State.lineOf_eq_some hl hfirst)
        replace hactive : s.tapActive (s.tap n) = s.directionTaken (s.tap n) l := by rw [hactive, hs]
        refine ⟨fun h => State.derivedList_of_inactive hk (.inr ?_), fun h => ?_⟩
        · rwa [htaken, Bool.not_eq_true, ← hactive] at h
        · rw [State.derivedList_of_handsetTap hk hon (hactive.trans ((htaken l).mp h)) ht (State.earCats_of_line hs)]
          simp only [ite_self, List.nil_append, State.bridged]
      all_goals have hline := State.lineOf_eq_none.mpr hline
      case inGroup =>
        have hs := State.stance_of_group hline (State.groupOf_eq_some hg hfirst)
        rw [hs] at hactive
        rw [State.derivedList_of_handsetTap hk hon hactive ht (State.earCats_of_group hs)]
        simp only [ite_self, List.nil_append, State.fellows]
      all_goals have hgroup := State.groupOf_eq_none.mpr hgroup
      case inCall =>
        have hs := State.stance_of_call hline hgroup (CallRec.stance_of_active hc) hfirst
        rw [hs] at hactive
        rw [State.derivedList_of_handsetTap hk hon hactive ht (State.earCats_of_active hs)]
        simp only [ite_self, List.nil_append, List.append_nil]
      case caller =>
        have hs : s.stance p h = .caller := State.stance_of_call hline hgroup (by simp [hc, CallRec.stance]) hfirst
        rw [hs] at hactive
        rw [State.derivedList_of_handsetTap hk hon hactive ht (State.earCats_of_caller hs)]
        simp only [ite_self, List.nil_append, List.append_nil]
        split
        · exact s.eachSourceOnce_micEntry ..
        · rfl
      case nothing =>
        rw [State.stance_of_nothing hline hgroup hcall] at hactive
        exact State.derivedList_of_inactive hk (.inr hactive)

end Sys2Proof.Machine
end

section
/-! The tone generators run free (R125, R126): the power-on reset starts them, the audio frame moves them on, and no other command
moves them. -/

namespace Sys2Proof.Machine

/-- The frames of their cycles at which the ALERT and the ATTENTION generator stand. -/
def State.toneCounts (s : State) : Nat × Nat := (s.cmx.alertCount, s.cmx.attentionCount)

theorem State.alertCount_of_toneCounts {s t : State} (h : t.toneCounts = s.toneCounts) :
    t.cmx.alertCount = s.cmx.alertCount := congrArg Prod.fst h
theorem State.attentionCount_of_toneCounts {s t : State} (h : t.toneCounts = s.toneCounts) :
    t.cmx.attentionCount = s.cmx.attentionCount := congrArg Prod.snd h

theorem State.toneCounts_of_mixer {s t : State} (h : t.mixer = s.mixer) : t.toneCounts = s.toneCounts := by
  simp only [State.toneCounts, State.cmx_of_mixer h]

/-! ### The operations -/

@[simp] theorem State.emit_toneCounts (s : State) (o : Sends) : (s.emit o).toneCounts = s.toneCounts := rfl
@[simp] theorem State.setChan_toneCounts (s : State) (c : Chan) : (s.setChan c).toneCounts = s.toneCounts := rfl
@[simp] theorem State.setLeg_toneCounts (s : State) (k : Leg) (r : LegRec) : (s.setLeg k r).toneCounts = s.toneCounts := rfl
@[simp] theorem State.setTap_toneCounts (s : State) (r : TapNo) (t : TapRec) : (s.setTap r t).toneCounts = s.toneCounts := rfl
@[simp] theorem State.setReset_toneCounts (s : State) (r : Option ResetProgress) : (s.setReset r).toneCounts = s.toneCounts := rfl
@[simp] theorem State.answer_toneCounts (s : State) (r : Requester) (c : Code) (b : List Byte) :
    (s.answer r c b).toneCounts = s.toneCounts := State.toneCounts_of_mixer (State.answer_mixer ..)
@[simp] theorem State.answerLcu_toneCounts (s : State) (p : Pos) (h : Handset) (granted : Bool) :
    (s.answerLcu p h granted).toneCounts = s.toneCounts := rfl
@[simp] theorem State.lockTo_toneCounts (s : State) (n : Port) (r : TapNo) (l : Lock) :
    (s.lockTo n r l).toneCounts = s.toneCounts := State.answer_toneCounts ..
@[simp] theorem State.moveFaults_toneCounts (s : State) (r : TapNo) (cs : List Cover) (on quiet : Bool) :
    (s.moveFaults r cs on quiet).toneCounts = s.toneCounts := by
  obtain ⟨f, c, e⟩ := s.moveFaults_frame r cs on quiet
  rw [e]
  rfl

theorem State.dispatchIf_toneCounts {k : ReqKind} {n : Port} {ok : List Byte → Bool} {own : List Byte → State → State}
    (h : ∀ b t, (own b t).toneCounts = t.toneCounts) (s : State) : (s.dispatchIf k n ok own).toneCounts = s.toneCounts :=
  State.dispatchIf_keeps State.toneCounts (fun _ _ _ => rfl) State.answer_toneCounts h s

theorem State.tapRequest_toneCounts {k : ReqKind} {n : Port} {own : TapNo → List Byte → State → State}
    (h : ∀ r b t, (own r b t).toneCounts = t.toneCounts) (s : State) : (s.tapRequest k n own).toneCounts = s.toneCounts := by
  refine State.dispatchIf_toneCounts (fun b t => ?_) s
  split
  · exact State.answer_toneCounts ..
  · exact h _ b t

/-! ### What CMX and RTU do with one thing -/

@[simp] theorem State.install_toneCounts (s : State) (d : Derivation) : (s.install d).toneCounts = s.toneCounts := by
  rw [State.install_eq]
  rfl

@[simp] theorem State.completeReset_toneCounts (s : State) : s.completeReset.toneCounts = s.toneCounts := by
  have h : s.lcuComplete.toneCounts = s.toneCounts := State.toneCounts_of_mixer s.lcuComplete_mixer
  unfold State.completeReset
  rw [State.answer_toneCounts]
  exact h

@[simp] theorem State.reserve_toneCounts (s : State) (p : Pos) (h : Handset) (l : Line) (d : Direction) :
    (s.reserve p h l d).toneCounts = s.toneCounts := by
  simp only [State.reserve]
  repeat' split
  all_goals simp

@[simp] theorem State.releaseCover_toneCounts (s : State) (c : Cover) (ofReset : Bool) :
    (s.releaseCover c ofReset).toneCounts = s.toneCounts := by
  unfold State.releaseCover
  split <;> simp

@[simp] theorem State.recorderChange_toneCounts (s : State) (r : TapNo) (present : Bool) :
    (s.recorderChange r present).toneCounts = s.toneCounts := by
  simp only [State.recorderChange]
  split <;> simp

@[simp] theorem State.tapSet_toneCounts (s : State) (n : Port) (r : TapNo) (b : List Byte) :
    (s.tapSet n r b).toneCounts = s.toneCounts := by
  unfold State.tapSet
  repeat' split
  all_goals simp

/-! ### Every command -/

theorem exec_toneCounts {c : Instr} (hreset : ∀ far present, c ≠ .powerOnReset far present)
    (hframe : ∀ mics receives, c ≠ .audioFrame mics receives) (s : State) :
    ∃ t, exec c s = .next t ∧ t.toneCounts = s.toneCounts := by
  by_cases hc : Instr.movesMixer c = false
  · obtain ⟨t, ht, hmixer⟩ := exec_mixer hc s
    exact ⟨t, ht, State.toneCounts_of_mixer hmixer⟩
  cases c with
  | powerOnReset far present => exact absurd rfl (hreset far present)
  | audioFrame mics receives => exact absurd rfl (hframe mics receives)
  | changeNotice | derivationStart =>
    simp only [exec, execChangeNotice, execDerivationStart]
    split
    all_goals exact ⟨_, rfl, rfl⟩
  | listInstall | softResetCompletion | coverageReservation | coverageRelease | recorderPresentChange =>
    simp only [exec, execListInstall, execSoftResetCompletion, execCoverageReservation, execCoverageRelease,
      execRecorderPresentChange]
    repeat' split
    all_goals exact ⟨_, rfl, by simp⟩
  | softResetAtCmx =>
    refine ⟨_, rfl, ?_⟩
    unfold State.ownerReset
    repeat' split
    all_goals rfl
  | legLevel | queryLeg | detectorConfig =>
    refine ⟨_, rfl, State.dispatchIf_toneCounts (fun b t => ?_) s⟩
    repeat' split
    all_goals exact State.answer_toneCounts ..
  | tapSet n => exact ⟨_, rfl, State.tapRequest_toneCounts (fun r b t => t.tapSet_toneCounts n r b) s⟩
  | tapDisable | tapLock | tapUnlock | tapFix =>
    refine ⟨_, rfl, State.tapRequest_toneCounts (fun r b t => ?_) s⟩
    repeat' split
    all_goals simp
  | tapEnable n =>
    refine ⟨_, rfl, State.tapRequest_toneCounts (fun r b t => ?_) s⟩
    dsimp only
    repeat' split
    all_goals simp
  | _ => exact absurd rfl hc

theorem exec_audioFrame (mics : Vector Sample 48) (receives : Vector Sample 64) (s : State) :
    exec (.audioFrame mics receives) s = .next (s.frame mics receives) := rfl

/-! ### The samples of a cycle -/

/-- The ALERT tone at the frames of the first half of a run of 32, of its second half, and after the 3,200th (R125). -/
theorem alertSample_high {n run place : Nat} (h : n = 32 * run + place) (hn : n < 3200) (hp : place < 16) :
    alertSample n = 8192 := by
  rw [alertSample, if_pos hn, if_pos (by omega)]
theorem alertSample_low {n run place : Nat} (h : n = 32 * run + 16 + place) (hn : n < 3200) (hp : place < 16) :
    alertSample n = -8192 := by
  rw [alertSample, if_pos hn, if_neg (by omega)]
theorem alertSample_off {n : Nat} (hn : 3200 ≤ n) : alertSample n = 0 := if_neg (by omega)

/-- The ATTENTION tone at the frames of the first half of a run of 16, of its second half, and after the 1,600th (R126). -/
theorem attentionSample_high {n run place : Nat} (h : n = 16 * run + place) (hn : n < 1600) (hp : place < 8) :
    attentionSample n = 4096 := by
  rw [attentionSample, if_pos hn, if_pos (by omega)]
theorem attentionSample_low {n run place : Nat} (h : n = 16 * run + 8 + place) (hn : n < 1600) (hp : place < 8) :
    attentionSample n = -4096 := by
  rw [attentionSample, if_pos hn, if_neg (by omega)]
theorem attentionSample_off {n : Nat} (hn : 1600 ≤ n) : attentionSample n = 0 := if_neg (by omega)

section Samples
variable (s : State) (mics : Vector Sample 48) (receives : Vector Sample 64)

@[simp] theorem State.sampleOf_alert : s.sampleOf mics receives 112 = alertSample s.cmx.alertCount := rfl
@[simp] theorem State.sampleOf_attention : s.sampleOf mics receives 113 = attentionSample s.cmx.attentionCount := rfl

end Samples

/-- Settles O39: `exec_toneCounts` for the other commands, and the three parts of the cycle. -/
theorem alertToneRunsFree : Obligations.AlertToneRunsFree := by
  refine ⟨fun s far present => ⟨_, rfl, rfl⟩, fun s mics receives => ⟨_, exec_audioFrame mics receives s, rfl⟩,
    fun c s hreset hframe => ?others, fun s mics receives n run place hn => ?samples⟩
  case others =>
    obtain ⟨t, ht, hcounts⟩ := exec_toneCounts hreset hframe s
    exact ⟨t, ht, State.alertCount_of_toneCounts hcounts⟩
  case samples =>
    rw [State.sampleOf_alert, ← hn]
    exact ⟨alertSample_high, alertSample_low, alertSample_off⟩

/-- An entry that a list may hold is gated only if its source is a microphone (R114). -/
theorem State.Admits.not_gated {s : State} {e : MixEntry} (h : s.Admits e) (hsrc : 48 ≤ e.src.val) : e.gated = false := by
  by_contra hg
  obtain ⟨-, p, hp, -⟩ := h.talker (by simpa using hg)
  have hdesk := congrArg Fin.val hp
  rw [deskSource_val] at hdesk
  omega

/-- Settles O40: as O39, and a gated entry is a desk microphone's. -/
theorem attentionToneRunsFree : Obligations.AttentionToneRunsFree := by
  refine ⟨fun s far present => ⟨_, rfl, rfl⟩, fun s mics receives => ⟨_, exec_audioFrame mics receives s, rfl⟩,
    fun c s hreset hframe => ?others, fun s mics receives n run place hn => ?samples,
    fun s k e he htone => (State.derivedList_admits he).not_gated (by omega)⟩
  case others =>
    obtain ⟨t, ht, hcounts⟩ := exec_toneCounts hreset hframe s
    exact ⟨t, ht, State.attentionCount_of_toneCounts hcounts⟩
  case samples =>
    rw [State.sampleOf_attention, ← hn]
    exact ⟨attentionSample_high, attentionSample_low, attentionSample_off⟩

end Sys2Proof.Machine
end

section
/-! One audio frame on the legs (R119 to R122). -/

namespace Sys2Proof.Machine

/-! ### What a frame does to each record -/

section Frame
variable (s : State) (mics : Vector Sample 48) (receives : Vector Sample 64)

theorem State.frame_leg (k : Leg) : (s.frame mics receives).leg k =
    (s.leg k).frame (s.sampleOf mics receives) (activeIn (s.frame mics receives).cmx.detectors) := Table.look_build ..

theorem State.frame_detector (i : Fin 112) : (s.frame mics receives).cmx.detectors.look i =
    (s.cmx.detectors.look i).frame (s.cmx.setOf i) (s.sampleOf mics receives ⟨i.val, by omega⟩) := Table.look_build ..

theorem State.sampleOf_mic (i : Fin 48) : s.sampleOf mics receives ⟨i.val, by omega⟩ = (mics.get i).toInt := dif_pos i.isLt

theorem State.sampleOf_receive (l : Line) :
    s.sampleOf mics receives ⟨48 + l.val, by omega⟩ = (receives.get l).toInt := by
  have hl := l.isLt
  simp only [State.sampleOf]
  rw [dif_neg (by omega), dif_pos (by omega)]
  exact congrArg (fun m => (receives.get m).toInt) (Fin.ext (Nat.add_sub_cancel_left ..))

end Frame

/-! ### Terms and sums (R120) -/

/-- Whether the source with detector `i` counts as active (R127). -/
theorem activeIn_of_val {d : Table 112 Detector} {x : Src} {i : Fin 112} (h : x.val = i.val) :
    activeIn d x = ((d.look i).state != .quiet) := by
  have hx : x.val < 112 := h ▸ i.isLt
  obtain rfl : ⟨x.val, hx⟩ = i := Fin.ext h
  exact dif_pos hx

theorem activeIn_eq_false_iff {d : Table 112 Detector} {x : Src} :
    activeIn d x = false ↔ ∃ i : Fin 112, i.val = x.val ∧ (d.look i).state = .quiet := by
  constructor
  · intro h
    by_cases hx : x.val < 112
    · exact ⟨⟨x.val, hx⟩, rfl, by simpa [activeIn, hx, Detector.isActive] using h⟩
    · simp [activeIn, hx] at h
  · rintro ⟨i, hi, hquiet⟩
    rw [activeIn_of_val hi.symm, hquiet]
    rfl

theorem MixEntry.term_eq (e : MixEntry) (sample : Src → Int) (d : Table 112 Detector) :
    e.term sample (activeIn d) =
      if e.gated = true ∧ ∃ i : Fin 112, i.val = e.src.val ∧ (d.look i).state = .quiet then 0
      else (sample e.src * e.level.val + 64) / 128 := by
  simp only [MixEntry.term, scale, Bool.and_eq_true, Bool.not_eq_true', activeIn_eq_false_iff]

/-- One term of a sample in the sample range, at the greatest level. -/
theorem MixEntry.term_natAbs_le (e : MixEntry) {sample : Src → Int} (active : Src → Bool)
    (h : ∀ x, -32768 ≤ sample x ∧ sample x ≤ 32767) : (e.term sample active).natAbs ≤ 65281 := by
  obtain ⟨hlow, hhigh⟩ := h e.src
  have hlevel := e.level.isLt
  have hproduct : (sample e.src * e.level.val).natAbs ≤ 32768 * 255 := by
    rw [Int.natAbs_mul]
    exact Nat.mul_le_mul (by omega) (by omega)
  unfold MixEntry.term scale
  split <;> omega

theorem mixSum_natAbs_le (l : List MixEntry) {sample : Src → Int} (active : Src → Bool)
    (h : ∀ x, -32768 ≤ sample x ∧ sample x ≤ 32767) : (mixSum l sample active).natAbs ≤ 65281 * l.length := by
  induction l with
  | nil => simp [mixSum]
  | cons e l ih =>
    have hterm := e.term_natAbs_le active h
    have hsum : mixSum (e :: l) sample active = e.term sample active + mixSum l sample active := by simp [mixSum]
    rw [hsum, List.length_cons]
    omega

/-! ### The output of a leg (R121, R122) -/

section Output
variable {r : LegRec} {sample : Src → Int} {active : Src → Bool} {y : Int}

theorem LegRec.frame_of_empty (h : r.list = []) : r.frame sample active = { r with out := r.idle } := if_pos h

theorem LegRec.frame_of_list (h : r.list ≠ []) (hy : y = (mixSum r.list sample active * r.level.val + 64) / 128) :
    r.frame sample active = { r with
      out := BitVec.ofInt 16 (limited y), clip := if limited y = y then r.clip else min 65535 (r.clip + 1) } := by
  rw [hy]
  exact if_neg h

theorem limited_of_mem (hlow : -32768 ≤ y) (hhigh : y ≤ 32767) : limited y = y := by
  rw [limited, if_neg (by omega), if_neg (by omega)]
theorem limited_of_above (h : 32767 < y) : limited y = 32767 := if_pos h
theorem limited_of_below (h : y < -32768) : limited y = -32768 := by
  rw [limited, if_neg (by omega), if_pos h]

/-- The leg by where the scaled sum stands: in the sample range, above it, below it. -/
theorem LegRec.frame_cases (h : r.list ≠ []) (hy : y = (mixSum r.list sample active * r.level.val + 64) / 128) :
    (-32768 ≤ y → y ≤ 32767 → r.frame sample active = { r with out := BitVec.ofInt 16 y })
      ∧ (32767 < y → r.frame sample active = { r with out := 0x7FFF#16, clip := min 65535 (r.clip + 1) })
      ∧ (y < -32768 → r.frame sample active = { r with out := 0x8000#16, clip := min 65535 (r.clip + 1) }) := by
  rw [LegRec.frame_of_list h hy]
  refine ⟨fun hlow hhigh => ?_, fun habove => ?_, fun hbelow => ?_⟩
  · rw [limited_of_mem hlow hhigh, if_pos rfl]
  · rw [limited_of_above habove, if_neg (by omega)]
    rfl
  · rw [limited_of_below hbelow, if_neg (by omega)]
    rfl

end Output

/-- Settles O41: each leg by its list and by where its scaled sum stands, and sixteen terms at most. -/
theorem legsOfOneFrame : Obligations.LegsOfOneFrame := by
  refine ⟨fun s mics receives => ⟨_, exec_audioFrame mics receives s, rfl, rfl, s.sampleOf_mic mics receives,
    s.sampleOf_receive mics receives, fun k => ?leg⟩, fun l sample active hl h => ?bound⟩
  case leg =>
    rw [State.frame_leg]
    refine ⟨LegRec.frame_of_empty, fun terms y hlist hterms hy => LegRec.frame_cases hlist ?_⟩
    simp only [mixSum, MixEntry.term_eq]
    rw [hy, hterms]
  case bound =>
    have hsum := mixSum_natAbs_le l active h
    omega

end Sys2Proof.Machine
end

section
/-! One audio frame on the detectors, and the reports of their changes (R127, R128, R130). -/

namespace Sys2Proof.Machine

/-! ### The envelope (R127) -/

theorem envelopeAfter_rise {e a up : Nat} (h : e < a) (hlow : 8 * up < a - e + 8) (hhigh : a - e ≤ 8 * up) :
    envelopeAfter e a = e + up ∧ envelopeAfter e a ≤ a := by
  have hup : (a - e + 7) / 8 = up := by omega
  rw [envelopeAfter, if_pos h, hup]
  omega

theorem envelopeAfter_fall {e a fall : Nat} (h : a < e) (hlow : 256 * fall ≤ e - a) (hhigh : e - a < 256 * (fall + 1)) :
    envelopeAfter e a = e - max 1 fall ∧ a ≤ envelopeAfter e a := by
  have hfall : (e - a) / 256 = fall := by omega
  rw [envelopeAfter, if_neg (by omega), if_pos h, hfall]
  omega

theorem envelopeAfter_rest (e : Nat) : envelopeAfter e e = e := by simp [envelopeAfter]

/-! ### The state and the hang counter (R128) -/

section Settle
variable {d : Detector} {c : DetectorSet}

@[simp] theorem Detector.settle_envelope : (d.settle c).envelope = d.envelope := by
  unfold Detector.settle
  repeat' split
  all_goals rfl

theorem Detector.settle_of_quiet (h : d.state = .quiet) :
    d.settle c = if c.on ≤ d.envelope then { d with state := .active } else d := by
  simp only [Detector.settle, h]

theorem Detector.settle_of_active (h : d.state = .active) :
    d.settle c = if d.envelope < c.off then { d with state := .hanging, hang := c.hang.val * 64 } else d := by
  simp only [Detector.settle, h]

theorem Detector.settle_of_hanging (h : d.state = .hanging) :
    d.settle c = if c.on ≤ d.envelope then { d with state := .active }
      else if d.hang ≤ 1 then { d with state := .quiet, hang := 0 } else { d with hang := d.hang - 1 } := by
  simp only [Detector.settle, h]

end Settle

/-- A detector's state and hang counter after its envelope, by the state that it was in. -/
theorem Detector.settle_cases (d : Detector) (c : DetectorSet) :
    (d.state = .quiet → c.on ≤ (d.settle c).envelope → (d.settle c).state = .active ∧ (d.settle c).hang = d.hang)
      ∧ (d.state = .quiet → (d.settle c).envelope < c.on → (d.settle c).state = .quiet ∧ (d.settle c).hang = d.hang)
      ∧ (d.state = .active → (d.settle c).envelope < c.off →
        (d.settle c).state = .hanging ∧ (d.settle c).hang = c.hang.val * 64)
      ∧ (d.state = .active → c.off ≤ (d.settle c).envelope → (d.settle c).state = .active ∧ (d.settle c).hang = d.hang)
      ∧ (d.state = .hanging → c.on ≤ (d.settle c).envelope → (d.settle c).state = .active ∧ (d.settle c).hang = d.hang)
      ∧ (d.state = .hanging → (d.settle c).envelope < c.on → d.hang ≤ 1 →
        (d.settle c).state = .quiet ∧ (d.settle c).hang = 0)
      ∧ (d.state = .hanging → (d.settle c).envelope < c.on → 1 < d.hang →
        (d.settle c).state = .hanging ∧ (d.settle c).hang = d.hang - 1) := by
  rw [Detector.settle_envelope]
  refine ⟨fun h hon => ?_, fun h hon => ?_, fun h hoff => ?_, fun h hoff => ?_, fun h hon => ?_, fun h hon hlast => ?_,
    fun h hon hmore => ?_⟩
  · rw [Detector.settle_of_quiet h, if_pos hon]
    exact ⟨rfl, rfl⟩
  · rw [Detector.settle_of_quiet h, if_neg (by omega)]
    exact ⟨h, rfl⟩
  · rw [Detector.settle_of_active h, if_pos hoff]
    exact ⟨rfl, rfl⟩
  · rw [Detector.settle_of_active h, if_neg (by omega)]
    exact ⟨h, rfl⟩
  · rw [Detector.settle_of_hanging h, if_pos hon]
    exact ⟨rfl, rfl⟩
  · rw [Detector.settle_of_hanging h, if_neg (by omega), if_pos hlast]
    exact ⟨rfl, rfl⟩
  · rw [Detector.settle_of_hanging h, if_neg (by omega), if_neg (by omega)]
    exact ⟨h, rfl⟩

/-! ### Reports (R130) -/

/-- The reports of the changes between QUIET and active among some numbered sources. -/
def changes {n : Nat} (src : Fin n → Src) (old new : Table 112 Detector) : List (Fin n × Bool) :=
  (List.finRange n).filterMap fun l =>
    if activeIn old (src l) == activeIn new (src l) then none else some (l, activeIn new (src l))

theorem State.frame_chan (s : State) (mics : Vector Sample 48) (receives : Vector Sample 64) :
    (s.frame mics receives).chan = { s.chan with
      talk := s.chan.talk ++ changes receiveSource s.cmx.detectors (s.frame mics receives).cmx.detectors
      vox := s.chan.vox ++ changes deskSource s.cmx.detectors (s.frame mics receives).cmx.detectors } := rfl

section Changes
variable {n : Nat} {src : Fin n → Src} {old new : Table 112 Detector}

theorem mem_changes {l : Fin n} {on : Bool} :
    (l, on) ∈ changes src old new ↔ activeIn old (src l) = !on ∧ activeIn new (src l) = on := by
  simp only [changes, List.mem_filterMap, List.mem_finRange, true_and, Option.ite_none_left_eq_some, Option.some.injEq,
    Prod.mk.injEq]
  constructor
  · rintro ⟨m, hne, rfl, rfl⟩
    exact ⟨by simpa [← Bool.eq_not] using hne, rfl⟩
  · rintro ⟨hold, hnew⟩
    exact ⟨l, by simp [hold, hnew], rfl, hnew⟩

/-- One report for each at most, in the order of their numbers. -/
theorem changes_increasing : ((changes src old new).map Prod.fst).Pairwise (· < ·) := by
  rw [List.pairwise_map, changes, List.pairwise_filterMap]
  refine (List.pairwise_lt_finRange n).imp fun {l m} hlt a ha b hb => ?_
  obtain ⟨-, ha⟩ := Option.ite_none_left_eq_some.mp ha
  obtain ⟨-, hb⟩ := Option.ite_none_left_eq_some.mp hb
  cases ha
  cases hb
  exact hlt

end Changes

/-- Settles O42: each detector by its envelope and by its state, then the reports of lines and of desk microphones. -/
theorem detectorsFollowTheirSources : Obligations.DetectorsFollowTheirSources := by
  intro s mics receives
  refine ⟨_, exec_audioFrame mics receives s, fun i d e a c hd he ha hc => ?detector, _, _, s.frame_chan mics receives,
    changes_increasing, changes_increasing, fun l on => ?line, fun p on => ?mouth⟩
  case detector =>
    have hframe : e = d.frame c (s.sampleOf mics receives ⟨i.val, by omega⟩) := by
      rw [he, State.frame_detector, hd, hc]
      rfl
    have henvelope : e.envelope = envelopeAfter d.envelope a := by
      rw [hframe, Detector.frame, Detector.settle_envelope, ha]
      rfl
    refine ⟨fun up => ?_, fun fall => ?_, fun h => ?_, ?states⟩
    · rw [henvelope]
      exact envelopeAfter_rise
    · rw [henvelope]
      exact envelopeAfter_fall
    · rw [henvelope, h, envelopeAfter_rest]
    case states =>
      subst hframe
      exact Detector.settle_cases { d with envelope := envelopeAfter d.envelope (magnitude _) } c
  case line =>
    simp only [mem_changes, activeIn_of_val (x := receiveSource l) (i := ⟨48 + l.val, by omega⟩) rfl]
  case mouth =>
    simp only [mem_changes, activeIn_of_val (i := ⟨3 * p.val + 2, by omega⟩) (deskSource_val p)]

end Sys2Proof.Machine
end

section
/-! The requests of the mixer (R123, R124, R129, R131). -/

namespace Sys2Proof.Machine

section Requests
variable {s : State} {n : Port} {f : Frame}

/-! ### LEG_LEVEL (R123) -/

theorem exec_legLevel_of_leg {k : Leg} (hf : s.Offers n .legLevel f) (hk : numOf 208 (byteAt f.body 0) = some k) :
    exec (.legLevel n) s = .next (((s.takeFrame n f).setLeg k
      { s.leg k with level := (byteAt f.body 1).toFin }).answer (.port n) .accepted) := by
  refine congrArg Host.Outcome.next ((State.dispatch_of_offers hf _).trans ?_)
  rw [hk]
  rfl

theorem exec_legLevel_bad (hf : s.Offers n .legLevel f) (hk : numOf 208 (byteAt f.body 0) = none) :
    exec (.legLevel n) s = .next ((s.takeFrame n f).answer (.port n) .badValue) := by
  refine congrArg Host.Outcome.next ((State.dispatch_of_offers hf _).trans ?_)
  rw [hk]

/-! ### QUERY_LEG (R124) -/

theorem exec_queryLeg_leg {k : Leg} (hf : s.Offers n .queryLeg f) (hpart : byteAt f.body 0 = 0)
    (hk : numOf 208 (byteAt f.body 1) = some k) :
    exec (.queryLeg n) s = .next (((s.takeFrame n f).setLeg k { s.leg k with clip := 0 }).answer (.port n) .accepted
      (s.legBody k)) := by
  refine congrArg Host.Outcome.next ((State.dispatch_of_offers hf _).trans ?_)
  rw [if_pos hpart, hk]
  rfl

theorem exec_queryLeg_sets (hf : s.Offers n .queryLeg f) (hpart : byteAt f.body 0 = 1) :
    exec (.queryLeg n) s = .next ((s.takeFrame n f).answer (.port n) .accepted s.cmx.setBody) := by
  refine congrArg Host.Outcome.next ((State.dispatch_of_offers hf _).trans ?_)
  rw [if_neg (by simp [hpart]), if_pos hpart]
  rfl

theorem exec_queryLeg_bad_leg (hf : s.Offers n .queryLeg f) (hpart : byteAt f.body 0 = 0)
    (hk : numOf 208 (byteAt f.body 1) = none) :
    exec (.queryLeg n) s = .next ((s.takeFrame n f).answer (.port n) .badValue) := by
  refine congrArg Host.Outcome.next ((State.dispatch_of_offers hf _).trans ?_)
  rw [if_pos hpart, hk]

theorem exec_queryLeg_bad_part (hf : s.Offers n .queryLeg f) (hpart : 2 ≤ (byteAt f.body 0).toNat) :
    exec (.queryLeg n) s = .next ((s.takeFrame n f).answer (.port n) .badValue) := by
  refine congrArg Host.Outcome.next ((State.dispatch_of_offers hf _).trans ?_)
  rw [if_neg (by bv_omega), if_neg (by bv_omega)]

/-! ### DETECTOR_CONFIG (R129) -/

/-- The set that a body carries, where both of its thresholds are in range. -/
theorem detectorSetOf_of_le {b : List Byte} {on off : Nat} (hon : on = (byteAt b 1 ++ byteAt b 2).toNat)
    (hoff : off = (byteAt b 3 ++ byteAt b 4).toNat) (h1 : on ≤ 32767) (h2 : off ≤ 32767) :
    detectorSetOf b = some { on := on, off := if on < off then on else off, hang := (byteAt b 5).toFin } := by
  have hmin : min on off = if on < off then on else off := by
    split <;> omega
  rw [← hmin]
  subst hon hoff
  exact if_neg (by simp only [wordOf]; omega)

theorem detectorSetOf_of_lt {b : List Byte} {on off : Nat} (hon : on = (byteAt b 1 ++ byteAt b 2).toNat)
    (hoff : off = (byteAt b 3 ++ byteAt b 4).toNat) (h : 32767 < on ∨ 32767 < off) : detectorSetOf b = none := by
  subst hon hoff
  exact if_pos h

section Config
variable {c : DetectorSet} (hf : s.Offers n .detectorConfig f)
include hf

theorem exec_detectorConfig_mics (hc : detectorSetOf f.body = some c) (hset : byteAt f.body 0 = 0) :
    exec (.detectorConfig n) s = .next
      (State.answer { s.takeFrame n f with cmx := { s.cmx with micSet := c } } (.port n) .accepted) := by
  refine congrArg Host.Outcome.next ((State.dispatch_of_offers hf _).trans ?_)
  rw [hc]
  exact if_pos hset

theorem exec_detectorConfig_lines (hc : detectorSetOf f.body = some c) (hset : byteAt f.body 0 = 1) :
    exec (.detectorConfig n) s = .next
      (State.answer { s.takeFrame n f with cmx := { s.cmx with lineSet := c } } (.port n) .accepted) := by
  refine congrArg Host.Outcome.next ((State.dispatch_of_offers hf _).trans ?_)
  rw [hc]
  exact (if_neg (by simp [hset])).trans (if_pos hset)

theorem exec_detectorConfig_bad (h : detectorSetOf f.body = none ∨ 2 ≤ (byteAt f.body 0).toNat) :
    exec (.detectorConfig n) s = .next ((s.takeFrame n f).answer (.port n) .badValue) := by
  refine congrArg Host.Outcome.next ((State.dispatch_of_offers hf _).trans ?_)
  split
  · rfl
  · next c hc =>
    have hset : 2 ≤ (byteAt f.body 0).toNat := h.resolve_left (by simp [hc])
    rw [if_neg (by bv_omega), if_neg (by bv_omega)]

end Config

/-! ### QUERY_SOURCE (R131) -/

theorem exec_querySource_of_source {i : Fin 112} (hf : s.Offers n .querySource f) (hi : numOf 112 (byteAt f.body 0) = some i) :
    exec (.querySource n) s = .next ((s.takeFrame n f).answer (.port n) .accepted (s.cmx.sourceBody i)) := by
  refine congrArg Host.Outcome.next ((State.dispatch_of_offers hf _).trans ?_)
  rw [hi]
  rfl

theorem exec_querySource_bad (hf : s.Offers n .querySource f) (hi : numOf 112 (byteAt f.body 0) = none) :
    exec (.querySource n) s = .next ((s.takeFrame n f).answer (.port n) .badValue) := by
  refine congrArg Host.Outcome.next ((State.dispatch_of_offers hf _).trans ?_)
  rw [hi]

theorem Cmx.sourceBody_eq (c : Cmx) (i : Fin 112) : c.sourceBody i =
    [byteOf i.val, if i.val < 48 then (0 : Byte) else 1] ++ twoBytes (BitVec.ofNat 16 (c.detectors.look i).envelope)
      ++ [(c.detectors.look i).state.byte] ++ twoBytes (BitVec.ofNat 16 (c.detectors.look i).hang) := by
  have hkind : onByte (decide (48 ≤ i.val)) = if i.val < 48 then (0 : Byte) else 1 := by
    by_cases h : i.val < 48
    · rw [if_pos h, decide_eq_false (by omega)]
      rfl
    · rw [if_neg h, decide_eq_true (by omega)]
      rfl
  simp only [Cmx.sourceBody, hkind, wordBytes]

end Requests

/-- Settles O43: each request by its operands. -/
theorem mixerRequests : Obligations.MixerRequests := by
  intro s n f
  refine ⟨fun hf => ⟨fun k => exec_legLevel_of_leg hf, exec_legLevel_bad hf⟩, fun hf => ⟨fun k r hpart hk hr => ?leg,
    exec_queryLeg_sets hf, ?badLeg⟩, fun hf on off c hon hoff hc => ⟨fun h1 h2 => ?mics, fun h1 h2 => ?lines, ?badConfig⟩,
    fun hf => ⟨fun i d hi hd => ?source, exec_querySource_bad hf⟩⟩
  case leg =>
    subst hr
    exact exec_queryLeg_leg hf hpart hk
  case badLeg =>
    rintro (hpart | ⟨hpart, hk⟩)
    · exact exec_queryLeg_bad_part hf hpart
    · exact exec_queryLeg_bad_leg hf hpart hk
  case mics =>
    subst hc
    exact exec_detectorConfig_mics hf (detectorSetOf_of_le hon hoff h1 h2)
  case lines =>
    subst hc
    exact exec_detectorConfig_lines hf (detectorSetOf_of_le hon hoff h1 h2)
  case badConfig =>
    rintro (h | h | hset)
    · exact exec_detectorConfig_bad hf (.inl (detectorSetOf_of_lt hon hoff (.inl h)))
    · exact exec_detectorConfig_bad hf (.inl (detectorSetOf_of_lt hon hoff (.inr h)))
    · exact exec_detectorConfig_bad hf (.inr hset)
  case source =>
    subst hd
    rw [exec_querySource_of_source hf hi, Cmx.sourceBody_eq]
    rfl

end Sys2Proof.Machine
end

section
/-! RTU's tap requests (R135, R136, R137, R143). -/

namespace Sys2Proof.Machine

section Requests
variable {s : State} {n : Port} {f : Frame} {r : TapNo}

/-- A tap above 15 is refused, whatever the request would do with it (section 7.2). -/
theorem State.tapRequest_bad {k : ReqKind} (hf : s.Offers n k f) (hr : numOf 16 (byteAt f.body 0) = none)
    (own : TapNo → List Byte → State → State) :
    s.tapRequest k n own = (s.takeFrame n f).answer (.port n) .badValue := by
  simp only [State.tapRequest, State.dispatch_of_offers hf, hr]

/-! ### TAP_SET (R135) -/

theorem exec_tapSet (hf : s.Offers n .tapSet f) (hr : numOf 16 (byteAt f.body 0) = some r) :
    exec (.tapSet n) s = .next ((s.takeFrame n f).tapSet n r f.body) :=
  congrArg Host.Outcome.next (State.tapRequest_of_offers hf hr _)

section Target
variable {b : List Byte} {y : TapTarget}

theorem State.tapSet_bad (hy : tapTargetOf (byteAt b 1) (byteAt b 2) (byteAt b 3) = none) :
    s.tapSet n r b = s.answer (.port n) .badValue := by
  simp only [State.tapSet, hy]

variable (hy : tapTargetOf (byteAt b 1) (byteAt b 2) (byteAt b 3) = some y)
include hy

theorem State.tapSet_of_not_opened (hlock : (s.tap r).lock ≠ .opened) : s.tapSet n r b = s.answer (.port n) .tapLocked := by
  simp only [State.tapSet, hy]
  exact if_pos hlock

theorem State.tapSet_of_enabled (hlock : (s.tap r).lock = .opened) (hon : (s.tap r).enabled = true) :
    s.tapSet n r b = s.answer (.port n) .tapBusy := by
  simp [State.tapSet, hy, hlock, hon]

theorem State.tapSet_of_notHoot (hlock : (s.tap r).lock = .opened) (hoff : (s.tap r).enabled = false)
    (hhoot : s.notHoot y = true) : s.tapSet n r b = s.answer (.port n) .badTap := by
  simp [State.tapSet, hy, hlock, hoff, hhoot]

theorem State.tapSet_accepted (hlock : (s.tap r).lock = .opened) (hoff : (s.tap r).enabled = false)
    (hhoot : s.notHoot y = false) : s.tapSet n r b = ((s.setTap r { s.tap r with
      target := y, receive := (byteAt b 4).getLsbD 0, send := (byteAt b 4).getLsbD 1,
      incoming := (byteAt b 5).getLsbD 0, outgoing := (byteAt b 5).getLsbD 1 }).emit
        (notice (.tap r))).answer (.port n) .accepted := by
  simp [State.tapSet, hy, hlock, hoff, hhoot]

end Target

theorem State.notHoot_eq_false {y : TapTarget} : s.notHoot y = false ↔ ∀ g, y = .group g → (s.group g).kind = .hoot := by
  cases y <;> simp [State.notHoot]

theorem State.notHoot_of_group {g : Grp} (h : (s.group g).kind ≠ .hoot) : s.notHoot (.group g) = true := by
  simpa [State.notHoot] using h

/-! ### TAP_DISABLE and TAP_ENABLE (R135, R136) -/

theorem exec_tapDisable (hf : s.Offers n .tapDisable f) (hr : numOf 16 (byteAt f.body 0) = some r) {u : State}
    (hu : u = s.takeFrame n f) :
    exec (.tapDisable n) s = .next (
      if (s.tap r).lock ≠ .opened then u.answer (.port n) .tapLocked
      else if (s.tap r).coverage ≠ [] then u.answer (.port n) .tapInUse
      else if (s.tap r).enabled = false then u.answer (.port n) .accepted
      else ((u.setTap r { s.tap r with enabled := false }).emit { notices := [.tap r] }).answer (.port n) .accepted) := by
  subst hu
  refine congrArg Host.Outcome.next ((State.tapRequest_of_offers hf hr _).trans ?_)
  refine if_congr .rfl rfl (if_congr .rfl rfl ?_)
  rw [← ite_not]
  exact if_congr (by simp) rfl rfl

theorem TapRec.programmed_eq_false {t : TapRec} : t.programmed = false ↔
    t.target = .none ∨ (t.receive = false ∧ t.send = false) ∨ (t.incoming = false ∧ t.outgoing = false) := by
  simp [TapRec.programmed, Decidable.imp_iff_not_or, or_assoc]

theorem exec_tapEnable (hf : s.Offers n .tapEnable f) (hr : numOf 16 (byteAt f.body 0) = some r) {u : State}
    (hu : u = s.takeFrame n f) :
    exec (.tapEnable n) s = .next (
      if (s.tap r).enabled = true then u.answer (.port n) .accepted
      else if (s.tap r).programmed = false then u.answer (.port n) .badTap
      else ((u.setTap r { s.tap r with enabled := true }).emit
        { notices := [.tap r], given := if (s.tap r).present = true then [] else [⟨.rtu, mgmt, .recorderLost r⟩] }).answer
          (.port n) .accepted) := by
  subst hu
  refine congrArg Host.Outcome.next ((State.tapRequest_of_offers hf hr _).trans ?_)
  simp only [State.takeFrame_tap]
  by_cases hpresent : (s.tap r).present = true <;> simp [hpresent, notice, record, State.emit_emit, Sends.and]

/-! ### The locks (R137) -/

theorem exec_tapLock (hf : s.Offers n .tapLock f) (hr : numOf 16 (byteAt f.body 0) = some r) {u : State}
    (hu : u = s.takeFrame n f) :
    exec (.tapLock n) s = .next (match (s.tap r).lock with
      | .opened => (u.setTap r { s.tap r with lock := .locked }).answer (.port n) .accepted
      | .locked => u.answer (.port n) .accepted
      | .fixed => u.answer (.port n) .tapLocked) := by
  subst hu
  exact congrArg Host.Outcome.next (State.tapRequest_of_offers hf hr _)

theorem exec_tapUnlock (hf : s.Offers n .tapUnlock f) (hr : numOf 16 (byteAt f.body 0) = some r) {u : State}
    (hu : u = s.takeFrame n f) :
    exec (.tapUnlock n) s = .next (match (s.tap r).lock with
      | .opened => u.answer (.port n) .accepted
      | .locked => (u.setTap r { s.tap r with lock := .opened }).answer (.port n) .accepted
      | .fixed => u.answer (.port n) .tapLocked) := by
  subst hu
  exact congrArg Host.Outcome.next (State.tapRequest_of_offers hf hr _)

theorem exec_tapFix (hf : s.Offers n .tapFix f) (hr : numOf 16 (byteAt f.body 0) = some r) {u : State}
    (hu : u = s.takeFrame n f) :
    exec (.tapFix n) s = .next (
      if (s.tap r).lock = .locked ∧ (s.tap r).enabled = true then
        (u.setTap r { s.tap r with lock := .fixed }).answer (.port n) .accepted
      else u.answer (.port n) .badTap) := by
  subst hu
  refine congrArg Host.Outcome.next ((State.tapRequest_of_offers hf hr _).trans ?_)
  simp only [State.takeFrame_tap, State.lockTo]
  split
  · next hlock => exact if_congr (by simp [hlock]) rfl rfl
  · next hlock => exact (if_neg fun h => hlock h.1).symm

/-! ### QUERY_TAP (R143) -/

/-- Taking a frame moves nothing that makes a target active. -/
@[simp] theorem State.takeFrame_tapActive (t : TapRec) : (s.takeFrame n f).tapActive t = s.tapActive t := rfl

theorem exec_queryTap (hf : s.Offers n .queryTap f) (hr : numOf 16 (byteAt f.body 0) = some r) :
    exec (.queryTap n) s = .next ((s.takeFrame n f).answer (.port n) .accepted (s.tapBody r)) := by
  refine congrArg Host.Outcome.next ((State.tapRequest_of_offers hf hr _).trans ?_)
  simp only [State.tapBody, State.takeFrame_tap, State.takeFrame_tapActive]

end Requests

/-- Settles O45: each request by its checks in order, and BAD_VALUE for a tap above 15. -/
theorem tapsAreProgrammedAndLocked : Obligations.TapsAreProgrammedAndLocked := by
  refine ⟨fun s u n f r x hr hx hu => ?known, fun s n f c hbyte hc => ?unknown⟩
  case known =>
    subst hx
    refine ⟨fun hf => ?set, fun hf => exec_tapDisable hf hr hu, fun hf => ?enable, fun hf => exec_tapLock hf hr hu,
      fun hf => exec_tapUnlock hf hr hu, fun hf => exec_tapFix hf hr hu, fun hf => ?query⟩
    case set =>
      rw [exec_tapSet hf hr, ← hu]
      have htap : u.tap r = s.tap r := by rw [hu, State.takeFrame_tap]
      have hgroup (g : Grp) : u.group g = s.group g := by rw [hu, State.takeFrame_group]
      simp only [← htap, ← hgroup]
      refine ⟨fun hy => ?_, fun y hy => ⟨fun hlock => ?_, fun hlock hon => ?_, fun g hlock hoff hg hkind => ?_,
        fun hlock hoff hhoot => ?_⟩⟩
      · rw [State.tapSet_bad hy]
      · rw [State.tapSet_of_not_opened hy hlock]
      · rw [State.tapSet_of_enabled hy hlock hon]
      · rw [State.tapSet_of_notHoot hy hlock hoff (hg ▸ State.notHoot_of_group hkind)]
      · rw [State.tapSet_accepted hy hlock hoff (State.notHoot_eq_false.mpr hhoot)]
        rfl
    case enable =>
      simp only [exec_tapEnable hf hr hu, TapRec.programmed_eq_false]
    case query =>
      rw [exec_queryTap hf hr, hu]
      rfl
  case unknown =>
    have hr : numOf 16 (byteAt f.body 0) = none := numOf_of_out_of_range hbyte
    obtain ⟨hf, rfl⟩ | ⟨hf, rfl⟩ | ⟨hf, rfl⟩ | ⟨hf, rfl⟩ | ⟨hf, rfl⟩ | ⟨hf, rfl⟩ | ⟨hf, rfl⟩ := hc
    all_goals exact congrArg Host.Outcome.next (State.tapRequest_bad hf hr _)

end Sys2Proof.Machine
end

section
/-! Coverage and recorder presence at RTU (R133, R134, R138, R139, R142). -/

namespace Sys2Proof.Machine

/-! ### Recording fault marks (R142) -/

/-- The marks with those of the handsets of some coverage entries replaced. -/
def markFaults (cs : List Cover) (on : Bool) (marks : Table 16 (Pair Bool)) : Table 16 (Pair Bool) :=
  cs.foldl (fun m c => m.put c.pos ((m.look c.pos).set c.hs on)) marks

theorem Pair.of_set {α : Type} (x : Pair α) (h k : Handset) (v : α) : (x.set h v).of k = if h = k then v else x.of k := by
  cases h <;> cases k <;> rfl

/-- The handsets of the entries have the new mark, the others their own. -/
theorem of_look_markFaults (cs : List Cover) (on : Bool) (marks : Table 16 (Pair Bool)) (p : Pos) (h : Handset) :
    ((markFaults cs on marks).look p).of h =
      if ∃ c ∈ cs, c.pos = p ∧ c.hs = h then on else (marks.look p).of h := by
  induction cs generalizing marks with
  | nil => simp [markFaults]
  | cons c cs ih =>
    have hfirst : ((marks.put c.pos ((marks.look c.pos).set c.hs on)).look p).of h =
        if c.pos = p ∧ c.hs = h then on else (marks.look p).of h := by
      rw [Table.look_put]
      by_cases hp : c.pos = p
      · subst hp
        simp [Pair.of_set]
      · simp [hp]
    calc ((markFaults cs on (marks.put c.pos ((marks.look c.pos).set c.hs on))).look p).of h
        = if ∃ d ∈ cs, d.pos = p ∧ d.hs = h then on else if c.pos = p ∧ c.hs = h then on else (marks.look p).of h := by
          rw [ih, hfirst]
      _ = if ∃ d ∈ c :: cs, d.pos = p ∧ d.hs = h then on else (marks.look p).of h := by
          by_cases hc : c.pos = p ∧ c.hs = h <;> simp [hc]

theorem State.foldl_setFault (s : State) (cs : List Cover) (on : Bool) :
    cs.foldl (fun u c => u.setFault c.pos c.hs on) s
      = { s with rtu := { s.rtu with faults := markFaults cs on s.rtu.faults } } := by
  induction cs generalizing s with
  | nil => rfl
  | cons c cs ih => exact ih (s.setFault c.pos c.hs on)

theorem Sends.all_faultRecords (r : TapNo) (cs : List Cover) (on : Bool) :
    Sends.all (cs.map fun c => faultRecord r c on) =
      { given := cs.map fun c => ⟨.rtu, portOf c.pos, .recordingFault c.line c.hs r on⟩ } := by
  induction cs with
  | nil => rfl
  | cons c cs ih =>
    rw [List.map_cons, Sends.all_cons, ih]
    rfl

/-- Handsets whose marks are as they should be move none, and nothing is sent. -/
theorem State.moveFaults_of_same {s : State} {r : TapNo} {cs : List Cover} {on quiet : Bool}
    (h : ∀ c ∈ cs, s.fault c.pos c.hs = on) : s.moveFaults r cs on quiet = s := by
  have hnone : (cs.filter fun c => s.fault c.pos c.hs != on) = [] := by simpa using h
  simp only [State.moveFaults, hnone, if_true]

/-- Handsets whose marks all change, with their records in list order and one TAP notice. -/
theorem State.moveFaults_of_changed {s : State} {r : TapNo} {cs : List Cover} {on quiet : Bool}
    (h : ∀ c ∈ cs, s.fault c.pos c.hs = !on) :
    s.moveFaults r cs on quiet =
      State.emit { s with rtu := { s.rtu with faults := markFaults cs on s.rtu.faults } }
        { given := if quiet = true then [] else cs.map fun c => ⟨.rtu, portOf c.pos, .recordingFault c.line c.hs r on⟩
          notices := if cs = [] then [] else [.tap r] } := by
  have hall : (cs.filter fun c => s.fault c.pos c.hs != on) = cs :=
    List.filter_eq_self.mpr fun c hc => by simp [h c hc]
  simp only [State.moveFaults, hall, State.foldl_setFault, Sends.all_faultRecords]
  by_cases hcs : cs = []
  · subst hcs
    cases quiet <;> exact (State.emit_nothing s).symm
  · cases quiet <;> simp [hcs, notice, State.emit_emit, Sends.and]

/-- One handset whose mark changes. -/
theorem State.moveFaults_one {s : State} {r : TapNo} {c : Cover} {on quiet : Bool} (h : s.fault c.pos c.hs = !on) :
    s.moveFaults r [c] on quiet = (s.setFault c.pos c.hs on).emit
      { given := if quiet = true then [] else [⟨.rtu, portOf c.pos, .recordingFault c.line c.hs r on⟩]
        notices := [.tap r] } :=
  State.moveFaults_of_changed (by simpa using h)

/-! ### Reservations (R138) -/

theorem TapRec.covers_iff {t : TapRec} {p : Pos} {h : Handset} {l : Line} {d : Direction} : t.covers p h l d = true ↔
    t.enabled = true ∧ t.receive = true ∧ t.send = true ∧ t.takes d = true
      ∧ (t.target = .handset p h ∨ t.target = .line l) := by
  simp [TapRec.covers, and_assoc]

section Reserve
variable {s : State} {p : Pos} {h : Handset} {l : Line} {d : Direction}

theorem State.covered_iff : s.covered p h = true ↔ ∃ q, ∃ c ∈ (s.tap q).coverage, c.pos = p ∧ c.hs = h := by
  simp [State.covered]

theorem State.covered_eq_false : s.covered p h = false ↔ ∀ q, ∀ c ∈ (s.tap q).coverage, ¬(c.pos = p ∧ c.hs = h) := by
  simp [State.covered]

theorem State.coverTap_isSome (c : Cover) : (s.coverTap c).isSome = true ↔ ∃ q, c ∈ (s.tap q).coverage := by
  simp [State.coverTap]

theorem State.coverTap_eq_none {c : Cover} : s.coverTap c = none ↔ ∀ q, c ∉ (s.tap q).coverage := by
  simp [State.coverTap, List.find?_eq_none]

theorem State.coverTap_eq_some {c : Cover} {r : TapNo} (hr : c ∈ (s.tap r).coverage)
    (hfirst : ∀ q, q < r → c ∉ (s.tap q).coverage) : s.coverTap c = some r := by
  rw [State.coverTap, ← Fin.find?_eq_find?_finRange, Fin.find?_eq_some_iff]
  exact ⟨by simpa using hr, fun q hq => by simpa using hfirst q hq⟩

theorem State.coveringTap_eq_none
    (hnone : ∀ q, ¬((s.tap q).covers p h l d = true ∧ (s.tap q).coverage.length < Config.coverageRoom)) :
    s.coveringTap p h l d = none :=
  List.find?_eq_none.mpr fun q _ => by simpa using hnone q

theorem State.coveringTap_eq_some {r : TapNo}
    (hr : (s.tap r).covers p h l d = true ∧ (s.tap r).coverage.length < Config.coverageRoom)
    (hfirst : ∀ q, q < r → ¬((s.tap q).covers p h l d = true ∧ (s.tap q).coverage.length < Config.coverageRoom)) :
    s.coveringTap p h l d = some r := by
  rw [State.coveringTap, ← Fin.find?_eq_find?_finRange, Fin.find?_eq_some_iff]
  exact ⟨by simpa using hr, fun q hq => by simpa using hfirst q hq⟩

/-- A handset that is covered already is granted the entry that stands, and no other (R133). -/
theorem State.reserve_of_covered (hc : s.covered p h = true) {granted : Bool}
    (hg : granted = true ↔ ∃ q, ⟨p, h, l⟩ ∈ (s.tap q).coverage) : s.reserve p h l d = s.answerLcu p h granted := by
  have hstands : (s.coverTap ⟨p, h, l⟩).isSome = granted :=
    Bool.eq_iff_iff.mpr ((State.coverTap_isSome _).trans hg.symm)
  rw [State.reserve, if_pos hc, hstands]

theorem State.reserve_of_no_tap (hc : s.covered p h = false) (hr : s.coveringTap p h l d = none) :
    s.reserve p h l d = s.answerLcu p h false := by
  simp [State.reserve, hc, hr]

/-- A reservation that a tap grants: the entry, and what an absent recorder makes of the handset's mark. -/
theorem State.reserve_of_tap {r : TapNo} (hc : s.covered p h = false) (hr : s.coveringTap p h l d = some r) {t : State}
    (ht : t = (s.setTap r { s.tap r with coverage := (s.tap r).coverage ++ [⟨p, h, l⟩] }).answerLcu p h true) :
    s.reserve p h l d = if (s.tap r).present = true then t else t.moveFaults r [⟨p, h, l⟩] true false := by
  subst ht
  simp [State.reserve, hc, hr]

theorem exec_coverageReservation {rest : List ToRtu} (hm : s.chan.toRtu = .reserve p h l d :: rest) :
    exec .coverageReservation s = .next ((s.setChan { s.chan with toRtu := rest }).reserve p h l d) := by
  simp only [exec, execCoverageReservation, hm]

end Reserve

/-! ### Releases (R139) -/

section Release
variable {s : State} {c : Cover} {r : TapNo} {ofReset : Bool}

theorem State.releaseCover_of_absent (h : ∀ q, c ∉ (s.tap q).coverage) : s.releaseCover c ofReset = s := by
  simp only [State.releaseCover, State.coverTap_eq_none.mpr h]

theorem State.releaseCover_of_entry (hr : c ∈ (s.tap r).coverage) (hfirst : ∀ q, q < r → c ∉ (s.tap q).coverage) :
    s.releaseCover c ofReset =
      (s.setTap r { s.tap r with coverage := (s.tap r).coverage.filter fun d => d != c }).moveFaults r [c] false ofReset := by
  simp only [State.releaseCover, State.coverTap_eq_some hr hfirst]

theorem exec_coverageRelease {p : Pos} {h : Handset} {l : Line} {rest : List ToRtu}
    (hm : s.chan.toRtu = .release p h l ofReset :: rest) :
    exec .coverageRelease s = .next ((s.setChan { s.chan with toRtu := rest }).releaseCover ⟨p, h, l⟩ ofReset) := by
  simp only [exec, execCoverageRelease, hm]

end Release

/-! ### Recorder presence (R142) -/

section Presence
variable {s : State} {r : TapNo} {on : Bool}

theorem exec_recorderPresentChange_same (h : (s.tap r).present = on) : exec (.recorderPresentChange r on) s = .next s :=
  if_pos h

theorem exec_recorderPresentChange (h : (s.tap r).present ≠ on) :
    exec (.recorderPresentChange r on) s = .next (s.recorderChange r on) := if_neg h

theorem State.recorderChange_of_disabled (h : (s.tap r).enabled = false) :
    s.recorderChange r on = s.setTap r { s.tap r with present := on } := by
  simp [State.recorderChange, h]

/-- The change of an ENABLED tap's recorder, every handset it covers being marked as the recorder stood. -/
theorem State.recorderChange_of_enabled (h : (s.tap r).enabled = true)
    (hmarks : ∀ c ∈ (s.tap r).coverage, s.fault c.pos c.hs = on) :
    s.recorderChange r on =
      State.emit { s with rtu := { (s.setTap r { s.tap r with present := on }).rtu with
          faults := markFaults (s.tap r).coverage (!on) s.rtu.faults } }
        { given := ⟨.rtu, mgmt, if on then .recorderRestored r else .recorderLost r⟩
            :: (s.tap r).coverage.map fun c => ⟨.rtu, portOf c.pos, .recordingFault c.line c.hs r (!on)⟩
          notices := if (s.tap r).coverage = [] then [] else [.tap r] } := by
  simp only [State.recorderChange, h, if_true]
  refine (State.moveFaults_of_changed fun c hc => ?_).trans ?_
  · exact (hmarks c hc).trans (Bool.not_not on).symm
  · simp [State.emit, State.setTap, record, Chan.add]

end Presence

/-- Settles O44: a reservation by the first covering tap, a release by the entry's tap, and a recorder by its tap's marks. -/
theorem coverageAndRecorderPresence : Obligations.CoverageAndRecorderPresence := by
  intro s
  refine ⟨fun p h l d rest u fits hm hu hfits => ?reserve, fun p h l ofReset rest u hm hu => ?release, fun r on => ?presence⟩
  case reserve =>
    have hfit (r : TapNo) : fits r ↔ (u.tap r).covers p h l d = true ∧ (u.tap r).coverage.length < Config.coverageRoom := by
      rw [hfits, hu, State.setChan_tap, TapRec.covers_iff]
      simp only [and_assoc]
      rfl
    have htap (r : TapNo) : s.tap r = u.tap r := by rw [hu, State.setChan_tap]
    have hfault : s.fault p h = u.fault p h := by rw [hu]; rfl
    have hfrom : s.chan.fromRtu = u.chan.fromRtu := by rw [hu]; rfl
    rw [exec_coverageReservation hm, ← hu]
    simp only [htap, hfit, hfault, hfrom]
    refine ⟨fun hc => ?_, fun hc hnone => ?_, fun r t hc hr hfirst ht => ?_⟩
    · exact congrArg Host.Outcome.next (State.reserve_of_covered (State.covered_iff.mpr hc) decide_eq_true_iff)
    · rw [State.reserve_of_no_tap (State.covered_eq_false.mpr hc) (State.coveringTap_eq_none hnone)]
      rfl
    · have htfault : t.fault p h = u.fault p h := by rw [ht]; rfl
      rw [State.reserve_of_tap (State.covered_eq_false.mpr hc) (State.coveringTap_eq_some hr hfirst) ht]
      refine ⟨?_, fun habsent hmark => ?_⟩
      · rintro (hpresent | hmark)
        · rw [if_pos hpresent]
        · rw [State.moveFaults_of_same (by simpa using htfault.trans hmark), ite_self]
      · rw [if_neg (by simp [habsent]), State.moveFaults_one (htfault.trans hmark)]
        rfl
  case release =>
    have htap (r : TapNo) : s.tap r = u.tap r := by rw [hu, State.setChan_tap]
    have hfault : s.fault p h = u.fault p h := by rw [hu]; rfl
    rw [exec_coverageRelease hm, ← hu]
    simp only [htap, hfault]
    refine ⟨fun hc => ?_, fun r t hr hfirst ht => ?_⟩
    · rw [State.releaseCover_of_absent hc]
    · have htfault : t.fault p h = u.fault p h := by rw [ht]; rfl
      rw [State.releaseCover_of_entry hr hfirst, ← ht]
      refine ⟨fun hmark => ?_, fun hmark => ?_⟩
      · rw [State.moveFaults_of_same (by simpa using htfault.trans hmark)]
      · rw [State.moveFaults_one (htfault.trans hmark)]
  case presence =>
    refine ⟨exec_recorderPresentChange_same, fun h hoff => ?_, fun h hon hmarks => ⟨_, exec_recorderPresentChange h, ?_⟩⟩
    · rw [exec_recorderPresentChange h, State.recorderChange_of_disabled hoff]
    · rw [State.recorderChange_of_enabled hon hmarks]
      exact ⟨fun p h => of_look_markFaults .., rfl⟩

end Sys2Proof.Machine
end

section
/-! A frame that the dispatcher takes, and its answer (R162, R166, R173). -/

namespace Sys2Proof.Machine

section TakeAndAnswer
variable {s : State} {n : Port}

/-- Taking a frame arms or disarms on port 16 alone (R173). -/
theorem State.takeFrame_lki_armed (s : State) (n : Port) (f : Frame) :
    (s.takeFrame n f).lki.armed = if n = 16 then f.kind == 0x5A#8 else s.lki.armed := by
  have hcode : ReqKind.resetArm.code = 0x5A#8 := by decide
  rw [← hcode]
  rfl

/-- Nothing is answered where nothing is in flight. -/
theorem State.answer_port_of_none (hf : (s.port n).inFlight = none) (c : Code) (b : List Byte) :
    s.answer (.port n) c b = s := by
  simp only [State.answer, hf]

/-- The answer ends the request in flight; its reply waits on an UP port that has not been DOWN meanwhile (R162, R166). -/
theorem State.answer_port_of_inFlight {tag kind : Byte} {lost : Bool} (hf : (s.port n).inFlight = some ⟨tag, kind, lost⟩)
    (c : Code) (b : List Byte) :
    s.answer (.port n) c b = s.setPort n { s.port n with
      inFlight := none
      reply := if (s.port n).up = true ∧ lost = false then some ⟨tag, kind, c.byte :: b⟩ else (s.port n).reply } := by
  simp only [State.answer, hf, Bool.and_eq_true, Bool.not_eq_true']

/-- A frame that is taken and answered at once: the request in flight has seen no loss, so the reply waits on an UP port. -/
theorem State.answer_takeFrame (s : State) (n : Port) (f : Frame) (c : Code) (b : List Byte) :
    (s.takeFrame n f).answer (.port n) c b = (s.takeFrame n f).setPort n { s.port n with
      queue := (s.port n).queue.tail
      inFlight := none
      reply := if (s.port n).up then some ⟨f.tag, f.kind, c.byte :: b⟩ else (s.port n).reply } := by
  have hport := (s.takeFrame_port n f n).trans (if_pos rfl)
  have hflight : ((s.takeFrame n f).port n).inFlight = some ⟨f.tag, f.kind, false⟩ := congrArg PortRec.inFlight hport
  rw [State.answer_port_of_inFlight hflight, hport]
  simp only [and_true]

end TakeAndAnswer

/-- Settles O6: the request in flight decides what an answer does, and after `takeFrame` it is the frame taken. -/
theorem takenRequestGetsItsReply : Obligations.TakenRequestGetsItsReply := by
  intro s n f c b
  refine ⟨?taken, s.takeFrame_lki_armed n f, fun m hm => ?others, ?answered, State.answer_port_chan .., ?idle, ?inFlight, ?run⟩
  case taken => rw [State.takeFrame_port, if_pos rfl]
  case others => rw [State.answer_takeFrame, State.setPort_port, if_neg hm.symm, State.takeFrame_port, if_neg hm.symm]
  case answered => rw [State.answer_takeFrame, State.setPort_port, if_pos rfl]
  case idle => exact fun hf => State.answer_port_of_none hf c b
  case inFlight => exact fun tag kind lost hf => State.answer_port_of_inFlight hf c b
  case run => exact fun p => rfl

end Sys2Proof.Machine
end

section
/-! The codes of a step record (R144, R179, R182): bits, sets of positions and actions as bytes, and their reading back. -/

namespace Sys2Proof.Machine

/-! ### Bits and sets of positions -/

/-- The number of a list of flags has them as its bits. -/
theorem testBit_foldr_bits (l : List Bool) (i : Nat) :
    (l.foldr (fun (b : Bool) n => 2 * n + (if b then 1 else 0)) 0).testBit i = l.getD i false := by
  induction l generalizing i with
  | nil => simp
  | cons b l ih =>
    have hbit (n : Nat) : 2 * n + (if b then 1 else 0) = Nat.bit b n := by cases b <;> rfl
    rw [List.foldr_cons, hbit]
    cases i with
    | zero => exact Nat.testBit_bit_zero ..
    | succ i => rw [Nat.testBit_bit_succ, ih, List.getD_cons_succ]

theorem getLsbD_bitsByte (l : List Bool) {i : Nat} (hi : i < 8) : (bitsByte l).getLsbD i = l.getD i false := by
  rw [bitsByte, byteOf, BitVec.getLsbD_ofNat, testBit_foldr_bits]
  simp [hi]

/-- The two bytes of a set of positions are read back as the set (R179). -/
theorem posSetOf_posSetBytes (q : PosSet) :
    posSetOf (bitsByte (q.toList.drop 8)) (bitsByte (q.toList.take 8)) = q := by
  apply Table.ext_look
  intro p
  rw [posSetOf, Table.look_build]
  split
  · next h =>
    rw [getLsbD_bitsByte _ h]
    simp [Table.look, h, List.getD_eq_getElem?_getD]
  · next h =>
    rw [getLsbD_bitsByte _ (by omega)]
    simp [Table.look, List.getD_eq_getElem?_getD, Nat.add_sub_of_le (Nat.le_of_not_lt h)]

theorem toFin_byteOf (k : StepNo) : (byteOf k.val).toFin = k := by
  apply Fin.ext
  simp [byteOf]

/-! ### Actions -/

/-- The byte of each request that a step may make is read as that request (R144, R182). -/
theorem actionOf_code {k : ReqKind} (hk : k ∈ stepKinds) : actionOf k.code = some (.request k) := by
  revert k
  decide

/-- A byte that is read as a request is read as one that a step may make. -/
theorem mem_stepKinds_of_actionOf {b : Byte} {k : ReqKind} (h : actionOf b = some (.request k)) : k ∈ stepKinds := by
  unfold actionOf at h
  split at h
  · cases h
  split at h
  · cases h
  split at h
  · split at h
    · next hk =>
      cases h
      exact hk
    · cases h
  · cases h

/-- The byte of an action that was read from a byte is read as that action. -/
theorem actionOf_byte {b : Byte} {a : Action} (h : actionOf b = some a) : actionOf a.byte = some a := by
  cases a with
  | none => rfl
  | pause => rfl
  | request k => exact actionOf_code (mem_stepKinds_of_actionOf h)

theorem exists_actionOf_request (k : ReqKind) : (∃ b, actionOf b = some (.request k)) ↔ k ∈ stepKinds :=
  ⟨fun ⟨_, h⟩ => mem_stepKinds_of_actionOf h, fun h => ⟨_, actionOf_code h⟩⟩

/-! ### Step records -/

/-- The bytes of a record, behind any step byte, are read as that record where its action byte is. -/
theorem stepOf_bytes (b : Byte) {r : StepRec} (ha : actionOf r.action.byte = some r.action) :
    stepOf (b :: r.bytes) = some r := by
  obtain ⟨action, ⟨op1, op2, op3⟩, notify, next, mask⟩ := r
  have hnotify : (bitsByte [notify, next.isNone]).getLsbD 0 = notify := getLsbD_bitsByte _ (by decide)
  have hend : (bitsByte [notify, next.isNone]).getLsbD 1 = next.isNone := getLsbD_bitsByte _ (by decide)
  refine (congrArg (Option.map _) ha).trans (congrArg some ?_)
  rw [StepRec.mk.injEq]
  refine ⟨rfl, rfl, hnotify, ?_, posSetOf_posSetBytes mask⟩
  cases next with
  | none => exact if_pos hend
  | some k => exact (if_neg (Bool.eq_false_iff.mp hend)).trans (congrArg some (toFin_byteOf k))

/-- What STEP_READ returns of a record that STEP_WRITE has left is read by STEP_WRITE as that record (R145, R146). -/
theorem stepOf_bytes_of_stepOf (b : Byte) {body : List Byte} {r : StepRec} (h : stepOf body = some r) :
    stepOf (b :: r.bytes) = some r := by
  obtain ⟨a, ha, rfl⟩ := Option.map_eq_some_iff.mp h
  exact stepOf_bytes b (actionOf_byte ha)

end Sys2Proof.Machine
end

section
/-! STEP_WRITE and STEP_READ (R145, R146). -/

namespace Sys2Proof.Machine

theorem isEmpty_posList_build (f : Pos → Bool) : (posList (Table.build f)).isEmpty = true ↔ ∀ p, f p = false := by
  simp [posList]

/-- No run waits at a step (R146). -/
theorem State.isEmpty_runsAt {s : State} {k : StepNo} :
    (posList (s.runsAt k)).isEmpty = true ↔ ∀ p, (s.runOf p).nextStep ≠ some k := by
  simp only [State.runsAt, isEmpty_posList_build, beq_eq_false_iff_ne]

section StepStore
variable {s : State} {n : Port} {f : Frame} {k : StepNo} {r : StepRec}

theorem exec_stepWrite_bad (hf : s.Offers n .stepWrite f) (hr : stepOf f.body = none) :
    exec (.stepWrite n) s = .next ((s.takeFrame n f).answer (.port n) .badValue) := by
  refine congrArg Host.Outcome.next ((State.dispatch_of_offers hf _).trans ?_)
  rw [hr]

theorem exec_stepWrite_inUse {p : Pos} (hf : s.Offers n .stepWrite f) (hk : (byteAt f.body 0).toFin = k)
    (hr : stepOf f.body = some r) (hp : (s.runOf p).nextStep = some k) :
    exec (.stepWrite n) s = .next ((s.takeFrame n f).answer (.port n) .stepInUse) := by
  subst hk
  refine congrArg Host.Outcome.next ((State.dispatch_of_offers hf _).trans ?_)
  rw [hr]
  exact if_neg fun h => State.isEmpty_runsAt.mp h p hp

theorem exec_stepWrite_free (hf : s.Offers n .stepWrite f) (hk : (byteAt f.body 0).toFin = k)
    (hr : stepOf f.body = some r) (hfree : ∀ p, (s.runOf p).nextStep ≠ some k) :
    exec (.stepWrite n) s = .next
      ({ s.takeFrame n f with squ := { s.squ with steps := s.squ.steps.put k r } }.answer (.port n) .accepted) := by
  subst hk
  refine congrArg Host.Outcome.next ((State.dispatch_of_offers hf _).trans ?_)
  rw [hr]
  exact if_pos (State.isEmpty_runsAt.mpr hfree)

theorem exec_stepRead (hf : s.Offers n .stepRead f) (hk : (byteAt f.body 0).toFin = k) :
    exec (.stepRead n) s = .next ((s.takeFrame n f).answer (.port n) .accepted
      ((s.stepRec k).bytes ++ posSetBytes (Table.build fun p => (s.runOf p).nextStep == some k))) := by
  subst hk
  exact congrArg Host.Outcome.next (State.dispatch_of_offers hf _)

end StepStore

/-- Settles O46: each request by its case, and the round trip of a record by that of its fields. -/
theorem stepsAreWrittenAndReadBack : Obligations.StepsAreWrittenAndReadBack := by
  refine ⟨fun s n f k hk => ⟨fun hf => ⟨?bad, ?inUse, ?free⟩, ?read⟩, ?back, exists_actionOf_request⟩
  case bad => exact exec_stepWrite_bad hf
  case inUse => exact fun _ _ hr hp => exec_stepWrite_inUse hf hk hr hp
  case free => exact fun _ hr hfree => exec_stepWrite_free hf hk hr hfree
  case read => exact fun hf => exec_stepRead hf hk
  case back => exact fun b _ _ h => stepOf_bytes_of_stepOf b h

end Sys2Proof.Machine
end

section
/-! How a run moves from step to step at SQU (R149 to R151). -/

namespace Sys2Proof.Machine

/-! ### One run record -/

theorem State.setRun_setRun (s : State) (p : Pos) (r u : RunRec) : (s.setRun p r).setRun p u = s.setRun p u := by
  simp [State.setRun, Table.put_put]

theorem State.endRun_setRun (s : State) (p : Pos) (r : RunRec) (e : Event) : (s.setRun p r).endRun p e = s.endRun p e := by
  rw [State.endRun, State.setRun_setRun, State.endRun]

@[simp] theorem State.setRun_stepRec (s : State) (p : Pos) (r : RunRec) (k : StepNo) :
    (s.setRun p r).stepRec k = s.stepRec k := rfl

/-- The records before the one that ends a run go with it. -/
theorem State.endRun_emit (s : State) (p : Pos) (e : Event) (l : List Given) :
    (s.emit { given := l }).endRun p e = (s.setRun p ⟨.idle, 0⟩).emit { given := l ++ [⟨.squ, portOf p, e⟩] } :=
  State.emit_emit (s.setRun p ⟨.idle, 0⟩) _ _

/-- SEQ_STEP is given where the step asks for it (R150). -/
theorem State.seqStep_eq (s : State) (p : Pos) (k : StepNo) (done : Nat) :
    s.seqStep p k done = s.emit { given := if (s.stepRec k).notify = true then
      [⟨.squ, portOf p, .seqStep k (s.stepRec k).action done⟩] else [] } := by
  unfold State.seqStep
  split
  · rfl
  · exact (State.emit_nothing s).symm

@[simp] theorem State.seqStep_stepRec (s : State) (p : Pos) (k j : StepNo) (done : Nat) :
    (s.seqStep p k done).stepRec j = s.stepRec j := by
  rw [State.seqStep_eq]
  rfl

theorem State.seqStep_setRun (s : State) (p : Pos) (r : RunRec) (k : StepNo) (done : Nat) :
    (s.setRun p r).seqStep p k done = (s.seqStep p k done).setRun p r := by
  rw [State.seqStep_eq, State.seqStep_eq]
  rfl

/-! ### A chain of pauses of count 0 (R151) -/

theorem State.beginStep_of_tooLong {s : State} {p : Pos} {k first : StepNo} {done : Nat} (h : Config.runLimit ≤ done)
    (fuel : Nat) : s.beginStep p k first done (fuel + 1) = s.endRun p (.seqStopped k .tooLong done) := by
  rw [State.beginStep, if_pos h]

/-- Any fuel with which the chain reaches the limit of steps gives the same. -/
theorem State.beginStep_fuel (s : State) (p : Pos) (k first : StepNo) (done a b : Nat) (ha : Config.runLimit ≤ done + a)
    (hb : Config.runLimit ≤ done + b) : s.beginStep p k first done (a + 1) = s.beginStep p k first done (b + 1) := by
  induction a generalizing s k done b with
  | zero => exact (State.beginStep_of_tooLong ha _).trans (State.beginStep_of_tooLong ha _).symm
  | succ a ih =>
    cases b with
    | zero => exact (State.beginStep_of_tooLong hb _).trans (State.beginStep_of_tooLong hb _).symm
    | succ b =>
      have hrest (t : State) (i : StepNo) := ih t i (done + 1) b (by omega) (by omega)
      rw [State.beginStep, State.beginStep]
      simp only [hrest]

/-- A step that is begun replaces the run record, whatever it was. -/
theorem State.beginStep_setRun (s : State) (p : Pos) (r : RunRec) (k first : StepNo) (done fuel : Nat)
    (h : Config.runLimit ≤ done + fuel) :
    (s.setRun p r).beginStep p k first done (fuel + 1) = s.beginStep p k first done (fuel + 1) := by
  induction fuel generalizing s k done with
  | zero =>
    have hlimit : Config.runLimit ≤ done := h
    rw [State.beginStep_of_tooLong hlimit, State.beginStep_of_tooLong hlimit, State.endRun_setRun]
  | succ fuel ih =>
    have hrest (t : State) (i : StepNo) := ih t i (done + 1) (by omega)
    rw [State.beginStep, State.beginStep]
    simp only [State.setRun_stepRec, State.endRun_setRun, State.setRun_setRun, State.seqStep_setRun, hrest]

/-! ### A step that is begun (R149) -/

/-- What a run does after a step has been executed: SEQ_STEP where the step asks for it, then the next step or the end
(R150, R151). -/
def State.afterStep (s : State) (p : Pos) (k first : StepNo) (done : Nat) : State :=
  (s.seqStep p k done).goOn p k first done

section Begin
variable {s : State} {p : Pos} {k first : StepNo} {done : Nat}

theorem State.begin_of_tooLong (h : Config.runLimit ≤ done) :
    s.begin p k first done = s.endRun p (.seqStopped k .tooLong done) :=
  State.beginStep_of_tooLong h _

theorem State.begin_of_none (h : done < Config.runLimit) (ha : (s.stepRec k).action = .none) :
    s.begin p k first done = s.endRun p (.seqStopped k .badStep done) := by
  rw [State.begin, State.beginStep, if_neg (Nat.not_le.mpr h), ha]

theorem State.begin_of_request {q : ReqKind} (h : done < Config.runLimit) (ha : (s.stepRec k).action = .request q) :
    s.begin p k first done =
      (s.setRun p ⟨.waiting k first false, done + 1⟩).submit p ⟨q, (s.stepRec k).operands⟩ := by
  rw [State.begin, State.beginStep, if_neg (Nat.not_le.mpr h), ha]

theorem State.begin_of_pause (h : done < Config.runLimit) (ha : (s.stepRec k).action = .pause)
    (hc : (s.stepRec k).operands.op1 ≠ 0) :
    s.begin p k first done = s.setRun p ⟨.pausing k first (some (s.stepRec k).operands.op1.toNat), done + 1⟩ := by
  rw [State.begin, State.beginStep, if_neg (Nat.not_le.mpr h), ha]
  exact if_neg hc

/-- A pause of count 0 is executed as soon as it is begun (R151). -/
theorem State.begin_of_pause_zero (h : done < Config.runLimit) (ha : (s.stepRec k).action = .pause)
    (hc : (s.stepRec k).operands.op1 = 0) : s.begin p k first done = s.afterStep p k first (done + 1) := by
  have hlimit : Config.runLimit = 32 := rfl
  have hfuel (t : State) (j : StepNo) : t.beginStep p j first (done + 1) Config.runLimit = t.begin p j first (done + 1) :=
    t.beginStep_fuel p j first (done + 1) 31 32 (by omega) (by omega)
  rw [State.begin, State.beginStep, if_neg (Nat.not_le.mpr h), ha]
  refine (if_pos hc).trans ?_
  simp only [State.afterStep, State.goOn, State.seqStep_stepRec, hfuel]

end Begin

theorem State.begin_setRun (s : State) (p : Pos) (r : RunRec) (k first : StepNo) (done : Nat) :
    (s.setRun p r).begin p k first done = s.begin p k first done :=
  s.beginStep_setRun p r k first done Config.runLimit (Nat.le_add_left ..)

theorem State.afterStep_setRun (s : State) (p : Pos) (r : RunRec) (k first : StepNo) (done : Nat) :
    (s.setRun p r).afterStep p k first done = s.afterStep p k first done := by
  simp only [State.afterStep, State.goOn, State.seqStep_setRun, State.setRun_stepRec, State.endRun_setRun,
    State.begin_setRun]

/-! ### What follows a step (R150, R151) -/

section Next
variable {s : State} {p : Pos} {k first j : StepNo} {done : Nat}

theorem State.goOn_of_end (hn : (s.stepRec k).next = none) : s.goOn p k first done = s.endRun p (.seqDone first done) := by
  rw [State.goOn, hn]

theorem State.goOn_of_next (hn : (s.stepRec k).next = some j) : s.goOn p k first done = s.begin p j first done := by
  rw [State.goOn, hn]

variable {step : List Given}
  (hstep : step = if (s.stepRec k).notify = true then [⟨.squ, portOf p, .seqStep k (s.stepRec k).action done⟩] else [])
include hstep

theorem State.seqStep_of_step : s.seqStep p k done = s.emit { given := step } := by
  rw [State.seqStep_eq, hstep]

theorem State.afterStep_of_end (hn : (s.stepRec k).next = none) :
    s.afterStep p k first done =
      (s.setRun p ⟨.idle, 0⟩).emit { given := step ++ [⟨.squ, portOf p, .seqDone first done⟩] } := by
  rw [State.afterStep, State.seqStep_of_step hstep, State.goOn_of_end (s := s.emit _) hn, State.endRun_emit]

variable (hn : (s.stepRec k).next = some j)
include hn

/-- The next step is begun once the record of the last is given. -/
theorem State.afterStep_of_next : s.afterStep p k first done = (s.emit { given := step }).begin p j first done := by
  rw [State.afterStep, State.seqStep_of_step hstep, State.goOn_of_next (s := s.emit _) hn]

theorem State.afterStep_of_tooLong (h : Config.runLimit ≤ done) :
    s.afterStep p k first done =
      (s.setRun p ⟨.idle, 0⟩).emit { given := step ++ [⟨.squ, portOf p, .seqStopped j .tooLong done⟩] } := by
  rw [State.afterStep_of_next hstep hn, State.begin_of_tooLong h, State.endRun_emit]

theorem State.afterStep_of_none (h : done < Config.runLimit) (ha : (s.stepRec j).action = .none) :
    s.afterStep p k first done =
      (s.setRun p ⟨.idle, 0⟩).emit { given := step ++ [⟨.squ, portOf p, .seqStopped j .badStep done⟩] } := by
  rw [State.afterStep_of_next hstep hn, State.begin_of_none (s := s.emit _) h ha, State.endRun_emit]

theorem State.afterStep_of_request {q : ReqKind} (h : done < Config.runLimit) (ha : (s.stepRec j).action = .request q) :
    s.afterStep p k first done = ((s.setRun p ⟨.waiting j first false, done + 1⟩).setChan { s.chan with
      submitted := s.chan.submitted.put p (some ⟨q, (s.stepRec j).operands⟩) }).emit { given := step } :=
  (State.afterStep_of_next hstep hn).trans (State.begin_of_request h ha)

theorem State.afterStep_of_pause (h : done < Config.runLimit) (ha : (s.stepRec j).action = .pause)
    (hc : (s.stepRec j).operands.op1 ≠ 0) :
    s.afterStep p k first done = (s.setRun p
      ⟨.pausing j first (some (s.stepRec j).operands.op1.toNat), done + 1⟩).emit { given := step } :=
  (State.afterStep_of_next hstep hn).trans (State.begin_of_pause h ha hc)

/-- The run that meets a pause of count 0 does what follows that pause (R151). -/
theorem State.afterStep_of_pause_zero (h : done < Config.runLimit) (ha : (s.stepRec j).action = .pause)
    (hc : (s.stepRec j).operands.op1 = 0) (r : RunRec) :
    s.afterStep p k first done = ((s.setRun p r).emit { given := step }).afterStep p j first (done + 1) :=
  (State.afterStep_of_next hstep hn).trans
    ((State.begin_of_pause_zero (s := s.emit { given := step }) h ha hc).trans (State.afterStep_setRun (s.emit { given := step }) p r j first _).symm)

end Next

end Sys2Proof.Machine
end

section
/-! The commands of the runs: RUN_SEQUENCE, outcomes, pauses and ABORT_SEQUENCE (R148 to R152, R154). -/

namespace Sys2Proof.Machine

/-! ### RUN_SEQUENCE (R148) -/

theorem State.squ_of_submits {s t : State} {r : Requester} {k : ReqKind} {p : Pos} {body : List Byte}
    (h : s.Submits r k p body t) : t.squ = s.squ := by
  cases r with
  | port n =>
    obtain ⟨-, f, -, -, rfl⟩ := h
    rfl
  | run q =>
    obtain ⟨-, o, -, -, rfl⟩ := h
    rfl

section RunSequence
variable {s t : State} {n : Port} {p : Pos} {b : List Byte} {k : StepNo}

theorem State.stepRec_of_submits {r : Requester} {q : ReqKind} (hs : s.Submits r q p b t) (j : StepNo) :
    t.stepRec j = s.stepRec j := by
  rw [State.stepRec, State.squ_of_submits hs, State.stepRec]

theorem State.runOf_of_submits {r : Requester} {q : ReqKind} (hs : s.Submits r q p b t) (i : Pos) :
    t.runOf i = s.runOf i := by
  rw [State.runOf, State.squ_of_submits hs, State.runOf]

theorem State.runCheck_of_submits {r : Requester} {q : ReqKind} (hs : s.Submits r q p b t) (j : StepNo) :
    t.runCheck p j = s.runCheck p j := by
  rw [State.runCheck, State.runOf_of_submits hs, State.stepRec_of_submits hs, State.runCheck]

theorem State.runCheck_busy (hr : (s.runOf p).state ≠ .idle) : s.runCheck p k = some .busy := if_pos hr

variable (hs : s.Submits (.port n) .runSequence p b t) (hk : (byteAt b 0).toFin = k)

section Idle
variable (hr : (s.runOf p).state = .idle)
include hr

theorem State.runCheck_not_permitted (hm : (s.stepRec k).mask.look p = false) : s.runCheck p k = some .notPermitted := by
  simp [State.runCheck, hr, hm]

variable (hm : (s.stepRec k).mask.look p = true)
include hm

theorem State.runCheck_bad (ha : (s.stepRec k).action = .none) : s.runCheck p k = some .badValue := by
  simp [State.runCheck, hr, hm, ha]

theorem State.runCheck_pass (ha : (s.stepRec k).action ≠ .none) : s.runCheck p k = none := by
  simp [State.runCheck, hr, hm, ha]

end Idle

include hs hk

theorem exec_runSequence_refused {c : Code} (hc : s.runCheck p k = some c) :
    exec (.runSequence n) s = .next (t.answer (.port n) c) := by
  subst hk
  refine congrArg Host.Outcome.next ((State.request_of_sends hs _).trans ?_)
  rw [← State.reply_of_sends hs]
  have ht := (State.runCheck_of_submits hs _).trans hc
  simp only [levelOf, ht]

theorem exec_runSequence_begun (hc : s.runCheck p k = none) :
    exec (.runSequence n) s = .next ((t.begin p k k 0).answer (.port n) .accepted) := by
  subst hk
  refine congrArg Host.Outcome.next ((State.request_of_sends hs _).trans ?_)
  rw [← State.reply_of_sends hs]
  have ht := (State.runCheck_of_submits hs _).trans hc
  simp only [levelOf, ht]

end RunSequence

/-! ### PAUSE_EXPIRY (R151) -/

section Commands
variable {s : State} {p : Pos} {k first j : StepNo} {done : Nat}

theorem exec_pauseExpiry_ran (h : s.runOf p = ⟨.pausing k first (some 0), done⟩) :
    exec (.pauseExpiry p) s = .next (s.afterStep p k first done) := by
  change execPauseExpiry p s = _
  simp only [execPauseExpiry, h, State.afterStep]

/-- A pause whose timer stands at 0 is one that has run out, whatever is sent meanwhile. -/
theorem exec_pauseExpiry_zero (o : Sends) :
    exec (.pauseExpiry p) ((s.setRun p ⟨.pausing k first (some 0), done⟩).emit o)
      = .next (((s.setRun p ⟨.pausing k first (some 0), done⟩).emit o).afterStep p k first done) :=
  exec_pauseExpiry_ran (by simp)

/-- Only a pause timer that has run out expires. -/
theorem exec_pauseExpiry_not_ran (h : ∀ k first done, s.runOf p ≠ ⟨.pausing k first (some 0), done⟩) :
    exec (.pauseExpiry p) s = .next s := by
  change execPauseExpiry p s = _
  unfold execPauseExpiry
  split
  · next k first hr => exact absurd (congrArg (RunRec.mk · (s.runOf p).done) hr) (h k first _)
  · rfl

/-! ### STEP_OUTCOME (R150, R154) -/

theorem exec_stepOutcome_of_none (ho : s.chan.outcomes.look p = none) : exec (.stepOutcome p) s = .next s := by
  change execStepOutcome p s = _
  rw [execStepOutcome, ho]

section Outcome
variable {c : Code} {t : State} (ho : s.chan.outcomes.look p = some c)
  (ht : t = s.setChan { s.chan with outcomes := s.chan.outcomes.put p none })
include ho ht

theorem exec_stepOutcome_draining (hr : (s.runOf p).state = .draining) :
    exec (.stepOutcome p) s = .next (t.setRun p ⟨.idle, 0⟩) := by
  subst ht
  change execStepOutcome p s = _
  simp only [execStepOutcome, ho, hr]
  rfl

theorem exec_stepOutcome_unawaited
    (hr : (s.runOf p).state = .idle ∨ ∃ k first x, (s.runOf p).state = .pausing k first x) :
    exec (.stepOutcome p) s = .next t := by
  subst ht
  change execStepOutcome p s = _
  obtain hr | ⟨k, first, x, hr⟩ := hr
  · simp only [execStepOutcome, ho, hr]
    rfl
  · simp only [execStepOutcome, ho, hr]
    rfl

theorem exec_stepOutcome_waiting {abort : Bool} (hr : s.runOf p = ⟨.waiting k first abort, done⟩) :
    exec (.stepOutcome p) s = .next (t.stepOutcome p k first abort done c) := by
  subst ht
  change execStepOutcome p s = _
  simp only [execStepOutcome, ho, hr]
  rfl

end Outcome

theorem State.stepOutcome_refused {c : Code} (hc : c ≠ .accepted) (abort : Bool) :
    s.stepOutcome p k first abort done c = s.endRun p (.seqStopped k (.code c) done) := if_neg hc

theorem State.stepOutcome_accepted : s.stepOutcome p k first false done .accepted = s.afterStep p k first done := rfl

/-- The end of the sequence comes before the abort (R152). -/
theorem State.stepOutcome_of_end (hn : (s.stepRec k).next = none) (abort : Bool) :
    s.stepOutcome p k first abort done .accepted = s.afterStep p k first done := by
  have hnext : ((s.seqStep p k done).stepRec k).next = none := by rw [State.seqStep_stepRec, hn]
  cases abort with
  | false => rfl
  | true =>
    rw [State.afterStep, State.goOn_of_end hnext]
    simp only [State.stepOutcome, hn, if_true]

theorem State.stepOutcome_aborted {step : List Given}
    (hstep : step = if (s.stepRec k).notify = true then [⟨.squ, portOf p, .seqStep k (s.stepRec k).action done⟩] else [])
    (hn : (s.stepRec k).next = some j) :
    s.stepOutcome p k first true done .accepted =
      (s.setRun p ⟨.idle, 0⟩).emit { given := step ++ [⟨.squ, portOf p, .seqStopped j .aborted done⟩] } := by
  simp only [State.stepOutcome, hn, if_true]
  rw [State.seqStep_of_step hstep, State.endRun_emit]

end Commands

/-! ### ABORT_SEQUENCE (R152) -/

theorem exec_abortSequence_of_submits {s t : State} {n : Port} {p : Pos} {b : List Byte}
    (hs : s.Submits (.port n) .abortSequence p b t) : exec (.abortSequence n) s = .next (t.abortRun p .link) :=
  congrArg Host.Outcome.next (State.request_of_sends hs _)

end Sys2Proof.Machine
end

section
/-! The runs as O47 puts them together (R148 to R152, R154). -/

namespace Sys2Proof.Machine

/-- Settles O47: RUN_SEQUENCE begins a step; an accepted outcome and a pause that has run out both go on by `afterStep`, whose
cases are those of the step that is begun. -/
theorem runsGoStepByStep : Obligations.RunsGoStepByStep := by
  intro s p
  refine ⟨fun n b t k hs hk => ?run, exec_stepOutcome_of_none,
    fun c t ho ht => ⟨exec_stepOutcome_draining ho ht, exec_stepOutcome_unawaited ho ht⟩,
    fun c t k first abort done step ho ht hr hstep => ?outcome, exec_pauseExpiry_not_ran,
    fun k first done step hr hstep => ?pause, fun n b t hs => ?abort⟩
  case run =>
    have hfirst : 0 < Config.runLimit := by decide
    have hrec := State.stepRec_of_submits hs k
    have refused {c : Code} := exec_runSequence_refused (c := c) hs hk
    have begun := exec_runSequence_begun hs hk
    refine ⟨fun hr => refused (State.runCheck_busy hr), fun hr hm => refused (State.runCheck_not_permitted hr hm),
      fun hr hm ha => refused (State.runCheck_bad hr hm ha), fun q hr hm ha => ?runRequest, fun hr hm ha hc => ?runPause,
      fun hr hm ha hc => ⟨t.afterStep p k k 1, ?expiry, ?runOn⟩⟩
    case runRequest =>
      rw [begun (State.runCheck_pass hr hm (by simp [ha])), State.begin_of_request hfirst (by rw [hrec, ha]), hrec]
      rfl
    case runPause =>
      rw [begun (State.runCheck_pass hr hm (by simp [ha])),
        State.begin_of_pause hfirst (by rw [hrec, ha]) (by rwa [hrec]), hrec]
    case expiry => exact (exec_pauseExpiry_ran (by simp)).trans (congrArg _ (State.afterStep_setRun ..))
    case runOn =>
      rw [begun (State.runCheck_pass hr hm (by simp [ha])),
        State.begin_of_pause_zero hfirst (by rw [hrec, ha]) (by rwa [hrec])]
  case outcome =>
    have hrec : s.stepRec = t.stepRec := by rw [ht]; rfl
    rw [exec_stepOutcome_waiting ho ht hr]
    rw [hrec] at hstep ⊢
    refine ⟨fun hc => ?refused, ?outcomeEnd, ?aborted, ?outcomeRequest, ?outcomePause, ?outcomeTooLong, ?outcomeNone⟩
    case refused =>
      rw [State.stepOutcome_refused hc]
      rfl
    case outcomeEnd =>
      rintro rfl hn
      rw [State.stepOutcome_of_end hn, State.afterStep_of_end hstep hn]
    case aborted =>
      rintro j rfl hn rfl
      rw [State.stepOutcome_aborted hstep hn]
    case outcomeRequest =>
      rintro j q rfl hn rfl ha h
      rw [State.stepOutcome_accepted, State.afterStep_of_request hstep hn h ha]
    case outcomePause =>
      rintro j rfl hn rfl ha h
      rw [State.stepOutcome_accepted]
      refine ⟨fun hc => ?count, fun hc => ?noCount⟩
      case count => rw [State.afterStep_of_pause hstep hn h ha hc]
      case noCount => rw [exec_pauseExpiry_zero, State.afterStep_of_pause_zero hstep hn h ha hc]
    case outcomeTooLong =>
      rintro j rfl hn rfl h
      rw [State.stepOutcome_accepted, State.afterStep_of_tooLong hstep hn h]
    case outcomeNone =>
      rintro j rfl hn rfl ha h
      rw [State.stepOutcome_accepted, State.afterStep_of_none hstep hn h ha]
  case pause =>
    rw [exec_pauseExpiry_ran hr]
    refine ⟨fun hn => ?pauseEnd, fun j q hn ha h => ?pauseRequest,
      fun j hn ha h => ⟨fun hc => ?pausePause, fun hc => ?pauseNoCount⟩, fun j hn h => ?pauseTooLong,
      fun j hn ha h => ?pauseNone⟩
    case pauseEnd => rw [State.afterStep_of_end hstep hn]
    case pauseRequest => rw [State.afterStep_of_request hstep hn h ha]
    case pausePause => rw [State.afterStep_of_pause hstep hn h ha hc]
    case pauseNoCount => rw [exec_pauseExpiry_zero, State.afterStep_of_pause_zero hstep hn h ha hc]
    case pauseTooLong => rw [State.afterStep_of_tooLong hstep hn h]
    case pauseNone => rw [State.afterStep_of_none hstep hn h ha]
  case abort =>
    have hreply := State.reply_of_sends hs
    rw [exec_abortSequence_of_submits hs, State.abortRun, State.runOf_of_submits hs]
    cases hr : (s.runOf p).state with
    | idle => exact congrArg _ (hreply ..)
    | draining => exact congrArg _ (hreply ..)
    | pausing k first x => exact congrArg _ (hreply ..)
    | waiting k first abort => exact congrArg _ (hreply ..)

end Sys2Proof.Machine
end

section
/-! What the commands of the other blocks leave of the records that O56 reads: the request queue, standing and up timer of each
port, EVU's records, and the down notices on their way to EVU. -/

namespace Sys2Proof.Machine

/-- What the limits of the queues speak of (R158, R161, R168). -/
def State.queues (s : State) : (Port → List Frame × Bool × Timer) × Evu × List Port :=
  (fun n => ((s.port n).queue, (s.port n).up, (s.port n).upTimer), s.evu, s.chan.downEvu)

theorem State.queues_eq {s t : State}
    (hp : ∀ n, (t.port n).queue = (s.port n).queue ∧ (t.port n).up = (s.port n).up ∧ (t.port n).upTimer = (s.port n).upTimer)
    (he : t.evu = s.evu) (hc : t.chan.downEvu = s.chan.downEvu) : t.queues = s.queues := by
  simp [State.queues, hp, he, hc]

/-! ### The shared operations -/

@[simp] theorem State.emit_queues (s : State) (o : Sends) : (s.emit o).queues = s.queues := rfl
@[simp] theorem State.setPos_queues (s : State) (p : Pos) (r : PosRec) : (s.setPos p r).queues = s.queues := rfl
@[simp] theorem State.setLine_queues (s : State) (l : Line) (r : LineRec) : (s.setLine l r).queues = s.queues := rfl
@[simp] theorem State.applyLine_queues (s : State) (l : Line) (fx : LineFx) : (s.applyLine l fx).queues = s.queues := rfl
@[simp] theorem State.setGroup_queues (s : State) (g : Grp) (r : GroupRec) : (s.setGroup g r).queues = s.queues := rfl
@[simp] theorem State.setCall_queues (s : State) (c : CallNo) (r : CallRec) : (s.setCall c r).queues = s.queues := rfl
@[simp] theorem State.setTap_queues (s : State) (r : TapNo) (t : TapRec) : (s.setTap r t).queues = s.queues := rfl
@[simp] theorem State.setRun_queues (s : State) (p : Pos) (r : RunRec) : (s.setRun p r).queues = s.queues := rfl
@[simp] theorem State.setLeg_queues (s : State) (k : Leg) (r : LegRec) : (s.setLeg k r).queues = s.queues := rfl
@[simp] theorem State.setReset_queues (s : State) (r : Option ResetProgress) : (s.setReset r).queues = s.queues := rfl

theorem State.setChan_queues {s : State} {c : Chan} (h : c.downEvu = s.chan.downEvu) : (s.setChan c).queues = s.queues := by
  simp [State.queues, h]

/-- A port record that keeps its queue, its standing and its up timer. -/
theorem State.setPort_queues {s : State} {n : Port} {r : PortRec} (hq : r.queue = (s.port n).queue) (hu : r.up = (s.port n).up)
    (ht : r.upTimer = (s.port n).upTimer) : (s.setPort n r).queues = s.queues := by
  refine State.queues_eq (fun m => ?_) rfl rfl
  rw [State.setPort_port]
  split
  · next e => exact e ▸ ⟨hq, hu, ht⟩
  · exact ⟨rfl, rfl, rfl⟩

@[simp] theorem State.answer_queues (s : State) (r : Requester) (c : Code) (b : List Byte) :
    (s.answer r c b).queues = s.queues := by
  cases r with
  | run p => rfl
  | port n =>
    simp only [State.answer]
    split
    · rfl
    · exact State.setPort_queues rfl rfl rfl

@[simp] theorem State.reply_queues (s : State) (p : Pos) (v : Via) (c : Code) : (s.reply p v c).queues = s.queues :=
  State.answer_queues ..
@[simp] theorem State.setToOwner_queues (s : State) (o : Owner) (l : List ToOwner) : (s.setToOwner o l).queues = s.queues := by
  cases o <;> rfl
@[simp] theorem State.setFromOwner_queues (s : State) (o : Owner) (l : List ToPtb) : (s.setFromOwner o l).queues = s.queues := by
  cases o <;> rfl
@[simp] theorem State.forward_queues (s : State) (o : Owner) (m : ToOwner) : (s.forward o m).queues = s.queues :=
  State.setToOwner_queues ..
@[simp] theorem State.freeClaimOf_queues (s : State) (p : Pos) (h : Handset) (c : Claim) :
    (s.freeClaimOf p h c).queues = s.queues := by
  unfold State.freeClaimOf
  split <;> rfl
@[simp] theorem State.claimFor_queues (s : State) (p : Pos) (h : Handset) (v : Via) (o : Owner) (m : ToOwner) :
    (s.claimFor p h v o m).queues = s.queues := by
  unfold State.claimFor
  split <;> simp

theorem State.nextForHandset_queues {s t : State} {o : Owner} {p : Pos} {h : Handset} {m : ToOwner}
    (e : s.nextForHandset o p h = some (m, t)) : t.queues = s.queues := by
  obtain ⟨-, _, _, -, rfl, -⟩ := State.nextForHandset_some e
  exact State.setToOwner_queues ..
theorem State.nextForSpeaker_queues {s t : State} {o : Owner} {p : Pos} {k : Spk} {m : ToOwner}
    (e : s.nextForSpeaker o p k = some (m, t)) : t.queues = s.queues := by
  obtain ⟨-, _, _, -, rfl, -⟩ := State.nextForSpeaker_some e
  exact State.setToOwner_queues ..
theorem State.heardOfHandset_queues {s t : State} {o : Owner} {p : Pos} {h : Handset} {m : ToPtb}
    (e : s.heardOfHandset o p h = some (m, t)) : t.queues = s.queues := by
  obtain ⟨-, _, _, -, rfl, -⟩ := State.heardOfHandset_some e
  exact State.setFromOwner_queues ..
theorem State.heardOfSpeakers_queues {s t : State} {o : Owner} {p : Pos} {m : ToPtb}
    (e : s.heardOfSpeakers o p = some (m, t)) : t.queues = s.queues := by
  obtain ⟨-, _, _, -, rfl, -⟩ := State.heardOfSpeakers_some e
  exact State.setFromOwner_queues ..

theorem foldl_queues {α : Type} {f : State → α → State} (h : ∀ u a, (f u a).queues = u.queues) (l : List α) (s : State) :
    (l.foldl f s).queues = s.queues := by
  induction l generalizing s with
  | nil => rfl
  | cons a l ih => exact (ih _).trans (h s a)

/-! ### LCU -/

@[simp] theorem State.dropGrant_queues (s : State) (w : Waiting) (granted ofReset : Bool) :
    (s.dropGrant w granted ofReset).queues = s.queues := by
  unfold State.dropGrant
  split <;> rfl
@[simp] theorem State.refuseTake_queues (s : State) (p : Pos) (h : Handset) (v : Via) (c : Code) :
    (s.refuseTake p h v c).queues = s.queues := rfl
@[simp] theorem State.askCoverage_queues (s : State) (p : Pos) (h : Handset) (v : Via) (l : Line) :
    (s.askCoverage p h v l).queues = s.queues := rfl
@[simp] theorem State.finishTake_queues (s : State) (p : Pos) (h : Handset) (v : Via) (l : Line) (covered : Bool) :
    (s.finishTake p h v l covered).queues = s.queues := rfl

@[simp] theorem State.lcuTake_queues (s : State) (p : Pos) (h : Handset) (v : Via) (l : Line) :
    (s.lcuTake p h v l).queues = s.queues := by
  unfold State.lcuTake
  repeat' split
  all_goals rfl

@[simp] theorem State.lcuAnswer_queues (s : State) (w : Waiting) (granted : Bool) : (s.lcuAnswer w granted).queues = s.queues := by
  unfold State.lcuAnswer
  repeat' split
  all_goals simp

@[simp] theorem State.lcuHold_queues (s : State) (p : Pos) (h : Handset) (v : Via) (l : Line) :
    (s.lcuHold p h v l).queues = s.queues := by
  unfold State.lcuHold
  repeat' split
  all_goals simp

@[simp] theorem State.lineOut_queues (s : State) (l : Line) : (s.lineOut l).queues = s.queues := by
  simp only [State.lineOut]
  repeat' split
  all_goals rfl

@[simp] theorem State.changeApp_queues (s : State) (l : Line) (p : Pos) (m : AppMode) :
    (s.changeApp l p m).queues = s.queues := by
  simp only [State.changeApp]
  repeat' split
  all_goals rfl

@[simp] theorem State.setBars_queues (s : State) (q : Line → Pos → Bool) (on : Bool) : (s.setBars q on).queues = s.queues := by
  simp only [State.setBars]
  split <;> rfl

@[simp] theorem State.lineDetach_queues (s : State) (l : Line) (g : Grp) : (s.lineDetach l g).queues = s.queues := by
  unfold State.lineDetach
  split <;> rfl

@[simp] theorem State.lcuComplete_queues (s : State) : s.lcuComplete.queues = s.queues :=
  foldl_queues (fun u l => u.applyLine_queues l _) _ s

@[simp] theorem State.completeReset_queues (s : State) : s.completeReset.queues = s.queues := by
  have h := s.lcuComplete_queues
  unfold State.completeReset
  generalize s.lcuComplete = t at h ⊢
  simp only [State.answer_queues, State.setReset_queues, State.emit_queues]
  exact h

/-! ### GFU -/

@[simp] theorem State.actFloor_queues (s : State) (g : Grp) (act : FloorAct → FloorAct) :
    (s.actFloor g act).queues = s.queues := rfl
@[simp] theorem State.takeFloor_queues (s : State) (p : Pos) (g : Grp) (latched : Bool) (o : Origin) :
    (s.takeFloor p g latched o).queues = s.queues := rfl
@[simp] theorem State.setAttached_queues (s : State) (g : Grp) (ls : List Line) : (s.setAttached g ls).queues = s.queues := rfl
@[simp] theorem State.setListening_queues (s : State) (m : Listening) : (s.setListening m).queues = s.queues := rfl
@[simp] theorem State.tellLcu_queues (s : State) (m : AttachToLcu) : (s.tellLcu m).queues = s.queues := rfl
@[simp] theorem State.leaveGroup_queues (s : State) (g : Grp) (p : Pos) : (s.leaveGroup g p).queues = s.queues := rfl
@[simp] theorem State.endCall_queues (s : State) (c : CallNo) (p q : Pos) (o : Sends) : (s.endCall c p q o).queues = s.queues := rfl

@[simp] theorem State.voxActive_queues (s : State) (p : Pos) : (s.voxActive p).queues = s.queues := by
  unfold State.voxActive
  repeat' split
  all_goals rfl

@[simp] theorem State.voxQuiet_queues (s : State) (p : Pos) : (s.voxQuiet p).queues = s.queues := by
  unfold State.voxQuiet
  split <;> rfl

theorem State.nextVox_queues {s t : State} {p : Pos} {on : Bool} (h : s.nextVox p on = some t) : t.queues = s.queues := by
  unfold State.nextVox at h
  repeat' split at h
  · obtain rfl := Option.some.inj h
    rfl
  all_goals simp at h

theorem State.nextListening_queues {s t : State} {on : Bool} {m : Listening} (h : s.nextListening on = some (m, t)) :
    t.queues = s.queues := by
  unfold State.nextListening at h
  repeat' split at h
  case h_2.isTrue =>
    obtain ⟨-, rfl⟩ := Prod.ext_iff.mp (Option.some.inj h)
    rfl
  all_goals simp at h

theorem State.nextAttach_queues {s t : State} {l : Line} {m : AttachToGfu} (h : s.nextAttach l = some (m, t)) :
    t.queues = s.queues := by
  obtain ⟨_, -, e⟩ := Option.map_eq_some_iff.mp h
  obtain ⟨-, rfl⟩ := Prod.ext_iff.mp e
  rfl

@[simp] theorem State.configGroup_queues (s : State) (g : Grp) (c : GroupConfig) : (s.configGroup g c).queues = s.queues := by
  have hlose (kind : GroupKind) (u : State) (p : Pos) : (u.loseStanding kind g p).queues = u.queues := by
    unfold State.loseStanding
    repeat' split
    all_goals rfl
  have h (ps : List Pos) : (ps.foldl (fun u p => u.loseStanding (s.group g).kind g p)
      (s.setGroup g ((s.group g).configured c))).queues = s.queues := foldl_queues (hlose _) ps _
  simp only [State.configGroup]
  repeat' split
  all_goals simp [h]

@[simp] theorem State.gfuJoin_queues (s : State) (p : Pos) (h : Handset) (v : Via) (g : Grp) :
    (s.gfuJoin p h v g).queues = s.queues := by
  unfold State.gfuJoin
  split <;> rfl

@[simp] theorem State.gfuCall_queues (s : State) (p : Pos) (h : Handset) (v : Via) (callee : Byte) (voice : Bool) :
    (s.gfuCall p h v callee voice).queues = s.queues := by
  unfold State.gfuCall
  split <;> rfl

@[simp] theorem State.gfuAnswer_queues (s : State) (p : Pos) (h : Handset) (v : Via) (c : CallNo) :
    (s.gfuAnswer p h v c).queues = s.queues := by
  unfold State.gfuAnswer
  repeat' split
  all_goals rfl

@[simp] theorem State.queryGroupRec_queues (s : State) (n : Port) (b : Byte) (body : GroupRec → List Byte) :
    (s.queryGroupRec n b body).queues = s.queues := by
  unfold State.queryGroupRec
  repeat' split
  all_goals simp

@[simp] theorem State.gfuDown_queues (s : State) (p : Pos) : (s.gfuDown p).queues = s.queues := by
  rw [s.gfuDown_whole p]
  rfl

/-! ### Either owner -/

theorem State.leave_queues {s t : State} {p : Pos} {h : Handset} {c : Claim} (e : s.leave p h c = some t) :
    t.queues = s.queues := by
  cases c with
  | none | pending => simp [State.leave] at e
  | line l =>
    obtain ⟨_, -, rfl⟩ := Option.map_eq_some_iff.mp e
    rfl
  | group g =>
    obtain ⟨-, rfl⟩ : _ ∧ s.leaveGroup g p = t := by simpa [State.leave, State.leaveJoined] using e
    rfl
  | call n =>
    simp only [State.leave, State.leaveCall] at e
    repeat' split at e
    all_goals cases e
    all_goals rfl

@[simp] theorem State.ownerRelease_queues (s : State) (p : Pos) (h : Handset) (v : Via) (c : Claim) :
    (s.ownerRelease p h v c).queues = s.queues := by
  unfold State.ownerRelease
  split
  · simp
  · next e => simp [State.leave_queues e]

@[simp] theorem State.ownerReturn_queues (s : State) (o : Owner) (p : Pos) (h : Handset) (c : Claim) :
    (s.ownerReturn o p h c).queues = s.queues := by
  unfold State.ownerReturn
  split
  · rfl
  · next e => simp [State.leave_queues e]

@[simp] theorem State.answerSpeaker_queues (s : State) (p : Pos) (k : Spk) (t : Target) :
    (s.answerSpeaker p k t).queues = s.queues := by
  cases t <;> rfl

/-! ### PTB -/

@[simp] theorem State.takeOutcome_queues (s : State) (o : Owner) (p : Pos) (h : Handset) (v : Via) (x : Claim ⊕ Code) :
    (s.takeOutcome o p h v x).queues = s.queues := by
  cases x
  · simp only [State.takeOutcome]
    split <;> simp
  · simp [State.takeOutcome]

@[simp] theorem State.assignTo_queues (s : State) (p : Pos) (k : Spk) (t : Target) : (s.assignTo p k t).queues = s.queues := rfl
@[simp] theorem State.setAsking_queues (s : State) (p : Pos) (k : Spk) (m : Option Asking) :
    (s.setAsking p k m).queues = s.queues := rfl
@[simp] theorem State.askSpeaker_queues (s : State) (p : Pos) (v : Via) (k : Spk) (o : Owner) (t : Target) :
    (s.askSpeaker p v k o t).queues = s.queues := State.forward_queues ..

@[simp] theorem State.takeAnswer_queues (s : State) (p : Pos) (k : Spk) (t : Target) (x : Option Code) (early : Bool) :
    (s.takeAnswer p k t x early).queues = s.queues := by
  cases h : (s.pos p).asking.look k with
  | none => simp [State.takeAnswer, h]
  | some m =>
    obtain ⟨c, e, -⟩ | ⟨-, -, -, -, -, e⟩ := State.takeAnswer_cases s h t x early <;> rw [e] <;> simp

@[simp] theorem State.offTarget_queues (s : State) (p : Pos) (t : Target) : (s.offTarget p t).queues = s.queues := by
  simp only [State.offTarget]
  split <;> rfl

@[simp] theorem State.setVolume_queues (s : State) (r : Requester) (p : Option Pos) (b : List Byte) :
    (s.setVolume r p b).queues = s.queues := by
  unfold State.setVolume
  split <;> simp

/-! ### SQU, RTU and CMX -/

@[simp] theorem State.endRun_queues (s : State) (p : Pos) (e : Event) : (s.endRun p e).queues = s.queues := rfl
@[simp] theorem State.submit_queues (s : State) (p : Pos) (q : Submission) : (s.submit p q).queues = s.queues := rfl

@[simp] theorem State.seqStep_queues (s : State) (p : Pos) (k : StepNo) (done : Nat) : (s.seqStep p k done).queues = s.queues := by
  unfold State.seqStep
  split <;> simp

@[simp] theorem State.begin_queues (s : State) (p : Pos) (k first : StepNo) (done : Nat) :
    (s.begin p k first done).queues = s.queues := by
  unfold State.begin
  generalize Config.runLimit + 1 = fuel
  induction fuel generalizing s k done with
  | zero => rfl
  | succ n ih =>
    simp only [State.beginStep]
    repeat' split
    all_goals simp [ih]

@[simp] theorem State.goOn_queues (s : State) (p : Pos) (k first : StepNo) (done : Nat) :
    (s.goOn p k first done).queues = s.queues := by
  unfold State.goOn
  split <;> simp

@[simp] theorem State.stepOutcome_queues (s : State) (p : Pos) (k first : StepNo) (abort : Bool) (done : Nat) (c : Code) :
    (s.stepOutcome p k first abort done c).queues = s.queues := by
  simp only [State.stepOutcome]
  repeat' split
  all_goals simp

@[simp] theorem State.moveFaults_queues (s : State) (r : TapNo) (cs : List Cover) (on quiet : Bool) :
    (s.moveFaults r cs on quiet).queues = s.queues := by
  have h (l : List Cover) : (l.foldl (fun u c => u.setFault c.pos c.hs on) s).queues = s.queues :=
    foldl_queues (fun u c => show (u.setFault c.pos c.hs on).queues = u.queues from rfl) l s
  simp only [State.moveFaults]
  repeat' split
  all_goals simp [h]

@[simp] theorem State.answerLcu_queues (s : State) (p : Pos) (h : Handset) (granted : Bool) :
    (s.answerLcu p h granted).queues = s.queues := rfl

@[simp] theorem State.reserve_queues (s : State) (p : Pos) (h : Handset) (l : Line) (d : Direction) :
    (s.reserve p h l d).queues = s.queues := by
  simp only [State.reserve]
  repeat' split
  all_goals simp

@[simp] theorem State.releaseCover_queues (s : State) (c : Cover) (ofReset : Bool) :
    (s.releaseCover c ofReset).queues = s.queues := by
  unfold State.releaseCover
  split <;> simp

@[simp] theorem State.recorderChange_queues (s : State) (r : TapNo) (present : Bool) :
    (s.recorderChange r present).queues = s.queues := by
  simp only [State.recorderChange]
  split <;> simp

@[simp] theorem State.lockTo_queues (s : State) (n : Port) (r : TapNo) (l : Lock) : (s.lockTo n r l).queues = s.queues :=
  State.answer_queues ..

@[simp] theorem State.install_queues (s : State) (d : Derivation) : (s.install d).queues = s.queues := by
  rw [State.install_eq]
  simp only [State.emit_queues]
  rfl

end Sys2Proof.Machine
end

section
/-! What every command keeps of the two limits of O56 (R158, R161, R168): the room of the request queues, and EVU's queues and
images. -/

namespace Sys2Proof.Machine

/-- What O56 says of EVU's record of one port, beside the port's own record; `waits` says that a down notice of the port is on
its way to EVU. -/
structure EventPort.Fits (e : EventPort) (r : PortRec) (waits : Prop) : Prop where
  room : e.queue.length ≤ Config.eventRoom
  empty : e.up = false → e.queue = []
  timer : r.upTimer.isSome = true → r.up = false
  image : r.up = false → e.up = false ∨ waits

theorem State.eventsFit_iff {s : State} : s.EventsFit ↔ ∀ n, (s.events n).Fits (s.port n) (n ∈ s.chan.downEvu) :=
  forall_congr' fun _ => ⟨fun ⟨h1, h2, h3, h4⟩ => ⟨h1, h2, h3, h4⟩, fun h => ⟨h.room, h.empty, h.timer, h.image⟩⟩

/-- A port record that goes on from another with the same standing: its queue still fits, and its up timer runs on a DOWN port
alone. -/
structure PortRec.Follows (r x : PortRec) : Prop where
  up : r.up = x.up
  room : x.queue.length ≤ Config.requestRoom → r.queue.length ≤ Config.requestRoom
  timer : (x.upTimer.isSome = true → x.up = false) → r.upTimer.isSome = true → r.up = false

theorem PortRec.Follows.of_eq {r x : PortRec} (hu : r.up = x.up) (hq : r.queue = x.queue) (ht : r.upTimer = x.upTimer) :
    r.Follows x := ⟨hu, by rw [hq]; exact id, by rw [hu, ht]; exact id⟩

/-- EVU's record of a port that goes on from another: its queue still fits and is empty on a DOWN image, and a DOWN image stays
so. -/
structure EventPort.Follows (e x : EventPort) : Prop where
  room : x.queue.length ≤ Config.eventRoom → e.queue.length ≤ Config.eventRoom
  empty : (x.up = false → x.queue = []) → e.up = false → e.queue = []
  image : x.up = false → e.up = false

/-- The next state keeps both limits. -/
structure State.HoldsQueues (s t : State) : Prop where
  requests : s.RequestsFit → t.RequestsFit
  events : s.EventsFit → t.EventsFit

namespace State.HoldsQueues

theorem trans {s t u : State} (h : s.HoldsQueues t) (k : t.HoldsQueues u) : s.HoldsQueues u :=
  ⟨k.requests ∘ h.requests, k.events ∘ h.events⟩

theorem of_queues {s t : State} (h : t.queues = s.queues) : s.HoldsQueues t := by
  obtain ⟨hp, he, hd⟩ : _ ∧ t.evu = s.evu ∧ t.chan.downEvu = s.chan.downEvu := by
    simpa only [State.queues, Prod.mk.injEq] using h
  have hport n : (t.port n).queue = (s.port n).queue ∧ (t.port n).up = (s.port n).up
      ∧ (t.port n).upTimer = (s.port n).upTimer := by
    simpa only [Prod.mk.injEq] using congrFun hp n
  refine ⟨fun hs n => ?_, fun hs n => ?_⟩
  · obtain ⟨hq, -, -⟩ := hport n
    exact hq ▸ hs n
  · obtain ⟨-, hu, ht⟩ := hport n
    rw [State.events, he, hu, ht, hd]
    exact hs n

theorem refl (s : State) : s.HoldsQueues s := of_queues rfl

/-- What comes after and leaves the queues alone makes no difference. -/
theorem then_queues {s t u : State} (h : s.HoldsQueues t) (e : u.queues = t.queues) : s.HoldsQueues u := h.trans (of_queues e)

theorem answer (s : State) (r : Requester) (c : Code) (b : List Byte) : s.HoldsQueues (s.answer r c b) :=
  of_queues (State.answer_queues ..)

/-- A change of one port record. -/
theorem setPort {s : State} {n : Port} {r : PortRec} (h : r.Follows (s.port n)) : s.HoldsQueues (s.setPort n r) := by
  refine ⟨fun hs m => ?_, fun hs => State.eventsFit_iff.mpr fun m => ?_⟩
  · rw [State.setPort_port]
    split
    · exact h.room (hs n)
    · exact hs m
  · obtain hm := State.eventsFit_iff.mp hs m
    rw [State.setPort_port]
    split
    · next e => subst e; exact ⟨hm.room, hm.empty, h.timer hm.timer, h.up ▸ hm.image⟩
    · exact hm

/-- A change of EVU's record of one port. -/
theorem setEvents {s : State} {n : Port} {e : EventPort} (h : e.Follows (s.events n)) : s.HoldsQueues (s.setEvents n e) := by
  refine ⟨id, fun hs => State.eventsFit_iff.mpr fun m => ?_⟩
  have hm := State.eventsFit_iff.mp hs m
  rw [State.setEvents_events]
  split
  · next e => subst e; exact ⟨h.room hm.room, h.empty hm.empty, hm.timer, fun hu => (hm.image hu).imp_left h.image⟩
  · exact hm

theorem foldl {α : Type} {f : State → α → State} (h : ∀ (u : State) a, u.HoldsQueues (f u a)) (l : List α) (s : State) :
    s.HoldsQueues (l.foldl f s) := by
  induction l generalizing s with
  | nil => exact .refl s
  | cons a l ih => exact (h s a).trans (ih _)

/-! ### Requests -/

/-- The dispatcher takes a frame out of the queue (R166). -/
theorem takeFrame (s : State) (n : Port) (f : Frame) : s.HoldsQueues (s.takeFrame n f) := by
  refine (setPort (n := n) (r := { s.port n with queue := (s.port n).queue.tail }) ⟨rfl, fun hq => ?_, id⟩).then_queues ?_
  · simp only [List.length_tail]
    omega
  · refine State.queues_eq (fun m => ?_) rfl rfl
    rw [State.takeFrame_port, State.setPort_port]
    split <;> exact ⟨rfl, rfl, rfl⟩

theorem dispatchIf {k : ReqKind} {n : Port} {ok : List Byte → Bool} {own : List Byte → State → State}
    (h : ∀ b (t : State), t.HoldsQueues (own b t)) (s : State) : s.HoldsQueues (s.dispatchIf k n ok own) :=
  State.dispatchIf_preserves (s.HoldsQueues ·) (fun _ _ _ ht => ht.trans (takeFrame ..))
    (fun _ _ _ _ ht => ht.trans (answer ..)) (fun b t ht => ht.trans (h b t)) s (.refl s)

theorem request {k : ReqKind} {r : Requester} {own : Pos → Via → List Byte → State → State}
    (h : ∀ p v b (t : State), (own p v b t).queues = t.queues) (s : State) : s.HoldsQueues (s.request k r own) :=
  State.request_preserves (s.HoldsQueues ·) (fun _ _ _ ht => ht.trans (takeFrame ..))
    (fun _ _ _ _ ht => ht.trans (answer ..)) (fun _ _ ht => ht.then_queues rfl)
    (fun p v b t ht => ht.then_queues (h p v b t)) s (.refl s)

theorem takeStep {k : ReqKind} {p : Pos} {own : List Byte → State → State}
    (h : ∀ b (t : State), (own b t).queues = t.queues) (s : State) : s.HoldsQueues (s.takeStep k p own) := by
  unfold State.takeStep
  repeat' split
  case isTrue => exact of_queues (h ..)
  all_goals exact .refl s

theorem portRequest {n : Port} {b : Byte} {own : Port → State → State} (h : ∀ m (t : State), t.HoldsQueues (own m t))
    (s : State) : s.HoldsQueues (s.portRequest n b own) := by
  unfold State.portRequest
  repeat' split
  case h_2 => exact h _ s
  all_goals exact .answer ..

theorem tapRequest {k : ReqKind} {n : Port} {own : TapNo → List Byte → State → State}
    (h : ∀ r b (t : State), (own r b t).queues = t.queues) (s : State) : s.HoldsQueues (s.tapRequest k n own) := by
  unfold State.tapRequest
  refine dispatchIf (fun b t => ?_) s
  split
  · exact .answer ..
  · exact of_queues (h ..)

theorem ownerReset {taken : ResetProgress → Bool} {mark : ResetProgress → ResetProgress} {act : State → State} {s : State}
    (h : (act s).queues = s.queues) : s.HoldsQueues (s.ownerReset taken mark act) := by
  unfold State.ownerReset
  repeat' split
  case h_2.isFalse => exact of_queues h
  all_goals exact .refl s

end State.HoldsQueues

open State (HoldsQueues)

/-! ### Receivers (R156 to R158, R163, R164) -/

theorem PortRec.sends_follows (r : PortRec) (bytes : List Byte) : (r.sends bytes).Follows r := by
  unfold PortRec.sends
  split <;> exact .of_eq rfl rfl rfl

theorem PortRec.begin_follows (r : PortRec) (k : TxKind) (f : Frame) : (r.begin k f).Follows r := by
  unfold PortRec.begin PortRec.sends
  split <;> exact .of_eq rfl rfl rfl

theorem PortRec.flagged_follows (r : PortRec) (o : LoopOutcome) : (r.flagged o).Follows r := by
  cases o <;> exact .of_eq rfl rfl rfl

theorem PortRec.Follows.trans {r x y : PortRec} (h : r.Follows x) (k : x.Follows y) : r.Follows y :=
  ⟨h.up.trans k.up, h.room ∘ k.room, h.timer ∘ k.timer⟩

/-- A good frame joins a queue that has room (R158). -/
theorem PortRec.deliver_follows (r : PortRec) (buf : List Byte) : (r.deliver buf).Follows r := by
  unfold PortRec.deliver
  repeat' split
  case isTrue.isTrue hroom => exact ⟨rfl, fun _ => by simpa using hroom, id⟩
  all_goals exact .of_eq rfl rfl rfl

theorem State.endTest_queues (s : State) (n : Port) (o : LoopOutcome) : (s.endTest n o).queues = s.queues := by
  unfold State.endTest
  repeat' split
  case h_1.isTrue => exact State.setPort_queues rfl rfl rfl
  all_goals rfl

theorem State.rxEvent_holdsQueues (s : State) (n : Port) (e : RxEvent) : s.HoldsQueues (s.rxEvent n e) := by
  cases e with
  | lost => exact .setPort ⟨rfl, id, fun _ h => by simp [PortRec.lose] at h⟩
  | opened | aborted => exact .refl s
  | failed => exact (HoldsQueues.setPort (PortRec.flagged_follows ..)).then_queues (State.endTest_queues ..)
  | closed buf =>
    refine (HoldsQueues.setPort ?_).then_queues (State.endTest_queues ..)
    split
    · exact (PortRec.deliver_follows ..).trans (PortRec.flagged_follows ..)
    · exact PortRec.flagged_follows ..

theorem State.hear_holdsQueues (s : State) (n : Port) (due : RxState) (bytes : List Byte) (named : RxEvent → Bool) :
    s.HoldsQueues (s.hear n due bytes named) := by
  have hevents (r : PortRec) (h : r.Follows (s.port n)) (es : List RxEvent) :
      s.HoldsQueues (es.foldl (fun u e => u.rxEvent n e) (s.setPort n r)) :=
    (HoldsQueues.setPort h).trans (.foldl (fun u e => State.rxEvent_holdsQueues u n e) es _)
  rcases s.hear_cases n due bytes named with e | ⟨-, -, e⟩ | ⟨-, -, e⟩ <;> rw [e]
  · exact .refl s
  · rcases s.takeLoop_cases n (bytesTaken (s.port n).rx bytes named) named with e | ⟨x, _, _, _, -, -, -, e⟩ <;> rw [e]
    · exact .refl s
    · refine hevents _ ?_ _
      exact .of_eq rfl rfl rfl
  · refine hevents _ ?_ _
    exact .of_eq rfl rfl rfl

theorem State.takeOpen_queues (s : State) (n : Port) : (s.takeOpen n).queues = s.queues := by
  rcases s.takeOpen_cases n with e | ⟨x, rest, -, e⟩ <;> rw [e]
  exact State.setPort_queues rfl rfl rfl

/-! ### EVU's records (R168 to R171) -/

theorem EventPort.Follows.refl (q : EventPort) : q.Follows q := ⟨id, id, id⟩

/-- One more record, on an UP port with room (R168). -/
theorem EventPort.Follows.enqueue {q x : EventPort} (h : x.Follows q) (hup : x.up = true)
    (hroom : x.queue.length < Config.eventRoom) (e : Event) : EventPort.Follows { x with queue := x.queue ++ [e] } q :=
  ⟨fun _ => by simpa using hroom, fun _ hdown => by simp [hup] at hdown, h.image⟩

/-- A record is placed where there is room, on an UP port (R168). -/
theorem EventPort.place_follows (q : EventPort) (e : Event) : (q.place e).Follows q := by
  unfold EventPort.place
  repeat' split
  case h_2.isFalse.isFalse.isFalse hup _ hroom =>
    exact (Follows.refl q).enqueue (by simpa using hup) (by simpa using hroom) e
  all_goals exact ⟨id, id, id⟩

/-- Records leave a queue from its front (R169). -/
theorem EventPort.drop_follows (q : EventPort) (k : Nat) : EventPort.Follows { q with queue := q.queue.drop k } q :=
  ⟨fun h => by simp only [List.length_drop]; omega, fun h hu => by simp [h hu], id⟩

/-- A queue that is emptied, whatever the marks and the mask. -/
theorem EventPort.Follows.of_empty {e x : EventPort} (hq : e.queue = []) (hu : x.up = false → e.up = false) : e.Follows x :=
  ⟨fun _ => by simp [hq], fun _ _ => hq, hu⟩

/-- A SUMMARY record is queued on an UP port with room alone (R170). -/
theorem EventPort.summaries_follows (q : EventPort) (masked : Table 5 Bool) : (q.summaries masked).Follows q := by
  unfold EventPort.summaries
  generalize [EventClass.line, .floor, .call, .sequence, .system] = cs
  suffices h : ∀ x : EventPort, x.Follows q → x.up = q.up → EventPort.Follows (cs.foldl _ x) q from h q (.refl q) rfl
  induction cs with
  | nil => exact fun x hx _ => hx
  | cons c cs ih =>
    intro x hx hu
    simp only [List.foldl_cons]
    split
    · next hc =>
      simp only [Bool.and_eq_true, decide_eq_true_eq] at hc
      obtain ⟨⟨-, hup⟩, hroom⟩ := hc
      exact ih _ (hx.enqueue (hu.trans hup) hroom _) hu
    · exact ih _ hx hu

/-! ### Standing (R160, R161, R163, R168) -/

/-- Once EVU has taken a down notice of a port it holds the port DOWN (R168). -/
theorem State.evuDown_holdsQueues (s : State) (n : Port) : s.HoldsQueues (s.evuDown n) := by
  unfold State.evuDown
  split
  · exact .refl s
  · next a rest htake =>
    obtain ⟨ha, front, back, hall, hrest, -⟩ := takeFirst_some htake
    obtain rfl : a = n := by simpa using ha
    refine ⟨id, fun hs => State.eventsFit_iff.mpr fun m => ?_⟩
    have hm := State.eventsFit_iff.mp hs m
    rw [State.setEvents_events]
    split
    · exact ⟨by simp [EventPort.down], fun _ => rfl, hm.timer, fun _ => .inl rfl⟩
    · next hne =>
      refine ⟨hm.room, hm.empty, hm.timer, fun hu => (hm.image hu).imp_right fun hmem => ?_⟩
      rw [hall] at hmem
      simpa [hrest, Ne.symm hne] using hmem

/-- A port goes DOWN with a notice on its way to EVU (R160, R168). -/
theorem State.portDown_holdsQueues (s : State) (n : Port) : s.HoldsQueues (s.portDown n) := by
  have h : s.HoldsQueues ((s.setPort n (s.port n).down).setChan { s.chan with downEvu := s.chan.downEvu ++ [n] }) := by
    refine ⟨fun hs m => ?_, fun hs => State.eventsFit_iff.mpr fun m => ?_⟩
    · rw [State.setChan_port, State.setPort_port]
      split
      · simp [PortRec.down]
      · exact hs m
    · have hm := State.eventsFit_iff.mp hs m
      rw [State.setChan_port, State.setPort_port]
      split
      · next e => subst e; exact ⟨hm.room, hm.empty, fun _ => rfl, fun _ => .inr (by simp)⟩
      · exact ⟨hm.room, hm.empty, hm.timer, fun hu => (hm.image hu).imp_right fun hmem => by simpa using .inl hmem⟩
  unfold State.portDown
  dsimp only
  split
  · exact h.then_queues rfl
  · exact h.then_queues rfl

/-- A DOWN port's image is DOWN once EVU has taken the down notice that may be on its way (R168). -/
theorem State.evuDown_image {s : State} {n : Port} (hs : s.EventsFit) (hdown : (s.port n).up = false) :
    ((s.evuDown n).events n).up = false := by
  obtain him | hmem := (State.eventsFit_iff.mp hs n).image hdown
  all_goals
    unfold State.evuDown
    split
  · exact him
  · rw [State.setEvents_events, if_pos rfl]
    rfl
  · next hnone => exact absurd (takeFirst_eq_none.mp hnone n hmem) (by simp)
  · rw [State.setEvents_events, if_pos rfl]
    rfl

/-- Of a port that goes UP, the queues are those that LKI and EVU leave: PTB's part does not touch them. -/
theorem State.portUp_queues (s : State) (n : Port) : (s.portUp n).queues =
    (((s.evuDown n).setPort n { s.port n with up := true, upTimer := none }).setEvents n
      (((s.evuDown n).events n).raised n)).queues := by
  have hcomm : (s.setPort n { s.port n with up := true, upTimer := none }).evuDown n
      = (s.evuDown n).setPort n { s.port n with up := true, upTimer := none } := by
    unfold State.evuDown
    rw [State.setPort_chan]
    split <;> rfl
  have hcatch (u : State) (p : Pos) : (u.ptbCatchUp p).queues = u.queues := by
    unfold State.ptbCatchUp
    split <;> rfl
  unfold State.portUp
  rw [hcomm]
  dsimp only
  split
  · rfl
  · exact hcatch _ _

/-- A port that has been DOWN goes UP: EVU holds it DOWN by then, with an empty queue, and queues LINK_UP alone (R161, R168). -/
theorem State.portUp_holdsQueues {s : State} {n : Port} (hran : (s.port n).upTimer.isSome = true) : s.HoldsQueues (s.portUp n) := by
  refine HoldsQueues.then_queues ⟨fun hs m => ?_, fun hs => State.eventsFit_iff.mpr fun m => ?_⟩ (s.portUp_queues n)
  all_goals
    rw [State.setEvents_port, State.setPort_port]
    have ht := s.evuDown_holdsQueues n
  · split
    · exact hs n
    · exact ht.requests hs m
  · have hm := State.eventsFit_iff.mp (ht.events hs) m
    rw [State.setEvents_events]
    split
    · next e =>
      subst e
      have hempty := hm.empty (State.evuDown_image hs ((State.eventsFit_iff.mp hs n).timer hran))
      refine ⟨?_, fun h => by simp [EventPort.raised] at h, fun h => by simp at h, fun h => by simp at h⟩
      simp only [EventPort.raised, hempty]
      split <;> simp [Config.eventRoom]
    · exact hm

theorem State.changeMode_holdsQueues (s : State) (n : Port) (m : PortMode) : s.HoldsQueues (s.changeMode n m) := by
  have hmode (t : State) : t.HoldsQueues (t.setPort n ((t.port n).toMode m)) :=
    .setPort ⟨rfl, fun _ => by simp [PortRec.toMode], fun _ h => by simp [PortRec.toMode] at h⟩
  unfold State.changeMode
  dsimp only
  split
  · exact (s.portDown_holdsQueues n).trans (hmode _)
  · refine HoldsQueues.trans (.setPort ?_) (hmode _)
    exact .of_eq rfl rfl rfl

end Sys2Proof.Machine
end

section
/-! O56, command by command. -/

namespace Sys2Proof.Machine

open State (HoldsQueues)

/-- A tick leaves the queues alone, and an up timer that runs goes on running (R2). -/
theorem State.tick_holdsQueues (s : State) : s.HoldsQueues s.tick := by
  have hport (n : Port) : s.tick.port n = (s.port n).tick := Table.look_build ..
  refine ⟨fun hs n => ?_, fun hs => State.eventsFit_iff.mpr fun n => ?_⟩
  · rw [hport]
    exact hs n
  · have hn := State.eventsFit_iff.mp hs n
    rw [hport]
    exact ⟨hn.room, hn.empty, fun h => hn.timer (by simpa [PortRec.tick, Timer.next] using h), hn.image⟩

/-- Phase 1 of a soft reset leaves SYSTEM_RESET alone on the queue of an UP port, and nothing on that of a DOWN port (R168,
R174). -/
theorem State.startReset_holdsQueues (s : State) : s.HoldsQueues s.startReset := by
  have hevents (n : Port) : s.startReset.events n = (s.events n).soft := Table.look_build ..
  refine ⟨id, fun hs => State.eventsFit_iff.mpr fun n => ?_⟩
  have hn := State.eventsFit_iff.mp hs n
  rw [hevents]
  refine ⟨?_, fun hu => ?_, hn.timer, hn.image⟩
  · simp only [EventPort.soft]
    split <;> simp [Config.eventRoom]
  · have hu : (s.events n).up = false := hu
    simp [EventPort.soft, hu]

theorem State.resetPort_holdsQueues (s : State) (m : Port) : s.HoldsQueues (s.resetPort m) := by
  refine (HoldsQueues.setPort ?_).trans (.setEvents (.of_empty rfl id))
  exact ⟨rfl, fun _ => by simp, id⟩

theorem Timer.isSome_of_ran {t : Timer} (h : t.ran = true) : t.isSome = true := by
  obtain rfl : t = some 0 := by simpa [Timer.ran] using h
  rfl

/-- The commands that take no frame of a request queue and concern neither LKI nor EVU. -/
def Instr.sparesQueues : Instr → Bool
  | .farSeizeChange .. | .qualifyExpiry .. | .answerExpiry .. | .ringOutExpiry .. | .holdRecallExpiry .. | .guardExpiry ..
  | .talkReport .. | .positionDownAtLcu .. | .positionDownAtPtb .. | .positionDownAtSqu .. | .attachQuestion ..
  | .attachOutcome .. | .holdTimerExpiry .. | .changeNotice .. | .derivationStart | .audioFrame .. | .standingUpNotice ..
  | .callAlertExpiry .. | .reservationAnswer .. | .coverageReservation | .coverageRelease | .recorderPresentChange ..
  | .listInstall | .softResetCompletion | .pauseExpiry .. | .positionDownAtGfu .. | .stepOutcome .. | .takeLineAtLcu ..
  | .holdAtLcu .. | .joinGroupAtGfu .. | .callPositionAtGfu .. | .answerCallAtGfu .. | .returnNotice .. | .releaseAtOwner ..
  | .finalClaim .. | .releaseNotice .. | .assignmentAnswer .. | .removalNotice .. | .speakerQuestion .. | .attachAnswer ..
  | .hootLineRemoval .. | .listenOn | .listenOff | .voxActiveReport .. | .voxQuietReport .. => true
  | _ => false

theorem exec_queues {i : Instr} (hi : Instr.sparesQueues i = true) (s : State) :
    ∃ t, exec i s = .next t ∧ t.queues = s.queues := by
  cases i with
  -- One record of LCU, GFU, CMX, SQU or RTU moves, or one of PTB.
  | farSeizeChange | qualifyExpiry | answerExpiry | ringOutExpiry | holdRecallExpiry | guardExpiry | talkReport
  | positionDownAtLcu | positionDownAtPtb | positionDownAtSqu | attachQuestion | attachOutcome | holdTimerExpiry | changeNotice
  | derivationStart | audioFrame | standingUpNotice | callAlertExpiry =>
    simp only [exec, execFarSeizeChange, execQualifyExpiry, execAnswerExpiry, execRingOutExpiry, execHoldRecallExpiry,
      execGuardExpiry, execTalkReport, execPositionDownAtLcu, execPositionDownAtPtb, execPositionDownAtSqu, execAttachQuestion,
      execAttachOutcome, execHoldTimerExpiry, execChangeNotice, execDerivationStart, execAudioFrame, execStandingUpNotice,
      execCallAlertExpiry]
    repeat' split
    all_goals exact ⟨_, rfl, rfl⟩
  | reservationAnswer p h =>
    change ∃ t, execReservationAnswer p h s = .next t ∧ _
    unfold execReservationAnswer
    split
    · exact ⟨_, rfl, State.lcuAnswer_queues ..⟩
    · exact ⟨_, rfl, rfl⟩
  | coverageReservation | coverageRelease | recorderPresentChange | listInstall | softResetCompletion | pauseExpiry =>
    simp only [exec, execCoverageReservation, execCoverageRelease, execRecorderPresentChange, execListInstall,
      execSoftResetCompletion, execPauseExpiry]
    repeat' split
    all_goals exact ⟨_, rfl, by simp [State.setChan_queues]⟩
  | positionDownAtGfu p =>
    change ∃ t, execPositionDownAtGfu p s = .next t ∧ _
    unfold execPositionDownAtGfu
    split
    · exact ⟨_, rfl, rfl⟩
    · exact ⟨_, rfl, State.gfuDown_queues ..⟩
  | stepOutcome p =>
    change ∃ t, execStepOutcome p s = .next t ∧ _
    cases ho : s.chan.outcomes.look p with
    | none => exact ⟨s, by simp only [execStepOutcome, ho], rfl⟩
    | some c =>
      rcases hr : (s.runOf p).state with _ | ⟨k, first, abort⟩ | _ | _ <;> simp only [execStepOutcome, ho, hr]
      case waiting => exact ⟨_, rfl, State.stepOutcome_queues ..⟩
      all_goals exact ⟨_, rfl, rfl⟩
  -- A message of another block is taken from its path.
  | takeLineAtLcu | holdAtLcu | joinGroupAtGfu | callPositionAtGfu | answerCallAtGfu | returnNotice | releaseAtOwner =>
    simp only [exec, execTakeLineAtLcu, execHoldAtLcu, execJoinGroupAtGfu, execCallPositionAtGfu, execAnswerCallAtGfu,
      execReturnNotice, execReleaseAtOwner]
    split
    · next e =>
      have ht := State.nextForHandset_queues e
      repeat' split
      all_goals exact ⟨_, rfl, by simp [ht]⟩
    · exact ⟨_, rfl, rfl⟩
  | finalClaim | releaseNotice =>
    simp only [exec, execFinalClaim, execReleaseNotice]
    split
    · next e => exact ⟨_, rfl, by simp [State.heardOfHandset_queues e]⟩
    · exact ⟨_, rfl, rfl⟩
  | assignmentAnswer | removalNotice =>
    simp only [exec, execAssignmentAnswer, execRemovalNotice]
    split
    · next e => exact ⟨_, rfl, by simp [State.heardOfSpeakers_queues e]⟩
    · exact ⟨_, rfl, rfl⟩
  | speakerQuestion =>
    simp only [exec, execSpeakerQuestion]
    split
    · next e => exact ⟨_, rfl, by simp [State.nextForSpeaker_queues e]⟩
    · exact ⟨_, rfl, rfl⟩
  | attachAnswer | hootLineRemoval =>
    simp only [exec, execAttachAnswer, execHootLineRemoval]
    split
    · next e =>
      have ht := State.nextAttach_queues e
      repeat' split
      all_goals exact ⟨_, rfl, by simp [ht]⟩
    · exact ⟨_, rfl, rfl⟩
  | listenOn | listenOff =>
    simp only [exec, execListenOn, execListenOff]
    split
    · next e =>
      have ht := State.nextListening_queues e
      repeat' split
      all_goals exact ⟨_, rfl, by simp [ht]⟩
    · exact ⟨_, rfl, rfl⟩
  | voxActiveReport | voxQuietReport =>
    simp only [exec, execVoxActiveReport, execVoxQuietReport]
    split
    · next e => exact ⟨_, rfl, by simp [State.nextVox_queues e]⟩
    · exact ⟨_, rfl, rfl⟩
  | _ => exact absurd hi Bool.false_ne_true

theorem exec_holdsQueues (i : Instr) (s : State) : ∃ t, exec i s = .next t ∧ s.HoldsQueues t := by
  by_cases hi : Instr.sparesQueues i = true
  · obtain ⟨t, ht, hqueues⟩ := exec_queues hi s
    exact ⟨t, ht, .of_queues hqueues⟩
  cases i with
  | powerOnReset far present =>
    exact ⟨_, rfl, fun _ => State.poweredOn_requestsFit far present _, fun _ => State.poweredOn_eventsFit far present _⟩
  -- A request of a position.
  | takeLine | joinGroup | callPosition | answerCall | declineCall | release | hold | mute | assignSpeaker | setPrivacy
  | signalLine | floorRequest | floorRelease | abortSequence =>
    refine ⟨_, rfl, .request (fun p v b t => ?_) s⟩
    simp only [State.ptbTake, State.ptbJoin, State.ptbCall, State.ptbAnswer, State.declineCall, State.ptbRelease, State.ptbHold,
      State.ptbMute, State.ptbAssign, State.setPrivacy, State.signalLine, State.floorRequest, State.floorRelease, State.abortRun]
    repeat' split
    all_goals simp
  | runSequence n =>
    refine ⟨_, rfl, .request (fun p v b t => ?_) s⟩
    split <;> simp
  | setVolume r =>
    cases r with
    | port n => exact ⟨_, rfl, .dispatchIf (fun b t => .of_queues (by simp)) s⟩
    | run p => exact ⟨_, rfl, .takeStep (fun b t => by simp) s⟩
  -- A request of a port about a tap.
  | tapDisable | tapEnable | tapLock | tapUnlock | tapFix | queryTap =>
    refine ⟨_, rfl, .tapRequest (fun r b t => ?_) s⟩
    repeat' split
    all_goals simp
  | tapSet n =>
    refine ⟨_, rfl, .tapRequest (fun r b t => ?_) s⟩
    unfold State.tapSet
    repeat' split
    all_goals simp
  -- Any other request that leaves EVU's records, and LKI's beside the frame, as they were.
  | lineServiceOut | appearanceSet | appearanceBar | queryPosition | positionConfig | groupConfig | hootAttach | hootDetach
  | queryGroup | pinFloor | unpin | legLevel | queryLeg | querySource | stepRead | resetArm =>
    refine ⟨_, rfl, .dispatchIf (fun b t => .of_queues ?_) s⟩
    repeat' split
    all_goals simp
  | lineConfig | lineServiceIn =>
    refine ⟨_, rfl, .dispatchIf (fun b t => .of_queues ?_) s⟩
    simp only [State.lineConfig, State.lineIn]
    repeat' split
    all_goals simp
  | queryLine | callConfig | detectorConfig | stepWrite | identify =>
    refine ⟨_, rfl, .dispatchIf (fun b t => .of_queues ?_) s⟩
    dsimp only
    repeat' split
    all_goals exact State.answer_queues ..
  -- The soft reset at its owners.
  | softResetAtPtb | softResetAtLcu | softResetAtGfu | softResetAtCmx | softResetAtRtu | softResetAtSqu =>
    exact ⟨_, rfl, .ownerReset rfl⟩
  -- Requests that concern EVU's records or a port.
  | statusRead n =>
    refine ⟨_, rfl, .dispatchIf (fun b t => .portRequest (fun m u => ?_) t) s⟩
    refine .then_queues (.setPort ?_) (State.answer_queues ..)
    exact .of_eq rfl rfl rfl
  | eventSetup n =>
    refine ⟨_, rfl, .dispatchIf (fun b t => .portRequest (fun m u => ?_) t) s⟩
    split
    · exact .answer ..
    · next poll _ =>
      have h := (u.events m).summaries_follows (masksOf (byteAt b 1))
      refine .then_queues (.setEvents ?_) (State.answer_queues ..)
      exact ⟨h.room, h.empty, h.image⟩
  | portReset n =>
    refine ⟨_, rfl, .dispatchIf (fun b t => .portRequest (fun m u => ?_) t) s⟩
    exact (u.resetPort_holdsQueues m).trans (.answer ..)
  | fetchEvents n =>
    exact ⟨_, rfl, .dispatchIf (fun b t => .then_queues (.setEvents (EventPort.drop_follows ..)) (State.answer_queues ..)) s⟩
  | summary n =>
    refine ⟨_, rfl, .dispatchIf (fun b t => .then_queues (.setEvents ?_) (State.answer_queues ..)) s⟩
    exact ⟨id, id, id⟩
  | portMode n =>
    refine ⟨_, rfl, .dispatchIf (fun b t => ?_) s⟩
    repeat' split
    case h_1.isFalse.isFalse => exact (State.changeMode_holdsQueues ..).trans (.answer ..)
    all_goals exact .answer ..
  | testFrame n =>
    refine ⟨_, rfl, .dispatchIf (fun b t => ?_) s⟩
    repeat' split
    case h_2.isFalse.isFalse =>
      refine .then_queues (.setPort ?_) (State.answer_queues ..)
      exact .of_eq rfl rfl rfl
    all_goals exact .answer ..
  | resetExecute n =>
    refine ⟨_, rfl, .dispatchIf (fun b t => ?_) s⟩
    split
    · exact t.startReset_holdsQueues
    · exact .answer ..
  | unknownRequest n =>
    change ∃ t, execUnknownRequest n s = .next t ∧ _
    unfold execUnknownRequest
    split
    · exact ⟨_, rfl, .refl s⟩
    · exact ⟨_, rfl, (HoldsQueues.takeFrame ..).trans (.answer ..)⟩
  -- EVU takes a record or a down notice.
  | recordPlacement b =>
    change ∃ t, execRecordPlacement b s = .next t ∧ _
    unfold execRecordPlacement
    split
    · exact ⟨_, rfl, .refl s⟩
    · next r rest _ =>
      have h : s.HoldsQueues (s.setChan { s.chan with given := rest }) := .of_queues (State.setChan_queues rfl)
      exact ⟨_, rfl, h.trans (.setEvents (EventPort.place_follows ..))⟩
  | positionDownAtEvu n => exact ⟨_, rfl, s.evuDown_holdsQueues n⟩
  -- The receiver, the standing and the transmitter of a port.
  | receiverHunt | frameClose | frameAbort | frameError => exact ⟨_, rfl, State.hear_holdsQueues ..⟩
  | frameOpen n =>
    change ∃ t, execFrameOpen n s = .next t ∧ _
    unfold execFrameOpen
    repeat' split
    · exact ⟨_, rfl, .of_queues (State.takeOpen_queues ..)⟩
    · exact ⟨_, rfl, .refl s⟩
    · exact ⟨_, rfl, State.hear_holdsQueues ..⟩
  | syncFound n align =>
    change ∃ t, execSyncFound n align s = .next t ∧ _
    simp only [execSyncFound]
    split
    · refine ⟨_, rfl, .setPort ⟨rfl, id, fun h => ?_⟩⟩
      dsimp only
      split
      · next hdown => exact fun _ => hdown.1
      · exact h
    · exact ⟨_, rfl, .refl s⟩
  | linkLossTimerExpiry n =>
    change ∃ t, execLinkLossTimerExpiry n s = .next t ∧ _
    unfold execLinkLossTimerExpiry
    split
    · exact ⟨_, rfl, s.portDown_holdsQueues n⟩
    · exact ⟨_, rfl, .refl s⟩
  | linkUpTimerExpiry n =>
    change ∃ t, execLinkUpTimerExpiry n s = .next t ∧ _
    unfold execLinkUpTimerExpiry
    split
    · next hran => exact ⟨_, rfl, State.portUp_holdsQueues (Timer.isSome_of_ran hran)⟩
    · exact ⟨_, rfl, .refl s⟩
  | replySend n =>
    change ∃ t, execReplySend n s = .next t ∧ _
    simp only [execReplySend]
    repeat' split
    · refine ⟨_, rfl, .setPort (.trans (x := { s.port n with reply := none }) ?_ ?_)⟩
      · exact PortRec.begin_follows ..
      · exact .of_eq rfl rfl rfl
    · refine ⟨_, rfl, .setPort ?_⟩
      exact .of_eq rfl rfl rfl
    · exact ⟨_, rfl, .refl s⟩
  | eventFrame n =>
    change ∃ t, execEventFrame n s = .next t ∧ _
    unfold execEventFrame
    split
    · exact ⟨_, rfl, (HoldsQueues.setPort (PortRec.begin_follows ..)).trans (.setEvents (EventPort.drop_follows ..))⟩
    · exact ⟨_, rfl, .refl s⟩
  | testFrameSend n =>
    change ∃ t, execTestFrameSend n s = .next t ∧ _
    simp only [execTestFrameSend]
    repeat' split
    · next test _ _ _ =>
      refine ⟨_, rfl, .setPort (.trans (x := { s.port n with test := some { test with sent := true } }) ?_ ?_)⟩
      · exact PortRec.begin_follows ..
      · exact .of_eq rfl rfl rfl
    all_goals exact ⟨_, rfl, .refl s⟩
  | frameSent n =>
    change ∃ t, execFrameSent n s = .next t ∧ _
    simp only [execFrameSent]
    split
    · refine ⟨_, rfl, .setPort (.trans (x := (s.port n).sends closeFill) ?_ (PortRec.sends_follows ..))⟩
      exact .of_eq rfl rfl rfl
    · exact ⟨_, rfl, .refl s⟩
  | _ => exact absurd rfl hi

theorem step_holdsQueues {s t : State} (e : step s = .next t) : s.HoldsQueues t := by
  unfold step at e
  split at e
  · cases e
    exact s.tick_holdsQueues
  · next c rest _ =>
    obtain ⟨u, hu, h⟩ := exec_holdsQueues c { s with pending := rest }
    obtain rfl : u = t := by simpa [hu] using e
    have hrest : s.HoldsQueues { s with pending := rest } := .of_queues rfl
    exact hrest.trans h

/-- Settles O56: a tick and every command keep the two limits (`step_holdsQueues`). -/
theorem queuesAreKept : Obligations.QueuesAreKept :=
  fun _ _ e => ⟨(step_holdsQueues e).requests, (step_holdsQueues e).events⟩

end Sys2Proof.Machine
end

section
/-! What a run of bytes brings a receiver to report, and what its port makes of the report (R156 to R158, R163, R164). -/

namespace Sys2Proof.Machine

/-! ### Reports (R156, R157) -/

/-- A run of bytes brings a receiver one report, `es`, and leaves it as `y`: what follows the byte that brings it reports
nothing. -/
structure Reports (x : Rx) (bytes : List Byte) (y : Rx) (es : List RxEvent) : Prop where
  all : x.takeAll bytes = (y, es)
  first : ∃ rest, x.takeUntil bytes = some (y, es, rest)

namespace Reports

theorem of_take {x y : Rx} {b : Byte} {es : List RxEvent} (h : x.take b = (y, es)) (hne : es ≠ []) : Reports x [b] y es :=
  ⟨by simp [Rx.takeAll, h], [], by simp [Rx.takeUntil, h, hne]⟩

/-- A receiver that a byte has sent to HUNT takes no byte that follows (R156). -/
theorem of_lost {x : Rx} {b : Byte} (h : x.take b = (Rx.hunting, [.lost])) (bs : List Byte) :
    Reports x (b :: bs) Rx.hunting [.lost] :=
  ⟨by simp [Rx.takeAll, h], bs, by simp [Rx.takeUntil, h]⟩

theorem after_silent {x y z : Rx} {pre bytes : List Byte} {es : List RxEvent} (hpre : x.takeAll pre = (y, []))
    (h : Reports y bytes z es) : Reports x (pre ++ bytes) z es := by
  obtain ⟨hall, rest, hfirst⟩ := h
  refine ⟨by simp [Rx.takeAll_append, hpre, hall], rest, ?_⟩
  rw [Rx.takeUntil_append_of_silent _ (by rw [hpre]), hpre, hfirst]

end Reports

/-- The receiver's bytes are those of the command where these alone bring what it names (R157). -/
theorem bytesTaken_of_named {x : Rx} {bytes : List Byte} {named : RxEvent → Bool} (h : (x.takeAll bytes).2.any named = true) :
    bytesTaken x bytes named = bytes := by simp [bytesTaken, h]

theorem bytesTaken_of_not_inPair {x : Rx} (h : x.inPair = false) (bytes : List Byte) (named : RxEvent → Bool) :
    bytesTaken x bytes named = bytes := by simp [bytesTaken, h]

/-! ### A receiver in SYNCED (R156) -/

/-- A receiver in SYNCED, and the SYNC_B that it waits for where it has taken the SYNC_A of a pair. -/
def IsSynced (x : Rx) (pre : List Byte) : Prop :=
  x = Rx.insync ∧ pre = [] ∨ x = ⟨.synced, some Config.syncA, []⟩ ∧ pre = [Config.syncB]

theorem IsSynced.takeAll {x : Rx} {pre : List Byte} (h : IsSynced x pre) : x.takeAll pre = (Rx.insync, []) := by
  obtain ⟨rfl, rfl⟩ | ⟨rfl, rfl⟩ := h <;> rfl

theorem IsSynced.state {x : Rx} {pre : List Byte} (h : IsSynced x pre) : x.state = .synced := by
  obtain ⟨rfl, -⟩ | ⟨rfl, -⟩ := h <;> rfl

/-- Bytes out of place in SYNCED: a byte alone, after SYNC_A or after ESC. -/
def OutOfPlace (bytes : List Byte) (b : Byte) : Prop :=
  bytes = [b] ∧ b ≠ Config.syncA ∧ b ≠ Config.esc ∨ bytes = [Config.syncA, b] ∧ b ≠ Config.syncB
    ∨ bytes = [Config.esc, b] ∧ b ≠ Config.codeOpen

theorem Rx.take_insync_of_ne {b : Byte} (hA : b ≠ Config.syncA) (hesc : b ≠ Config.esc) :
    Rx.insync.take b = (Rx.hunting, [.lost]) := by simp [Rx.take, Rx.insync, Rx.takeSynced, hA, hesc]

theorem Rx.take_after_syncA {b : Byte} (h : b ≠ Config.syncB) :
    (Rx.mk .synced (some Config.syncA) []).take b = (Rx.hunting, [.lost]) := by
  simp [Rx.take, Rx.takeSynced, h, show (Config.syncA == Config.esc) = false from rfl]

theorem Rx.take_after_esc {b : Byte} (h : b ≠ Config.codeOpen) :
    (Rx.mk .synced (some Config.esc) []).take b = (Rx.hunting, [.lost]) := by
  simp [Rx.take, Rx.takeSynced, h, show (Config.esc == Config.syncA) = false from rfl]

theorem OutOfPlace.loses {bytes : List Byte} {b : Byte} (h : OutOfPlace bytes b) : Reports Rx.insync bytes Rx.hunting [.lost] := by
  obtain ⟨rfl, hA, hesc⟩ | ⟨rfl, hB⟩ | ⟨rfl, hopen⟩ := h
  · exact .of_lost (Rx.take_insync_of_ne hA hesc) []
  · exact .after_silent (pre := [Config.syncA]) rfl (.of_lost (Rx.take_after_syncA hB) [])
  · exact .after_silent (pre := [Config.esc]) rfl (.of_lost (Rx.take_after_esc hopen) [])

/-- The bytes that RECEIVER_HUNT takes: the SYNC_B of a pair comes first where the command's byte is but another SYNC_B (R157). -/
theorem IsSynced.loses {x : Rx} {pre bytes : List Byte} {b : Byte} (hx : IsSynced x pre) (h : OutOfPlace bytes b) :
    bytesTaken x bytes (· == .lost) = (if bytes = [Config.syncB] then pre ++ bytes else bytes)
      ∧ Reports x (if bytes = [Config.syncB] then pre ++ bytes else bytes) Rx.hunting [.lost] := by
  obtain ⟨rfl, rfl⟩ | ⟨rfl, rfl⟩ := hx
  · simpa using ⟨bytesTaken_of_not_inPair rfl .., h.loses⟩
  · by_cases hB : bytes = [Config.syncB]
    · rw [if_pos hB]
      exact ⟨by rw [hB]; rfl, .after_silent rfl h.loses⟩
    · rw [if_neg hB]
      obtain ⟨c, cs, rfl, hc⟩ : ∃ c cs, bytes = c :: cs ∧ c ≠ Config.syncB := by
        obtain ⟨rfl, -, -⟩ | ⟨rfl, -⟩ | ⟨rfl, -⟩ := h
        · exact ⟨b, [], rfl, fun e => hB (by rw [e])⟩
        · exact ⟨_, _, rfl, by decide⟩
        · exact ⟨_, _, rfl, by decide⟩
      have hrep := Reports.of_lost (Rx.take_after_syncA hc) cs
      exact ⟨bytesTaken_of_named (by rw [hrep.all]; rfl), hrep⟩

theorem Rx.insync_opens : Reports Rx.insync [Config.esc, Config.codeOpen] Rx.opened [.opened] := ⟨rfl, [], rfl⟩

theorem IsSynced.bytesTaken_open {x : Rx} {pre : List Byte} (h : IsSynced x pre) :
    bytesTaken x [Config.esc, Config.codeOpen] (· == .opened) = pre ++ [Config.esc, Config.codeOpen] := by
  obtain ⟨rfl, rfl⟩ | ⟨rfl, rfl⟩ := h <;> rfl

/-! ### A receiver in IN_FRAME (R157, R158) -/

theorem Rx.inFrame_closes (data : List Byte) :
    Reports ⟨.inFrame, none, data⟩ [Config.esc, Config.codeClose] Rx.insync [.closed data] := ⟨rfl, [], rfl⟩

theorem Rx.inFrame_aborts (data : List Byte) :
    Reports ⟨.inFrame, none, data⟩ [Config.esc, Config.codeAbort] Rx.insync [.aborted] := ⟨rfl, [], rfl⟩

/-- The stuffed form of a byte: what ESC must be followed by for the pair to be a data byte (R155). -/
theorem isMark_xor_stuffBit {b : Byte} : isMark (b ^^^ Config.stuffBit) = true ↔ b = 0xB6#8 ∨ b = 0x49#8 ∨ b = 0xF3#8 := by
  revert b
  decide

/-- An escape that is neither a stuffed byte nor CLOSE nor ABORT (R157). -/
theorem Rx.inFrame_broken {data : List Byte} {b : Byte} (hb : isMark (b ^^^ Config.stuffBit) = false)
    (hclose : b ≠ Config.codeClose) (habort : b ≠ Config.codeAbort) :
    Reports ⟨.inFrame, none, data⟩ [Config.esc, b] Rx.insync [.failed] :=
  .after_silent (pre := [Config.esc]) (y := ⟨.inFrame, some Config.esc, data⟩) rfl
    (.of_take (by simp [Rx.take, Rx.takeInFrame, hb, hclose, habort]) (by simp))

/-- A 65th byte (R157). -/
theorem Rx.inFrame_full {data : List Byte} {b : Byte} (hlen : data.length = Config.maxFrame) (hb : isMark b = false) :
    Reports ⟨.inFrame, none, data⟩ [b] Rx.insync [.failed] := by
  have hesc : (b == Config.esc) = false := by
    simp only [isMark, Bool.or_eq_false_iff] at hb
    exact hb.2
  exact .of_take (by simp [Rx.take, Rx.takeInFrame, hesc, hb, Rx.append, hlen]) (by simp)

/-- A 65th byte that is stuffed (R157). -/
theorem Rx.inFrame_full_stuffed {data : List Byte} {b : Byte} (hlen : data.length = Config.maxFrame)
    (hb : isMark (b ^^^ Config.stuffBit) = true) : Reports ⟨.inFrame, none, data⟩ [Config.esc, b] Rx.insync [.failed] :=
  .after_silent (pre := [Config.esc]) (y := ⟨.inFrame, some Config.esc, data⟩) rfl
    (.of_take (by simp [Rx.take, Rx.takeInFrame, hb, Rx.append, hlen]) (by simp))

theorem Rx.inFrame_syncA (data : List Byte) :
    Reports ⟨.inFrame, none, data⟩ [Config.syncA] ⟨.synced, some Config.syncA, []⟩ [.failed] := ⟨rfl, [], rfl⟩

theorem Rx.inFrame_syncB (data : List Byte) :
    Reports ⟨.inFrame, none, data⟩ [Config.syncB] Rx.hunting [.failed, .lost] := ⟨rfl, [], rfl⟩

/-- What ends a frame after its data bytes, from OPEN on (R155, R157). -/
theorem Rx.opened_reports {data tail : List Byte} {y : Rx} {es : List RxEvent} (hlen : data.length ≤ Config.maxFrame)
    (h : Reports ⟨.inFrame, none, data⟩ tail y es) : Reports Rx.opened (data.flatMap stuffByte ++ tail) y es :=
  .after_silent (Rx.takeAll_stuffed [] data (by simpa using hlen)) h

theorem verdict_short {buf : List Byte} (h : buf.length < 4) : verdict buf = .frameError := if_pos h

/-- A frame of four bytes or more is good where its last two are the check over the others (R158). -/
theorem verdict_of_check {buf : List Byte} (hlen : 4 ≤ buf.length)
    (hcheck : twoBytes (frameCheck (buf.take (buf.length - 2))) = buf.drop (buf.length - 2)) : verdict buf = .good := by
  rw [verdict, if_neg (by omega), if_pos hcheck]

theorem verdict_of_not_check {buf : List Byte} (hlen : 4 ≤ buf.length)
    (hcheck : twoBytes (frameCheck (buf.take (buf.length - 2))) ≠ buf.drop (buf.length - 2)) : verdict buf = .checkError := by
  rw [verdict, if_neg (by omega), if_neg hcheck]

/-! ### What a report does to its port (R157, R158, R160, R161, R164) -/

theorem State.setPort_setPort (s : State) (n : Port) (r x : PortRec) : (s.setPort n r).setPort n x = s.setPort n x := by
  simp [State.setPort, Table.put_put]

theorem State.rxEvent_lost_setPort (s : State) (n : Port) (r : PortRec) :
    (s.setPort n r).rxEvent n .lost = s.setPort n r.lose := by
  simp [State.rxEvent, State.setPort_setPort]

/-- The record of a port at which a frame has ended by CLOSE (R158). -/
def PortRec.closed (r : PortRec) (buf : List Byte) : PortRec :=
  if verdict buf = .good then (r.flagged (verdict buf)).deliver buf else r.flagged (verdict buf)

theorem State.rxEvent_closed_setPort (s : State) (n : Port) (r : PortRec) (buf : List Byte) :
    (s.setPort n r).rxEvent n (.closed buf) = (s.setPort n (r.closed buf)).endTest n (verdict buf) := by
  simp [State.rxEvent, State.setPort_setPort, PortRec.closed]

theorem State.rxEvent_failed_setPort (s : State) (n : Port) (r : PortRec) :
    (s.setPort n r).rxEvent n .failed = (s.setPort n { r with frameError := true }).endTest n .frameError := by
  simp [State.rxEvent, State.setPort_setPort, PortRec.flagged]

/-- Outside LOCAL_LOOP no test ends (R164). -/
theorem State.endTest_off_loop {s : State} {n : Port} {r : PortRec} (h : r.mode ≠ .localLoop) (o : LoopOutcome) :
    (s.setPort n r).endTest n o = s.setPort n r := by
  unfold State.endTest
  split
  · next hm _ => simp [h] at hm
  · rfl

/-- Nor does one end that was not sent. -/
theorem State.endTest_unsent {s : State} {n : Port} {r : PortRec} (h : ∀ body, r.test ≠ some ⟨body, true⟩) (o : LoopOutcome) :
    (s.setPort n r).endTest n o = s.setPort n r := by
  unfold State.endTest
  repeat' split
  · next t _ ht hsent =>
    obtain ⟨body, sent⟩ := t
    obtain rfl : sent = true := hsent
    exact absurd (by simpa using ht) (h body)
  · rfl
  · rfl

/-- In LOCAL_LOOP the outstanding test that was sent ends, and its outcome goes to the manager (R164). -/
theorem State.endTest_sent {s : State} {n : Port} {r : PortRec} {body : List Byte} (hm : r.mode = .localLoop)
    (ht : r.test = some ⟨body, true⟩) (o : LoopOutcome) :
    (s.setPort n r).endTest n o = (s.setPort n { r with test := none }).emit { given := [⟨.lki, mgmt, .loopResult n o⟩] } := by
  simp only [State.endTest, State.setPort_port, if_pos, hm, ht, State.setPort_setPort, record]

/-- The two ways of a frame error: the receiver goes to SYNCED, or on to HUNT by a SYNC_B that it takes again (R157, R160). -/
def PortRec.Failed (r : PortRec) (es : List RxEvent) (y : PortRec) : Prop :=
  es = [] ∧ y = { r with frameError := true } ∨ es = [.lost] ∧ y = ({ r with frameError := true } : PortRec).lose

theorem State.foldl_failed {s : State} {n : Port} {r y : PortRec} {es : List RxEvent} (h : r.Failed es y)
    (hno : r.mode ≠ .localLoop ∨ ∀ body, r.test ≠ some ⟨body, true⟩) :
    (.failed :: es).foldl (fun u a => u.rxEvent n a) (s.setPort n r) = s.setPort n y := by
  have hend : (s.setPort n { r with frameError := true }).endTest n .frameError = s.setPort n { r with frameError := true } :=
    hno.elim (fun h => State.endTest_off_loop (by exact h) _) fun h => State.endTest_unsent (by exact h) _
  rw [List.foldl_cons, State.rxEvent_failed_setPort, hend]
  obtain ⟨rfl, rfl⟩ | ⟨rfl, rfl⟩ := h
  · rfl
  · exact State.rxEvent_lost_setPort ..

theorem State.foldl_failed_of_test {s : State} {n : Port} {r y : PortRec} {es : List RxEvent} (h : r.Failed es y)
    {body : List Byte} (hm : r.mode = .localLoop) (ht : r.test = some ⟨body, true⟩) :
    (.failed :: es).foldl (fun u a => u.rxEvent n a) (s.setPort n r) =
      (s.setPort n { y with test := none }).emit { given := [⟨.lki, mgmt, .loopResult n .frameError⟩] } := by
  have hend : (s.setPort n { r with frameError := true }).endTest n .frameError =
      (s.setPort n { r with frameError := true, test := none }).emit { given := [⟨.lki, mgmt, .loopResult n .frameError⟩] } :=
    State.endTest_sent (by exact hm) (by exact ht) _
  rw [List.foldl_cons, State.rxEvent_failed_setPort, hend]
  obtain ⟨rfl, rfl⟩ | ⟨rfl, rfl⟩ := h
  · rfl
  · exact congrArg (State.emit · _) (State.rxEvent_lost_setPort s n { r with frameError := true, test := none })

/-! ### The bytes of a command (R163) -/

/-- What the bytes of a command leave on the loop: off the link all of it; off the loop what its transmitter has sent after as many
bytes, or the rest of an idle fill pair where they outrun what it has sent. -/
def PortRec.Leaves (r : PortRec) (bytes loop : List Byte) : Prop :=
  r.mode ≠ .localLoop ∧ loop = r.loop
    ∨ r.mode = .localLoop ∧ (∃ sent, sent.length = bytes.length ∧ r.loop = sent ++ loop)
    ∨ r.mode = .localLoop ∧ r.tx = none ∧ r.loop.length < bytes.length
      ∧ loop = if (bytes.length - r.loop.length) % 2 = 1 then [Config.syncB] else []

theorem PortRec.Leaves.loopAfter {r : PortRec} {bytes loop : List Byte} (h : r.Leaves bytes loop) :
    r.mode ≠ .localLoop ∧ loop = r.loop
      ∨ r.mode = .localLoop ∧ (r.tx = none ∨ bytes.length ≤ r.loop.length) ∧ loop = r.loopAfter bytes.length := by
  obtain h | ⟨hm, sent, hlen, hloop⟩ | ⟨hm, htx, hlt, rfl⟩ := h
  · exact .inl h
  · exact .inr ⟨hm, .inr (by simp [hloop, ← hlen]), by rw [← hlen, PortRec.loopAfter_append hloop]⟩
  · exact .inr ⟨hm, .inl htx, (PortRec.loopAfter_beyond hlt).symm⟩

/-- What a port puts on its link of the bytes that its receiver takes (R163). -/
def PortRec.echo (r : PortRec) (bytes : List Byte) : List Byte := if r.mode = .remoteEcho then bytes else r.linkOut

theorem PortRec.echo_of_loop {r : PortRec} (h : r.mode = .localLoop) (bytes : List Byte) : r.echo bytes = r.linkOut :=
  if_neg (by simp [h])

/-- A command of a receiver whose bytes bring the one report that it names (R156, R157, R163). -/
theorem State.hear_of_reports {s : State} {n : Port} {r : PortRec} {due : RxState} {bytes taken loop : List Byte}
    {named : RxEvent → Bool} {y : Rx} {e : RxEvent} {es : List RxEvent} (hr : s.port n = r) (hd : r.rx.state = due)
    (ht : bytesTaken r.rx bytes named = taken) (h : Reports r.rx taken y (e :: es)) (hn : named e = true)
    (hl : r.Leaves taken loop) :
    s.hear n due bytes named = (e :: es).foldl (fun u a => u.rxEvent n a)
      (s.setPort n { r with rx := y, loop := loop, linkOut := r.echo taken }) := by
  subst hr
  obtain ⟨hall, rest, hfirst⟩ := h
  unfold State.hear
  rw [ht]
  obtain ⟨hm, rfl⟩ | ⟨hm, hk, rfl⟩ := hl.loopAfter
  · simp [hd, hm, State.receive, hall, PortRec.echo]
  · simp [hd, hm, State.takeLoop, hfirst, hk, hn, PortRec.echo]

end Sys2Proof.Machine
end

section
/-! The commands of a receiver (R156 to R158, R160, R161, R163, R164). -/

namespace Sys2Proof.Machine

variable {s : State} {n : Port} {r : PortRec}

/-! ### HUNT and SYNCED (R156) -/

/-- SYNC_FOUND leaves on the loop what follows the pair that it has found (R163). -/
theorem exec_syncFound_of_hunt (hr : s.port n = r) (hhunt : r.rx.state = .hunt) {loop : List Byte}
    (hloop : loop = if r.mode = .localLoop then afterPair r.loop else r.loop) (a : Fin 8) :
    exec (.syncFound n a) s = .next (s.setPort n { r with
      rx := Rx.insync, align := some a, lossTimer := none, linkOut := r.echo fillPair, loop := loop
      upTimer := if r.up = false ∧ r.mode = .normal then some Config.upCount else r.upTimer }) := by
  subst hr hloop
  exact if_pos hhunt

theorem exec_receiverHunt_of_loses (hr : s.port n = r) (hs : r.rx.state = .synced) {bytes taken loop : List Byte}
    (ht : bytesTaken r.rx bytes (· == .lost) = taken) (h : Reports r.rx taken Rx.hunting [.lost]) (hl : r.Leaves taken loop) :
    exec (.receiverHunt n bytes) s =
      .next (s.setPort n ({ r with rx := Rx.hunting, loop := loop, linkOut := r.echo taken } : PortRec).lose) := by
  change Host.Outcome.next (s.hear n .synced bytes (· == .lost)) = _
  rw [State.hear_of_reports hr hs ht h rfl hl]
  exact congrArg _ (State.rxEvent_lost_setPort ..)

theorem exec_frameOpen_off_loop (hr : s.port n = r) (hm : r.mode ≠ .localLoop) {pre : List Byte} (hpre : IsSynced r.rx pre) :
    exec (.frameOpen n) s = .next (s.setPort n { r with
      rx := Rx.opened, linkOut := r.echo (pre ++ [Config.esc, Config.codeOpen]) }) := by
  change execFrameOpen n s = _
  rw [execFrameOpen, if_neg (by rw [hr]; exact hm),
    State.hear_of_reports hr hpre.state hpre.bytesTaken_open (.after_silent hpre.takeAll Rx.insync_opens) rfl (.inl ⟨hm, rfl⟩)]
  rfl

/-- In LOCAL_LOOP a receiver in SYNCED takes OPEN as it was sent, with the idle fill before it (R163). -/
theorem exec_frameOpen_on_loop (hr : s.port n = r) (hm : r.mode = .localLoop) {fill rest : List Byte}
    (hs : r.rx.state = .synced) (hfill : r.rx.takeAll fill = (Rx.insync, []))
    (hloop : r.loop = fill ++ [Config.esc, Config.codeOpen] ++ rest) :
    exec (.frameOpen n) s = .next (s.setPort n { r with rx := Rx.opened, loop := rest }) := by
  subst hr
  have htake : (s.port n).rx.takeUntil (s.port n).loop = some (Rx.opened, [.opened], rest) := by
    rw [hloop, List.append_assoc, Rx.takeUntil_append_of_silent _ (by rw [hfill]), hfill]
    rfl
  change execFrameOpen n s = _
  rw [execFrameOpen, if_pos hm, if_pos hs, State.takeOpen, htake]

/-- Where no OPEN comes next on the loop, FRAME_OPEN does nothing (R163). -/
theorem exec_frameOpen_none (hr : s.port n = r) (hm : r.mode = .localLoop) {fill bytes : List Byte}
    (hfill : r.rx.takeAll fill = (Rx.insync, [])) (hloop : r.loop = fill ++ bytes)
    (h : ∀ y rest, Rx.insync.takeUntil bytes ≠ some (y, [.opened], rest)) : exec (.frameOpen n) s = .next s := by
  subst hr
  have htake : (s.port n).rx.takeUntil (s.port n).loop = Rx.insync.takeUntil bytes := by
    rw [hloop, Rx.takeUntil_append_of_silent _ (by rw [hfill]), hfill]
  change execFrameOpen n s = _
  rw [execFrameOpen, if_pos hm]
  split
  · rcases s.takeOpen_cases n with e | ⟨y, rest, e, -⟩
    · rw [e]
    · exact absurd (htake ▸ e) (h y rest)
  · rfl

theorem exec_frameOpen_of_loses (hr : s.port n = r) (hm : r.mode = .localLoop) {fill bytes : List Byte}
    (hfill : r.rx.takeAll fill = (Rx.insync, [])) (hloop : r.loop = fill ++ bytes)
    (h : Reports Rx.insync bytes Rx.hunting [.lost]) : exec (.frameOpen n) s = .next s := by
  obtain ⟨-, left, hfirst⟩ := h
  exact exec_frameOpen_none hr hm hfill hloop fun y rest e => by simp [hfirst] at e

theorem exec_frameOpen_not_due (h : (s.port n).rx.state ≠ .synced) : exec (.frameOpen n) s = .next s := by
  change execFrameOpen n s = _
  rw [execFrameOpen, if_neg h]
  split
  · rfl
  · rw [State.hear_not_due h]

/-! ### IN_FRAME (R157, R158) -/

section InFrame
variable {data loop : List Byte}

/-- A receiver that has taken OPEN and the stuffed bytes of `data` takes what ends the frame. -/
theorem State.hear_inFrame (hr : s.port n = r) (hrx : r.rx = Rx.opened) (hlen : data.length ≤ Config.maxFrame)
    {tail : List Byte} {y : Rx} {e : RxEvent} {es : List RxEvent} {named : RxEvent → Bool}
    (h : Reports ⟨.inFrame, none, data⟩ tail y (e :: es)) (hn : named e = true)
    (hl : r.Leaves (data.flatMap stuffByte ++ tail) loop) :
    s.hear n .inFrame (data.flatMap stuffByte ++ tail) named = (e :: es).foldl (fun u a => u.rxEvent n a)
      (s.setPort n { r with rx := y, loop := loop, linkOut := r.echo (data.flatMap stuffByte ++ tail) }) :=
  State.hear_of_reports hr (by rw [hrx]; rfl) (bytesTaken_of_not_inPair (by rw [hrx]; rfl) ..)
    (by rw [hrx]; exact Rx.opened_reports hlen h) hn hl

/-- FRAME_CLOSE: the frame that has ended is judged, and ends the outstanding test of a LOCAL_LOOP port (R158, R164). -/
theorem exec_frameClose_inFrame (hr : s.port n = r) (hrx : r.rx = Rx.opened) (hlen : data.length ≤ Config.maxFrame)
    (hl : r.Leaves (data.flatMap stuffByte ++ [Config.esc, Config.codeClose]) loop) :
    exec (.frameClose n (data.flatMap stuffByte)) s = .next ((s.setPort n (PortRec.closed { r with
      rx := Rx.insync, loop := loop
      linkOut := r.echo (data.flatMap stuffByte ++ [Config.esc, Config.codeClose]) } data)).endTest n (verdict data)) := by
  refine congrArg Host.Outcome.next ((State.hear_inFrame hr hrx hlen (Rx.inFrame_closes data) rfl hl).trans ?_)
  exact State.rxEvent_closed_setPort ..

theorem exec_frameAbort_inFrame (hr : s.port n = r) (hrx : r.rx = Rx.opened) (hlen : data.length ≤ Config.maxFrame)
    (hl : r.Leaves (data.flatMap stuffByte ++ [Config.esc, Config.codeAbort]) loop) :
    exec (.frameAbort n (data.flatMap stuffByte)) s = .next (s.setPort n { r with
      rx := Rx.insync, loop := loop
      linkOut := r.echo (data.flatMap stuffByte ++ [Config.esc, Config.codeAbort]) }) :=
  congrArg Host.Outcome.next (State.hear_inFrame hr hrx hlen (Rx.inFrame_aborts data) rfl hl)

/-- FRAME_ERROR: the frame ends in error, and with it the outstanding test of a LOCAL_LOOP port; a SYNC_B that ends it brings the
receiver on to HUNT (R157, R160, R164). -/
theorem exec_frameError_inFrame (hr : s.port n = r) (hrx : r.rx = Rx.opened) (hlen : data.length ≤ Config.maxFrame)
    {err : List Byte} {z : Rx} {es : List RxEvent} {y : PortRec} (h : Reports ⟨.inFrame, none, data⟩ err z (.failed :: es))
    (hl : r.Leaves (data.flatMap stuffByte ++ err) loop)
    (hy : PortRec.Failed { r with rx := z, loop := loop, linkOut := r.echo (data.flatMap stuffByte ++ err) } es y) :
    (r.mode ≠ .localLoop ∨ (∀ body, r.test ≠ some ⟨body, true⟩) →
      exec (.frameError n (data.flatMap stuffByte ++ err)) s = .next (s.setPort n y))
    ∧ ∀ body, r.mode = .localLoop → r.test = some ⟨body, true⟩ →
      exec (.frameError n (data.flatMap stuffByte ++ err)) s = .next ((s.setPort n { y with test := none }).emit
        { given := [⟨.lki, mgmt, .loopResult n .frameError⟩] }) := by
  have hear := State.hear_inFrame (named := (· == .failed)) hr hrx hlen h rfl hl
  exact ⟨fun hno => congrArg Host.Outcome.next (hear.trans (State.foldl_failed hy hno)),
    fun body hm ht => congrArg Host.Outcome.next (hear.trans (State.foldl_failed_of_test hy hm ht))⟩

end InFrame

end Sys2Proof.Machine
end

section
/-! O48: the receiver's tables, clause by clause (R156 to R158, R160, R161, R163, R164). -/

namespace Sys2Proof.Machine

section Clauses
variable {s : State} {n : Port} {r : PortRec}

/-! ### The frame that has ended by CLOSE (R158) -/

theorem PortRec.closed_short {buf : List Byte} (h : buf.length < 4) : r.closed buf = { r with frameError := true } := by
  rw [PortRec.closed, verdict_short h]
  rfl

theorem PortRec.closed_checkError {buf : List Byte} (h : verdict buf = .checkError) :
    r.closed buf = { r with checkError := true } := by
  rw [PortRec.closed, h]
  rfl

theorem PortRec.closed_good {buf : List Byte} (h : verdict buf = .good) : r.closed buf = r.deliver buf := by
  rw [PortRec.closed, h]
  rfl

theorem PortRec.deliver_room (hm : r.mode = .normal) (hu : r.up = true) (hroom : r.queue.length < Config.requestRoom)
    (buf : List Byte) : r.deliver buf = { r with queue := r.queue ++ [frameOfBuffer buf] } := by
  rw [PortRec.deliver, if_pos ⟨hm, hu⟩, if_pos hroom]

theorem PortRec.deliver_full (hm : r.mode = .normal) (hu : r.up = true) (hfull : Config.requestRoom ≤ r.queue.length)
    (buf : List Byte) : r.deliver buf = { r with overrun := true } := by
  rw [PortRec.deliver, if_pos ⟨hm, hu⟩, if_neg (Nat.not_lt.mpr hfull)]

theorem PortRec.deliver_dropped (h : r.mode ≠ .normal ∨ r.up = false) (buf : List Byte) : r.deliver buf = r :=
  if_neg fun ⟨hm, hu⟩ => h.elim (· hm) fun hd => by simp [hd] at hu

theorem PortRec.flagged_mode (r : PortRec) (o : LoopOutcome) : (r.flagged o).mode = r.mode := by cases o <;> rfl

theorem PortRec.closed_mode (r : PortRec) (buf : List Byte) : (r.closed buf).mode = r.mode := by
  unfold PortRec.closed PortRec.deliver
  repeat' split
  all_goals exact PortRec.flagged_mode ..

/-- In LOCAL_LOOP no frame joins the request queue (R158, R163). -/
theorem PortRec.closed_of_loop (hm : r.mode = .localLoop) (buf : List Byte) : r.closed buf = r.flagged (verdict buf) := by
  unfold PortRec.closed
  split
  · exact PortRec.deliver_dropped (.inl (by simp [PortRec.flagged_mode, hm])) buf
  · rfl

/-- FRAME_CLOSE off the loop: the frame is judged, and no test ends (R158). -/
theorem exec_frameClose_off_loop (hr : s.port n = r) (hrx : r.rx = Rx.opened) (hm : r.mode ≠ .localLoop) {data : List Byte}
    (hlen : data.length ≤ Config.maxFrame) :
    exec (.frameClose n (data.flatMap stuffByte)) s = .next (s.setPort n (PortRec.closed { r with
      rx := Rx.insync, linkOut := r.echo (data.flatMap stuffByte ++ [Config.esc, Config.codeClose]) } data)) := by
  rw [exec_frameClose_inFrame hr hrx hlen (.inl ⟨hm, rfl⟩)]
  exact congrArg _ (State.endTest_off_loop (by rw [PortRec.closed_mode]; exact hm) _)

/-- FRAME_CLOSE on the loop: the frame is judged, and ends the outstanding test that was sent (R164). -/
theorem exec_frameClose_on_loop (hr : s.port n = r) (hrx : r.rx = Rx.opened) (hm : r.mode = .localLoop) {data loop : List Byte}
    (hlen : data.length ≤ Config.maxFrame)
    (hl : r.Leaves (data.flatMap stuffByte ++ [Config.esc, Config.codeClose]) loop) {test : Option LoopTest}
    (ht : r.test = test ∧ (∀ body, test ≠ some ⟨body, true⟩) ∨ test = none ∧ ∃ body, r.test = some ⟨body, true⟩) :
    exec (.frameClose n (data.flatMap stuffByte)) s =
      .next ((s.setPort n (PortRec.flagged { r with rx := Rx.insync, loop := loop, test := test } (verdict data))).emit
        { given := if r.test = test then [] else [⟨.lki, mgmt, .loopResult n (verdict data)⟩] }) := by
  rw [exec_frameClose_inFrame hr hrx hlen hl, PortRec.echo_of_loop hm, PortRec.closed_of_loop (by exact hm)]
  generalize verdict data = o
  obtain ⟨rfl, hsent⟩ | ⟨rfl, body, hbody⟩ := ht
  · rw [if_pos rfl, State.emit_nothing]
    cases o <;> exact congrArg _ (State.endTest_unsent (by exact hsent) _)
  · rw [if_neg (by simp [hbody])]
    cases o <;> exact congrArg _ (State.endTest_sent (by exact hm) (by exact hbody) _)

end Clauses

/-- Settles O48: by the state of the receiver, and in IN_FRAME by what ends the frame. -/
theorem receiversFollowTheirTables : Obligations.ReceiversFollowTheirTables := by
  rintro s n r _ _ hr rfl rfl
  refine ⟨?sync, ?synced, ?notDue, ?outrun, ?inFrame⟩
  case sync =>
    intro a loop hhunt hloop
    refine exec_syncFound_of_hunt hr hhunt ?_ a
    obtain ⟨hm, rfl⟩ | ⟨hm, pre, hpre, hfirst⟩ | ⟨hm, hnone, rfl⟩ := hloop
    · rw [if_neg hm]
    · rw [if_pos hm, hpre]
      exact (afterPair_first hfirst).symm
    · rw [if_pos hm]
      exact (afterPair_none hnone).symm
  case synced =>
    rintro pre _ hpre rfl
    have hx : IsSynced r.rx pre := hpre
    refine ⟨fun bytes b loop hb => ⟨fun hl => ?pairFirst, fun hl => ?alone⟩, fun hm => ?openOffLoop,
      fun fill rest hm hfill => ?openOnLoop⟩
    case pairFirst =>
      have hrep : Reports r.rx (pre ++ bytes) Rx.hunting [.lost] := .after_silent hx.takeAll (OutOfPlace.loses hb)
      exact exec_receiverHunt_of_loses hr hx.state (bytesTaken_of_named (by rw [hrep.all]; rfl)) hrep hl
    case alone =>
      obtain ⟨ht, hrep⟩ := hx.loses (show OutOfPlace bytes b from hb)
      exact exec_receiverHunt_of_loses hr hx.state ht hrep hl
    case openOffLoop => exact exec_frameOpen_off_loop hr hm hx
    case openOnLoop =>
      have hsilent : r.rx.takeAll fill = (Rx.insync, []) := by
        obtain rfl | rfl := hfill
        · exact hx.takeAll
        · rw [Rx.takeAll_append, hx.takeAll]
          rfl
      refine ⟨fun hloop => exec_frameOpen_on_loop hr hm hx.state hsilent hloop, fun hloop => ?_⟩
      obtain hloop | ⟨b, hloop, hA, hesc⟩ | ⟨b, hloop, hopen⟩ := hloop
      · exact exec_frameOpen_none (bytes := []) hr hm hsilent (by simpa using hloop) fun _ _ e => by cases e
      · exact exec_frameOpen_of_loses hr hm hsilent hloop (.of_lost (Rx.take_insync_of_ne hA hesc) rest)
      · exact exec_frameOpen_of_loses hr hm hsilent hloop
          (.after_silent (pre := [Config.esc]) rfl (.of_lost (Rx.take_after_esc hopen) rest))
  case notDue =>
    subst hr
    exact fun bytes => ⟨fun h => ⟨congrArg _ (State.hear_not_due h), exec_frameOpen_not_due h⟩,
      fun h => ⟨congrArg _ (State.hear_not_due h), congrArg _ (State.hear_not_due h), congrArg _ (State.hear_not_due h)⟩⟩
  case outrun =>
    subst hr
    refine fun bytes hm ht => ⟨fun h => ?_, fun h => ?_⟩
    · exact ⟨congrArg _ (State.hear_outrun hm ht h), congrArg _ (State.hear_outrun hm ht h)⟩
    · refine ⟨congrArg _ (State.hear_outrun hm ht ?_), congrArg _ (State.hear_outrun hm ht ?_)⟩
      all_goals simpa using h
  case inFrame =>
    rintro data _ _ _ hrx hlen rfl rfl rfl
    refine ⟨?offLoop, ?onLoop, ?abort, ?error⟩
    case offLoop =>
      rintro hm _ rfl
      rw [exec_frameClose_off_loop hr hrx hm hlen]
      refine ⟨fun h => ?_, fun h hbad => ?_, fun ⟨h, hgood⟩ hn hu hroom => ?_, fun ⟨h, hgood⟩ hn hu hfull => ?_,
        fun ⟨h, hgood⟩ hdrop => ?_⟩
      · rw [PortRec.closed_short h]
        rfl
      · rw [PortRec.closed_checkError (verdict_of_not_check h fun hc => hbad ⟨h, hc⟩)]
        rfl
      all_goals rw [PortRec.closed_good (verdict_of_check h hgood)]
      · rw [PortRec.deliver_room (by exact hn) (by exact hu) (by exact hroom)]
        rfl
      · rw [PortRec.deliver_full (by exact hn) (by exact hu) (by exact hfull)]
        rfl
      · rw [PortRec.deliver_dropped (by exact hdrop)]
        rfl
    case onLoop =>
      rintro loop test _ hm hl rfl ht
      rw [exec_frameClose_on_loop hr hrx hm hlen hl ht]
      refine ⟨fun h => ?_, fun h hbad => ?_, fun ⟨h, hgood⟩ => ?_⟩
      · rw [verdict_short h]
        rfl
      · rw [verdict_of_not_check h fun hc => hbad ⟨h, hc⟩]
        rfl
      · rw [verdict_of_check h hgood]
        rfl
    case abort =>
      intro loop hl
      exact (exec_frameAbort_inFrame hr hrx hlen hl :)
    case error =>
      intro err b loop y hl herr
      obtain ⟨z, es, hrep, hy⟩ : ∃ z es, Reports ⟨.inFrame, none, data⟩ err z (.failed :: es)
          ∧ PortRec.Failed { r with rx := z } es y := by
        obtain ⟨rfl, hclose, habort, h1, h2, h3, rfl⟩ | ⟨hfull, ⟨rfl, hb⟩ | ⟨rfl, hb⟩, rfl⟩ | ⟨rfl, rfl⟩ | ⟨rfl, rfl⟩ :=
          herr
        · refine ⟨_, _, Rx.inFrame_broken ?_ hclose habort, .inl ⟨rfl, rfl⟩⟩
          rw [Bool.eq_false_iff, Ne, isMark_xor_stuffBit]
          simp [h1, h2, h3]
        · exact ⟨_, _, Rx.inFrame_full hfull hb, .inl ⟨rfl, rfl⟩⟩
        · exact ⟨_, _, Rx.inFrame_full_stuffed hfull (isMark_xor_stuffBit.mpr hb), .inl ⟨rfl, rfl⟩⟩
        · exact ⟨_, _, Rx.inFrame_syncA data, .inl ⟨rfl, rfl⟩⟩
        · exact ⟨_, _, Rx.inFrame_syncB data, .inr ⟨rfl, rfl⟩⟩
      have hlink (link : List Byte) :
          PortRec.Failed { r with rx := z, loop := loop, linkOut := link } es { y with loop := loop, linkOut := link } := by
        obtain ⟨he, rfl⟩ | ⟨he, rfl⟩ := hy
        · exact .inl ⟨he, rfl⟩
        · exact .inr ⟨he, rfl⟩
      obtain ⟨hno, htest⟩ := exec_frameError_inFrame hr hrx hlen hrep hl (hlink _)
      refine ⟨hno, fun body hm ht => ?_⟩
      rw [htest body hm ht, PortRec.echo_of_loop hm]
      obtain ⟨-, rfl⟩ | ⟨-, rfl⟩ := hy <;> rfl

end Sys2Proof.Machine
end

section
/-! O54: a frame that is stuffed and sent is received as itself (R155 to R158, R177). -/

namespace Sys2Proof.Machine

theorem twoBytes_length (w : BitVec 16) : (twoBytes w).length = 2 := rfl

theorem Frame.bytes_length (f : Frame) : f.bytes.length = f.body.length + 4 := by
  simp [Frame.bytes, twoBytes_length]

/-- The last two bytes of a frame are its check bytes (R158, R177). -/
theorem Frame.bytes_check (f : Frame) :
    twoBytes (frameCheck (f.bytes.take (f.bytes.length - 2))) = f.bytes.drop (f.bytes.length - 2) := by
  have hlen : f.bytes.length - 2 = (f.tag :: f.kind :: f.body).length := by
    rw [Frame.bytes_length]
    rfl
  rw [hlen, Frame.bytes, List.take_left, List.drop_left]

theorem Frame.verdict_bytes (f : Frame) : verdict f.bytes = .good :=
  verdict_of_check (by rw [Frame.bytes_length]; omega) (Frame.bytes_check f)

/-- Tag, kind and body are read back from a frame's bytes (R177). -/
theorem Frame.frameOfBuffer_bytes (f : Frame) : frameOfBuffer f.bytes = f := by
  have hbody : (f.bytes.drop 2).take (f.bytes.length - 4) = f.body := by
    rw [Frame.bytes_length]
    exact List.take_left
  rw [frameOfBuffer, hbody]
  rfl

/-- A receiver in SYNCED that takes a frame's bytes from OPEN to CLOSE (R156, R157). -/
theorem Frame.takeAll_wire {f : Frame} (h : f.bytes.length ≤ Config.maxFrame) :
    Rx.insync.takeAll (f.wire ++ [Config.esc, Config.codeClose]) = (Rx.insync, [.opened, .closed f.bytes]) := by
  have hopen : Rx.insync.takeAll [Config.esc, Config.codeOpen] = (Rx.opened, [.opened]) := rfl
  have hclose := (Rx.opened_reports h (Rx.inFrame_closes f.bytes)).all
  rw [show f.wire ++ _ = [Config.esc, Config.codeOpen] ++ (f.bytes.flatMap stuffByte ++ [Config.esc, Config.codeClose]) from rfl,
    Rx.takeAll_append, hopen, hclose]
  rfl

/-- Settles O54: the stuffed bytes bring OPEN and CLOSE alone, and the frame that CLOSE ends is the frame that was sent. -/
theorem framesComeThroughTheLink : Obligations.FramesComeThroughTheLink := by
  intro f hbody
  have hlen : f.bytes.length ≤ Config.maxFrame := by
    rw [Frame.bytes_length, show Config.maxFrame = 64 from rfl]
    omega
  have hwire := Frame.takeAll_wire hlen
  refine ⟨congrArg Prod.fst hwire, congrArg Prod.snd hwire, Frame.verdict_bytes f, Frame.frameOfBuffer_bytes f,
    fun s n hrx hm hu hroom => ?_⟩
  have hmode : (s.port n).mode ≠ .localLoop := by simp [hm]
  refine ⟨_, exec_frameOpen_off_loop rfl hmode (.inl ⟨hrx, rfl⟩), ?_⟩
  have hport (r : PortRec) : (s.setPort n r).port n = r := by rw [State.setPort_port, if_pos rfl]
  refine (exec_frameClose_off_loop (hport _) ?opened ?mode hlen).trans ?delivered
  case opened => rfl
  case mode => exact hmode
  case delivered =>
    rw [PortRec.closed_good (Frame.verdict_bytes f), PortRec.deliver_room (by exact hm) (by exact hu) (by exact hroom),
      Frame.frameOfBuffer_bytes f, State.setPort_setPort]
    simp [PortRec.echo, hm, ← hrx]

end Sys2Proof.Machine
end

section
/-! O50: what the transmitter of a port sends next, and where its bytes go (R155, R162 to R164, R169, R177). -/

namespace Sys2Proof.Machine

variable {s : State} {n : Port} {r : PortRec}

/-- Where the bytes go has nothing to do with the frame that is being sent (R163). -/
theorem PortRec.sends_tx (r : PortRec) (bytes : List Byte) (tx : Option TxFrame) :
    { r.sends bytes with tx := tx } = ({ r with tx := tx } : PortRec).sends bytes := by
  cases h : r.mode <;> simp [PortRec.sends, h]

theorem PortRec.begin_eq (r : PortRec) (k : TxKind) (f : Frame) :
    r.begin k f = ({ r with tx := some ⟨k, f⟩ } : PortRec).sends f.wire := PortRec.sends_tx ..

/-! ### Replies and events (R162, R169) -/

theorem exec_replySend_up {f : Frame} (hr : s.port n = r) (htx : r.tx = none) (hf : r.reply = some f) (hu : r.up = true) :
    exec (.replySend n) s =
      .next (s.setPort n (PortRec.sends { r with reply := none, tx := some ⟨.reply, f⟩ } f.wire)) := by
  subst hr
  change execReplySend n s = _
  simp only [execReplySend, htx, hf, if_pos hu, PortRec.begin_eq]

theorem exec_replySend_down {f : Frame} (hr : s.port n = r) (htx : r.tx = none) (hf : r.reply = some f) (hu : r.up = false) :
    exec (.replySend n) s = .next (s.setPort n { r with reply := none }) := by
  subst hr
  change execReplySend n s = _
  simp [execReplySend, htx, hf, hu]

theorem exec_eventFrame_of_offers (h : s.offersEvents n = true) :
    exec (.eventFrame n) s = .next ((s.setPort n ((s.port n).begin .events
      (eventFrameOf ((s.events n).queue.take Config.eventBatch)))).setEvents n
        { s.events n with queue := (s.events n).queue.drop Config.eventBatch }) := if_pos h

theorem State.not_offersEvents (h : (s.port n).reply ≠ none ∨ (s.events n).poll = true ∨ (s.port n).up = false) :
    s.offersEvents n = false := by
  rcases h with h | h | h <;> simp [State.offersEvents, h]

theorem exec_eventFrame_none (h : s.offersEvents n = false) : exec (.eventFrame n) s = .next s := if_neg (by simp [h])

/-! ### Test frames and ends of frames (R155, R164) -/

theorem exec_testFrameSend_of_synced {body : List Byte} (hr : s.port n = r) (htx : r.tx = none)
    (ht : r.test = some ⟨body, false⟩) (hm : r.mode = .localLoop) (hsync : r.syncedAtPair = true) :
    exec (.testFrameSend n) s = .next (s.setPort n { r with
      test := some ⟨body, true⟩, tx := some ⟨.test, testFrameOf n body⟩
      loop := r.loop ++ (testFrameOf n body).wire }) := by
  subst hr
  change execTestFrameSend n s = _
  simp [execTestFrameSend, htx, ht, hm, hsync, PortRec.begin_eq, PortRec.sends]

theorem exec_testFrameSend_waits (hr : s.port n = r) (hsync : r.syncedAtPair = false) :
    exec (.testFrameSend n) s = .next s := by
  subst hr
  change execTestFrameSend n s = _
  simp only [execTestFrameSend, hsync]
  split
  · simp
  · rfl

theorem exec_frameSent_of_begun (hr : s.port n = r) (h : r.tx.isSome = true) :
    exec (.frameSent n) s = .next (s.setPort n (PortRec.sends { r with tx := none } closeFill)) := by
  subst hr
  rw [← PortRec.sends_tx]
  exact if_pos h

end Sys2Proof.Machine

namespace Sys2Proof.Machine

/-- Settles O50: command by command; in each the bytes go where the mode of the port says (`PortRec.sends`). -/
theorem transmittersSendInOrder : Obligations.TransmittersSendInOrder := by
  rintro s n r put hr hput
  have hsends (x : PortRec) (bytes : List Byte) (hm : x.mode = r.mode) (hl : x.loop = r.loop) : x.sends bytes = put x bytes := by
    subst hput
    cases h : r.mode <;> simp [PortRec.sends, hm, hl, h]
  refine ⟨fun f htx hf => ⟨fun hu => ?replyUp, fun hu => ?replyDown, ?replyFirst⟩, ?events, fun h => ?noEvents,
    fun body g htx ht hm hg => ⟨fun hsync => ?test, fun hsync => ?testWaits⟩, fun htx => ?sent, fun htx => ?notSent, fun g => rfl⟩
  case replyUp => rw [exec_replySend_up hr htx hf hu, hsends] <;> rfl
  case replyDown => exact exec_replySend_down hr htx hf hu
  case replyFirst => exact exec_eventFrame_none (State.not_offersEvents (.inl (by simp [hr, hf])))
  case events =>
    rintro q f htx hf hu rfl hpoll hne rfl
    rw [exec_eventFrame_of_offers (by simp [State.offersEvents, hr, htx, hf, hu, hpoll, hne]), PortRec.begin_eq, hr, hsends,
      eventFrameOf, List.length_take] <;> rfl
  case noEvents => exact exec_eventFrame_none (State.not_offersEvents (.inr (by rwa [hr])))
  case test =>
    subst hg
    refine exec_testFrameSend_of_synced hr htx ht hm ?_
    obtain ⟨hrx, hloop⟩ | ⟨hrx, hloop⟩ := hsync
    all_goals
      rw [PortRec.syncedAtPair, hrx]
      obtain e | e : r.loop = _ ∨ r.loop = _ := by simpa using hloop
    all_goals rw [e]; rfl
  case testWaits =>
    refine exec_testFrameSend_waits hr ?_
    obtain hrx | hlost := hsync
    · simp [PortRec.syncedAtPair, hrx]
    · simp [PortRec.syncedAtPair, Rx.takeAll_lost hlost]
  case sent => rw [exec_frameSent_of_begun hr htx, hsends] <;> rfl
  case notSent =>
    subst hr
    exact if_neg (by simp [htx])

end Sys2Proof.Machine
end

section
/-! O51: STATUS_READ, PORT_MODE and TEST_FRAME (R159, R160, R163, R164). -/

namespace Sys2Proof.Machine

variable {s : State} {n m : Port} {b : Byte} {f : Frame} {mode : PortMode}

/-! ### Ports that a request names -/

theorem numOf_of_toNat {k : Nat} {i : Fin k} (h : b.toNat = i.val) : numOf k b = some i := by
  simp [numOf, h]

theorem State.portRequest_own (hn : n = mgmt ∨ n = m) (hb : b.toNat = m.val) (own : Port → State → State) :
    s.portRequest n b own = own m s := by
  have hmay : mayName n b = true := by rcases hn with rfl | rfl <;> simp [mayName, hb]
  simp [State.portRequest, hmay, numOf_of_toNat hb]

theorem State.portRequest_other {p : Pos} (hp : posOf n = some p) (hb : b.toNat ≠ n.val) (own : Port → State → State) :
    s.portRequest n b own = s.answer (.port n) .notPermitted := by
  have hn : n ≠ mgmt := fun h => by simp [h, posOf_mgmt] at hp
  exact if_pos (by simp [mayName, hn, hb])

theorem State.portRequest_out_of_range (hb : 16 < b.toNat) (own : Port → State → State) :
    s.portRequest mgmt b own = s.answer (.port mgmt) .badValue := by
  simp [State.portRequest, mayName, numOf_of_out_of_range hb]

/-! ### STATUS_READ (R159) -/

theorem exec_statusRead_of_offers (h : s.Offers n .statusRead f) :
    exec (.statusRead n) s = .next ((s.takeFrame n f).portRequest n (byteAt f.body 0) fun m u =>
      (u.setPort m (u.port m).clearFlags).answer (.port n) .accepted (u.port m).statusBody) :=
  congrArg Host.Outcome.next (State.dispatch_of_offers h _)

/-! ### Ports and the request in flight -/

/-- A manager's request leaves the ports of the positions alone. -/
theorem State.takeFrame_port_of_ne (h : n ≠ m) : (s.takeFrame n f).port m = s.port m := by
  rw [State.takeFrame_port, if_neg h]

theorem State.takeFrame_port_mode : ((s.takeFrame n f).port m).mode = (s.port m).mode := by
  rw [State.takeFrame_port]
  split <;> simp [*]

theorem State.takeFrame_port_test : ((s.takeFrame n f).port m).test = (s.port m).test := by
  rw [State.takeFrame_port]
  split <;> simp [*]

theorem eq_mgmt_of_portMode_permitted (h : ReqKind.portMode.permitted n = true) : n = mgmt := by
  revert n
  decide

/-! ### PORT_MODE (R163) -/

theorem State.changeMode_down (h : (s.port m).up = false) :
    s.changeMode m mode = s.setPort m (PortRec.toMode { s.port m with linkOut := fillPair } mode) := by
  simp [State.changeMode, h, State.setPort_setPort]

theorem State.changeMode_up {p : Pos} (h : (s.port (portOf p)).up = true) :
    s.changeMode (portOf p) mode = ((s.setPort (portOf p) ((s.port (portOf p)).down.toMode mode)).setChan { s.chan with
      downPtb := s.chan.downPtb ++ [p], downLcu := s.chan.downLcu ++ [p], downGfu := s.chan.downGfu ++ [p]
      downSqu := s.chan.downSqu ++ [p], downEvu := s.chan.downEvu ++ [portOf p] }).emit
        { given := [⟨.lki, mgmt, .positionDown p⟩] } := by
  have hdown : (s.portDown (portOf p)).port (portOf p) = (s.port (portOf p)).down := by
    simp [State.portDown_of_position]
  have hchange : s.changeMode (portOf p) mode = (s.portDown (portOf p)).setPort (portOf p)
      ((s.port (portOf p)).down.toMode mode) := by
    rw [← hdown]
    simp only [State.changeMode, if_pos h]
  rw [hchange, State.portDown_of_position, ← State.setPort_setPort s _ (s.port (portOf p)).down (PortRec.toMode ..)]
  rfl

section
variable (h : s.Offers n .portMode f)
include h

theorem takeFrame_port_of_portMode (hne : m ≠ mgmt) : (s.takeFrame n f).port m = s.port m :=
  State.takeFrame_port_of_ne fun e => hne (e ▸ eq_mgmt_of_portMode_permitted h.2.1)

theorem exec_portMode_bad (hbad : numOf 17 (byteAt f.body 0) = none ∨ portModeOf (byteAt f.body 1) = none) :
    exec (.portMode n) s = .next ((s.takeFrame n f).answer (.port n) .badValue) := by
  change execPortMode n s = _
  rw [execPortMode, State.dispatch_of_offers h]
  obtain e | e := hbad
  · simp [e]
  · cases numOf 17 (byteAt f.body 0) <;> simp [e]

theorem exec_portMode_mgmt (hm : numOf 17 (byteAt f.body 0) = some mgmt) (hmode : portModeOf (byteAt f.body 1) = some mode) :
    exec (.portMode n) s = .next ((s.takeFrame n f).answer (.port n) .notPermitted) := by
  change execPortMode n s = _
  simp [execPortMode, State.dispatch_of_offers h, hm, hmode]

variable (hm : numOf 17 (byteAt f.body 0) = some m) (hmode : portModeOf (byteAt f.body 1) = some mode) (hne : m ≠ mgmt)
include hm hmode hne

theorem exec_portMode_same (hsame : (s.port m).mode = mode) :
    exec (.portMode n) s = .next ((s.takeFrame n f).answer (.port n) .accepted) := by
  change execPortMode n s = _
  simp [execPortMode, State.dispatch_of_offers h, hm, hmode, hne, State.takeFrame_port_mode, hsame, -State.takeFrame_port]

theorem exec_portMode_changes (hother : (s.port m).mode ≠ mode) :
    exec (.portMode n) s = .next (((s.takeFrame n f).changeMode m mode).answer (.port n) .accepted) := by
  change execPortMode n s = _
  simp [execPortMode, State.dispatch_of_offers h, hm, hmode, hne, State.takeFrame_port_mode, hother, -State.takeFrame_port]

end

/-! ### TEST_FRAME (R164) -/

section
variable (h : s.Offers n .testFrame f)
include h

theorem exec_testFrame_bad (hm : numOf 17 (byteAt f.body 0) = none) :
    exec (.testFrame n) s = .next ((s.takeFrame n f).answer (.port n) .badValue) := by
  change execTestFrame n s = _
  simp [execTestFrame, State.dispatch_of_offers h, hm]

variable (hm : numOf 17 (byteAt f.body 0) = some m)
include hm

theorem exec_testFrame_off_loop (hmode : (s.port m).mode ≠ .localLoop) :
    exec (.testFrame n) s = .next ((s.takeFrame n f).answer (.port n) .notPermitted) := by
  change execTestFrame n s = _
  simp [execTestFrame, State.dispatch_of_offers h, hm, State.takeFrame_port_mode, hmode, -State.takeFrame_port]

theorem exec_testFrame_busy (hmode : (s.port m).mode = .localLoop) (htest : (s.port m).test.isSome = true) :
    exec (.testFrame n) s = .next ((s.takeFrame n f).answer (.port n) .busy) := by
  change execTestFrame n s = _
  simp [execTestFrame, State.dispatch_of_offers h, hm, State.takeFrame_port_mode, State.takeFrame_port_test, hmode, htest,
    -State.takeFrame_port]

theorem exec_testFrame_sets (hmode : (s.port m).mode = .localLoop) (htest : (s.port m).test = none) :
    exec (.testFrame n) s = .next (((s.takeFrame n f).setPort m
      { (s.takeFrame n f).port m with test := some ⟨f.body.drop 1, false⟩ }).answer (.port n) .accepted) := by
  change execTestFrame n s = _
  simp [execTestFrame, State.dispatch_of_offers h, hm, State.takeFrame_port_mode, State.takeFrame_port_test, hmode, htest,
    -State.takeFrame_port]

end

end Sys2Proof.Machine

namespace Sys2Proof.Machine

/-- Settles O51: request by request, each check of its owner and then its effect on the port that it names. -/
theorem statusModesAndTests : Obligations.StatusModesAndTests := by
  rintro s u n f rfl
  refine ⟨fun h => ⟨fun p hp hb => ?other, ?range, fun m x hb hn hx => ?read⟩,
    fun h => ⟨exec_portMode_bad h, fun m mode hm hmode =>
      ⟨?mgmt, fun x hne hx hsame => ?same, fun x hne hx hother hup => ?changesDown, ?changesUp⟩⟩,
    fun h => ⟨exec_testFrame_bad h, fun m hm => ⟨exec_testFrame_off_loop h hm, exec_testFrame_busy h hm, ?tests⟩⟩⟩
  case other => rw [exec_statusRead_of_offers h, State.portRequest_other hp hb]
  case range =>
    rintro rfl hb
    rw [exec_statusRead_of_offers h, State.portRequest_out_of_range hb]
  case read =>
    subst hx
    rw [exec_statusRead_of_offers h, State.portRequest_own hn hb]
    rfl
  case mgmt =>
    rintro rfl
    exact exec_portMode_mgmt h hm hmode
  case same => exact exec_portMode_same h hm hmode hne (by rwa [hx])
  case changesDown =>
    have hport := (takeFrame_port_of_portMode h hne).trans hx
    rw [exec_portMode_changes h hm hmode hne (by rwa [hx]), State.changeMode_down (by rwa [hport]), hport]
    rfl
  case changesUp =>
    rintro x p rfl hx hother hup
    have hne := portOf_ne_mgmt p
    have hport := (takeFrame_port_of_portMode h hne).trans hx
    rw [exec_portMode_changes h hm hmode hne (by rwa [hx]), State.changeMode_up (by rwa [hport]), hport]
    rfl
  case tests =>
    rintro x rfl hloop htest
    exact exec_testFrame_sets h hm hloop htest

end Sys2Proof.Machine
end

section
/-! O5: the dispatcher's checks, for every kind of request (R166). -/

namespace Sys2Proof.Machine

variable {s : State} {n : Port} {k : ReqKind} {f : Frame}

theorem State.request_port (s : State) (k : ReqKind) (n : Port) (own : Pos → Via → List Byte → State → State) :
    s.request k (.port n) own = s.dispatchIf k n (fun _ => true) fun body t => match posOf n with
      | some p => own p .link body t
      | none => t := rfl

theorem State.tapRequest_eq (s : State) (k : ReqKind) (n : Port) (own : TapNo → List Byte → State → State) :
    s.tapRequest k n own = s.dispatchIf k n (fun _ => true) fun b t => match numOf 16 (byteAt b 0) with
      | none => t.answer (.port n) .badValue
      | some r => own r b t := rfl

/-- Every command that takes a port's request passes it through the dispatcher, whoever owns it (R166). -/
theorem exec_commandOf (k : ReqKind) (n : Port) (s : State) :
    ∃ ok own, exec (commandOf k n) s = .next (s.dispatchIf k n ok own) := by
  cases k with
  -- What a position's sequence may send too, or what names the position to the owner.
  | takeLine | release | hold | setPrivacy | mute | signalLine | assignSpeaker | joinGroup | callPosition | answerCall
  | declineCall | floorRequest | floorRelease | runSequence | abortSequence =>
    exact ⟨_, _, congrArg Host.Outcome.next (State.request_port ..)⟩
  -- What names a tap to RTU.
  | tapSet | tapEnable | tapDisable | tapLock | tapUnlock | tapFix | queryTap =>
    exact ⟨_, _, congrArg Host.Outcome.next (State.tapRequest_eq ..)⟩
  | _ => exact ⟨_, _, rfl⟩

theorem exec_commandOf_not_permitted (h : s.Heads n k f) (hp : k.permitted n = false) :
    exec (commandOf k n) s = .next ((s.takeFrame n f).answer (.port n) .notPermitted) := by
  obtain ⟨ok, own, hexec⟩ := exec_commandOf k n s
  rw [hexec, State.dispatchIf_not_permitted h hp]

theorem exec_commandOf_bad_length (h : s.Heads n k f) (hp : k.permitted n = true)
    (hl : k.lengthOk f.body.length = false) :
    exec (commandOf k n) s = .next ((s.takeFrame n f).answer (.port n) .badValue) := by
  obtain ⟨ok, own, hexec⟩ := exec_commandOf k n s
  rw [hexec, State.dispatchIf_bad_length h hp hl]

theorem State.awaits_of_head (hfree : (s.port n).inFlight = none) (hreply : (s.port n).reply = none)
    (hhead : (s.port n).queue.head? = some f) {ok : Frame → Bool} (hok : ok f = true) : s.awaits n ok = some f := by
  obtain ⟨rest, hqueue⟩ := List.head?_eq_some_iff.mp hhead
  simp [State.awaits, hfree, hreply, hqueue, hok]

theorem exec_unknownRequest_of_head (hfree : (s.port n).inFlight = none) (hreply : (s.port n).reply = none)
    (hhead : (s.port n).queue.head? = some f) (hkind : reqKindOf f.kind = none) :
    exec (.unknownRequest n) s = .next ((s.takeFrame n f).answer (.port n) .unknownRequest) := by
  change execUnknownRequest n s = _
  rw [execUnknownRequest, State.awaits_of_head hfree hreply hhead (by simp [hkind])]

/-- Settles O5: check 1 is UNKNOWN_REQUEST's own; checks 2 and 3 stand in the dispatcher, whichever owner is behind it. -/
theorem dispatcherChecksInOrder : Obligations.DispatcherChecksInOrder :=
  ⟨fun _ _ _ => exec_unknownRequest_of_head, fun _ _ _ _ => exec_commandOf_not_permitted,
    fun _ _ _ _ => exec_commandOf_bad_length⟩

end Sys2Proof.Machine
end

section
/-! O52: EVU's records placed, set up, fetched, summarised and reset (R168 to R171). -/

namespace Sys2Proof.Machine

variable {s : State} {n m : Port} {f : Frame}

/-! ### RECORD_PLACEMENT (R168) -/

/-- The first case of R168 that matches places a record of a class. -/
theorem EventPort.place_of_class (q : EventPort) {e : Event} {c : EventClass} (hc : e.class = some c) :
    q.place e =
      if q.up = false then q
      else if q.masked.look c.index = true ∨ 32 ≤ q.queue.length then { q with marks := q.marks.put c.index true }
      else { q with queue := q.queue ++ [e] } := by
  rw [EventPort.place, hc, ite_or]
  rfl

theorem exec_recordPlacement_of_take {b : Block} {g : Given} {rest : List Given}
    (h : takeRecord b s.chan.given = some (g, rest)) :
    exec (.recordPlacement b) s =
      .next ((s.setChan { s.chan with given := rest }).setEvents g.port ((s.events g.port).place g.event)) := by
  change execRecordPlacement b s = _
  rw [execRecordPlacement, h]

/-! ### EVENT_SETUP (R170) -/

/-- Whether a class opens with its mark SET. -/
def EventPort.opens (q : EventPort) (masked : Table 5 Bool) (c : EventClass) : Bool :=
  q.masked.look c.index && !masked.look c.index && q.marks.look c.index

/-- What one class adds: its SUMMARY where it opens, on an UP port and while there is room. -/
def EventPort.summarise (q : EventPort) (masked : Table 5 Bool) (x : EventPort) (c : EventClass) : EventPort :=
  if q.opens masked c && q.up && decide (x.queue.length < Config.eventRoom) then
    { x with queue := x.queue ++ [.summary c] }
  else x

theorem EventPort.summaries_eq_foldl (q : EventPort) (masked : Table 5 Bool) :
    q.summaries masked = [EventClass.line, .floor, .call, .sequence, .system].foldl (q.summarise masked) q := rfl

theorem EventPort.summaries_of_down {q : EventPort} (h : q.up = false) (masked : Table 5 Bool) : q.summaries masked = q := by
  simp [EventPort.summaries_eq_foldl, EventPort.summarise, h]

/-- On an UP port the classes that open give their SUMMARY in order, as many as there is room for. -/
theorem EventPort.foldl_summarise {q : EventPort} (h : q.up = true) (masked : Table 5 Bool) (cs : List EventClass)
    (x : EventPort) : cs.foldl (q.summarise masked) x = { x with
      queue := x.queue ++ ((cs.filter (q.opens masked)).take (32 - x.queue.length)).map Event.summary } := by
  induction cs generalizing x with
  | nil => simp
  | cons c cs ih =>
    rw [List.foldl_cons, ih]
    by_cases hopens : q.opens masked c = true
    · by_cases hroom : x.queue.length < 32
      · have hleft : 32 - x.queue.length = 32 - (x.queue.length + 1) + 1 := by omega
        simp [EventPort.summarise, Config.eventRoom, h, hopens, hroom, hleft]
      · have hfull : 32 - x.queue.length = 0 := by omega
        simp [EventPort.summarise, Config.eventRoom, hroom, hfull]
    · simp [EventPort.summarise, hopens]

/-- What EVENT_SETUP makes of the port that it names (R170). -/
theorem EventPort.summaries_setup (q : EventPort) (masked : Table 5 Bool) (poll : Bool) :
    ({ q.summaries masked with masked := masked, poll := poll } : EventPort) = { q with
      masked := masked, poll := poll
      queue := q.queue ++ if q.up = false then [] else
        (([EventClass.line, .floor, .call, .sequence, .system].filter (q.opens masked)).take
          (32 - q.queue.length)).map Event.summary } := by
  cases hup : q.up with
  | false => simp [EventPort.summaries_of_down hup, hup]
  | true => simp [EventPort.summaries_eq_foldl, EventPort.foldl_summarise hup, hup]

section
variable (h : s.Offers n .eventSetup f)
include h

theorem exec_eventSetup_other {p : Pos} (hp : posOf n = some p) (hb : (byteAt f.body 0).toNat ≠ n.val) :
    exec (.eventSetup n) s = .next ((s.takeFrame n f).answer (.port n) .notPermitted) := by
  change execEventSetup n s = _
  rw [execEventSetup, State.dispatch_of_offers h, State.portRequest_other hp hb]

theorem exec_eventSetup_out_of_range (hn : n = mgmt) (hb : 16 < (byteAt f.body 0).toNat) :
    exec (.eventSetup n) s = .next ((s.takeFrame n f).answer (.port n) .badValue) := by
  subst hn
  change execEventSetup mgmt s = _
  rw [execEventSetup, State.dispatch_of_offers h, State.portRequest_out_of_range hb]

variable (hb : (byteAt f.body 0).toNat = m.val) (hn : n = mgmt ∨ n = m)
include hb hn

theorem exec_eventSetup_bad_mode (hpoll : onOffOf (byteAt f.body 2) = none) :
    exec (.eventSetup n) s = .next ((s.takeFrame n f).answer (.port n) .badValue) := by
  change execEventSetup n s = _
  rw [execEventSetup, State.dispatch_of_offers h, State.portRequest_own hn hb, pollOf, hpoll]

theorem exec_eventSetup_sets {poll : Bool} (hpoll : onOffOf (byteAt f.body 2) = some poll) :
    exec (.eventSetup n) s = .next (((s.takeFrame n f).setEvents m
      { (s.events m).summaries (masksOf (byteAt f.body 1)) with
        masked := masksOf (byteAt f.body 1), poll := poll }).answer (.port n) .accepted) := by
  change execEventSetup n s = _
  rw [execEventSetup, State.dispatch_of_offers h, State.portRequest_own hn hb, pollOf, hpoll]
  rfl

end

/-! ### FETCH_EVENTS and SUMMARY (R169, R170) -/

theorem exec_fetchEvents_of_offers (h : s.Offers n .fetchEvents f) :
    exec (.fetchEvents n) s = .next (((s.takeFrame n f).setEvents n
      { s.events n with queue := (s.events n).queue.drop 8 }).answer (.port n) .accepted
        ([byteOf (min 8 (s.events n).queue.length)] ++ ((s.events n).queue.take 8).flatMap Event.bytes
          ++ [byteOf ((s.events n).queue.length - 8)])) := by
  change execFetchEvents n s = _
  simp only [execFetchEvents, State.dispatch_of_offers h, State.takeFrame_events, List.length_take, List.length_drop,
    Config.eventBatch]

theorem exec_summary_of_offers (h : s.Offers n .summary f) :
    exec (.summary n) s = .next (((s.takeFrame n f).setEvents n (s.events n).clearMarks).answer (.port n) .accepted
      [(s.events n).marksByte]) :=
  congrArg Host.Outcome.next (State.dispatch_of_offers h _)

/-! ### PORT_RESET (R171) -/

theorem exec_portReset_of_offers (h : s.Offers n .portReset f) :
    exec (.portReset n) s = .next ((s.takeFrame n f).portRequest n (byteAt f.body 0) fun m u =>
      (u.resetPort m).answer (.port n) .accepted) :=
  congrArg Host.Outcome.next (State.dispatch_of_offers h _)

/-- Settles O52: the placement of a record by its cases, then request by request, each check of its owner and its effect. -/
theorem eventsArePlacedAndRead : Obligations.EventsArePlacedAndRead := by
  refine fun s => ⟨?place, ?requests⟩
  case place =>
    rintro b rest g q c t htake rfl hc rfl
    rw [exec_recordPlacement_of_take htake, EventPort.place_of_class _ hc]
  case requests =>
    rintro n f u rfl
    refine ⟨fun h => ⟨fun p => exec_eventSetup_other h, exec_eventSetup_out_of_range h,
        fun m => exec_eventSetup_bad_mode h, ?sets⟩,
      ?fetch, ?summary, fun h => ⟨fun p hp hb => ?other, ?range, fun m hb hn => ?reset⟩⟩
    case sets =>
      rintro m q masked poll opens hb hn rfl hpoll rfl rfl
      rw [exec_eventSetup_sets h hb hn hpoll, EventPort.summaries_setup]
      rfl
    case fetch =>
      rintro h q rfl
      exact exec_fetchEvents_of_offers h
    case summary =>
      rintro h q rfl
      exact exec_summary_of_offers h
    case other => rw [exec_portReset_of_offers h, State.portRequest_other hp hb]
    case range =>
      rintro rfl hb
      rw [exec_portReset_of_offers h, State.portRequest_out_of_range hb]
    case reset =>
      rw [exec_portReset_of_offers h, State.portRequest_own hn hb]
      rfl

end Sys2Proof.Machine
end

section
/-! The step of the part, and the kind bytes (R178): each request's own byte names it, and only that byte does. -/

namespace Sys2Proof

/-- Settles O1: with a command at the front of its queue the part runs it on the rest. -/
theorem stepTakesTheFrontCommand : Obligations.StepTakesTheFrontCommand := fun _ _ _ => rfl

/-- The place where an element of a list without repetition is found is its index. -/
theorem idxOf_of_getElem?_eq_some {α : Type} [BEq α] [LawfulBEq α] {l : List α} {i : Nat} {a : α} (hl : l.Nodup)
    (h : l[i]? = some a) : a ∈ l ∧ l.idxOf a = i := by
  obtain ⟨hi, rfl⟩ := List.getElem?_eq_some_iff.mp h
  exact ⟨List.getElem_mem hi, hl.idxOf_getElem i hi⟩

theorem positionKinds_nodup : positionKinds.Nodup := by decide
theorem bothKinds_nodup : bothKinds.Nodup := by decide
theorem managerKinds_nodup : managerKinds.Nodup := by decide

/-- No request stands in two of the three classes of R167. -/
theorem kinds_disjoint :
    (∀ k ∈ bothKinds, k ∉ positionKinds) ∧ ∀ k ∈ managerKinds, k ∉ positionKinds ∧ k ∉ bothKinds := by decide

/-- A request's own byte names it (R178). -/
theorem reqKindOf_code (k : ReqKind) : reqKindOf k.code = some k := by cases k <;> decide

/-- A byte that is a base and a place above it is the number it is built from. -/
theorem Byte.ofNat_base_add {b : Byte} {n i : Nat} (hn : n ≤ b.toNat) (hi : b.toNat - n = i) : BitVec.ofNat 8 (n + i) = b := by
  subst hi
  rw [Nat.add_sub_cancel' hn, BitVec.ofNat_toNat, BitVec.setWidth_eq]

/-- A byte that names a request is that request's own byte: it is the base of the request's class and its place there (R178). -/
theorem code_of_reqKindOf {b : Byte} {k : ReqKind} (h : reqKindOf b = some k) : b = k.code := by
  unfold reqKindOf at h
  split at h
  · cases h
  · split at h
    · obtain ⟨hk, hi⟩ := idxOf_of_getElem?_eq_some positionKinds_nodup h
      rw [ReqKind.code, if_pos hk, Byte.ofNat_base_add (by omega) hi.symm]
    · split at h
      · obtain ⟨hk, hi⟩ := idxOf_of_getElem?_eq_some bothKinds_nodup h
        rw [ReqKind.code, if_neg (kinds_disjoint.1 k hk), if_pos hk, Byte.ofNat_base_add (by omega) hi.symm]
      · obtain ⟨hk, hi⟩ := idxOf_of_getElem?_eq_some managerKinds_nodup h
        obtain ⟨hp, hb⟩ := kinds_disjoint.2 k hk
        rw [ReqKind.code, if_neg hp, if_neg hb, Byte.ofNat_base_add (by omega) hi.symm]

/-- Settles O7: each class of R167 is a list without repetition, and the classes have no request in common. -/
theorem kindBytesNameTheirRequests : Obligations.KindBytesNameTheirRequests :=
  ⟨reqKindOf_code, fun _ _ => code_of_reqKindOf, by decide, by decide, by decide, by decide, by decide, by decide⟩

end Sys2Proof
end

section
/-! The soft reset (R173 to R175): an owner takes it once, and what PTB, LCU and GFU send as they take it, path by path. -/

namespace Sys2Proof.Machine

/-! ### Taking the reset once (R174) -/

theorem State.ownerReset_of_taken {s : State} {taken : ResetProgress → Bool} {mark : ResetProgress → ResetProgress}
    {act : State → State} (h : ∀ r, s.lki.softReset = some r → taken r = true) : s.ownerReset taken mark act = s := by
  unfold State.ownerReset
  split
  · rfl
  · next r hr => rw [if_pos (h r hr)]

theorem State.ownerReset_of_due {s : State} {r : ResetProgress} {taken : ResetProgress → Bool}
    {mark : ResetProgress → ResetProgress} {act : State → State} (hr : s.lki.softReset = some r) (h : taken r = false) :
    s.ownerReset taken mark act = (act s).setReset (some (mark r)) := by
  simp only [State.ownerReset, hr, h, Bool.false_eq_true, if_false]

section
variable {s : State} {r : ResetProgress} (hr : s.lki.softReset = some r)
include hr

/-- While PTB has yet to take the reset, the owners ahead of it are those that have taken it (R175). -/
theorem State.aheadOfPtb_of_due (h : r.ptb = false) (o : Owner) : s.aheadOfPtb o = r.takenBy o := by
  simp [State.aheadOfPtb, hr, h]

/-- An owner that has yet to take the reset is behind PTB where PTB has taken it (R175). -/
theorem State.behindPtb_of_due {o : Owner} (h : r.takenBy o = false) : s.behindPtb o = r.ptb := by
  simp [State.behindPtb, hr, h]
end

/-! ### PTB (R32, R36, R49, R66) -/

/-- Of a position that loses every assignment, the listening notices are the listen-offs of the groups that it had (R66). -/
theorem listeningNotices_cleared (p : Pos) (a : Table 6 Target) (ofReset : Bool) :
    listeningNotices p a (Table.fill .none) ofReset =
      ((List.finRange 16).filter fun g => decide (∃ k, a.look k = .group g)).map fun g => ⟨p, g, false, ofReset⟩ := by
  have nothing (g : Grp) : listensTo (Table.fill .none) g = false := by simp [listensTo]
  have had (g : Grp) : listensTo a g = decide (∃ k, a.look k = .group g) := by
    rw [Bool.eq_iff_iff]
    simp [listensTo]
  simp [listeningNotices, nothing, had]

theorem flatMap_returns (ps : List Pos) (r : Pos → PosRec) (o : Owner) (past : Bool) :
    (ps.flatMap fun p => (r p).returns o p past) =
      if past = false then []
      else ps.flatMap fun p => [Handset.A, .B].filterMap fun h => returnOf o p h ((r p).claim.of h) := by
  cases past <;> simp [PosRec.returns]

theorem claims_eq_none_iff (x : Pair Claim) : x.a = .none ∧ x.b = .none ↔ x = ⟨.none, .none⟩ := by
  cases x; simp

theorem State.ptbReset_pos (s : State) (p : Pos) : s.ptbReset.pos p = (s.pos p).soft := Table.look_build ..

/-- The paths after PTB has taken the reset: its POSITION notices, its listen-offs, and the return notices to the owners that have
taken it before. -/
theorem State.ptbReset_chan {s : State} {r : ResetProgress} (hr : s.lki.softReset = some r) (h : r.ptb = false) :
    s.ptbReset.chan = { s.chan with
      notices := s.chan.notices ++ (List.finRange 16).flatMap fun p =>
        if (s.pos p).claim = ⟨.none, .none⟩ then [] else [.position p]
      listening := s.chan.listening ++ (List.finRange 16).flatMap fun p =>
        ((List.finRange 16).filter fun g => decide (∃ k, (s.pos p).assign.look k = .group g)).map fun g => ⟨p, g, false, true⟩
      toLcu := s.chan.toLcu ++ if r.lcu = false then [] else
        (List.finRange 16).flatMap fun p => [Handset.A, .B].filterMap fun h => match (s.pos p).claim.of h with
          | .line l => some (.giveBack p h (.line l))
          | _ => none
      toGfu := s.chan.toGfu ++ if r.gfu = false then [] else
        (List.finRange 16).flatMap fun p => [Handset.A, .B].filterMap fun h => match (s.pos p).claim.of h with
          | .group g => some (.giveBack p h (.group g))
          | .call c => some (.giveBack p h (.call c))
          | _ => none } := by
  have ahead : s.aheadOfPtb = r.takenBy := funext (State.aheadOfPtb_of_due hr h)
  simp only [State.ptbReset, Sends.all_softSends, ahead, flatMap_returns, listeningNotices_cleared, claims_eq_none_iff,
    returnOf_lcu, returnOf_gfu, State.emit, Chan.add, List.append_nil]
  rfl

/-! ### LCU (R27, R28, R51) -/

theorem softLine_of_cleared {l : Line} {r : LineRec} {tell : Bool} (hs : r.state ≠ .outOfService)
    (hk : r.cfg.kind = .ringdown ∨ r.cfg.kind = .automatic) :
    (softLine l r tell).line = { r with
      state := .idle, nearSeize := false, ringOut := false, stateTimer := none, direction := none, privacy := false,
      connected := [], owner := none, resetIdle := true } := by
  rw [softLine, if_pos (r.clearedByReset_iff.mpr ⟨hs, hk⟩)]
  rfl

theorem softLine_of_kept {l : Line} {r : LineRec} {tell : Bool}
    (h : r.state = .outOfService ∨ r.cfg.kind = .hoot ∨ r.cfg.kind = .unused) : (softLine l r tell).line = r := by
  rw [softLine, if_neg]
  rw [LineRec.clearedByReset_iff]
  rintro ⟨hs, hk⟩
  rcases h with h | h | h
  · exact hs h
  all_goals simp [h] at hk

theorem State.lcuReset_line (s : State) (l : Line) :
    s.lcuReset.line l = (softLine l (s.line l) (s.behindPtb .lcu)).line := Table.look_build ..

theorem State.lcuReset_row (s : State) (l : Line) (p : Pos) :
    (s.lcuReset.row l).look p = ⟨((s.row l).look p).mode, true⟩ := by
  simp [State.lcuReset, State.endWaiting, State.row]

theorem State.lcuReset_waiting (s : State) :
    s.lcuReset.lcu.waiting = s.lcu.waiting.map fun w => if w.ended = none then { w with ended := some true } else w := by
  simp [State.lcuReset, State.endWaiting]

/-- The paths after LCU has taken the reset: a LINE notice for each line that leaves INCOMING, the release notices to a PTB that has
taken it before, the ended takes, and the coverage that goes back. -/
theorem State.lcuReset_chan {s : State} {r : ResetProgress} (hr : s.lki.softReset = some r) (h : r.lcu = false) :
    s.lcuReset.chan = { s.chan with
      notices := s.chan.notices ++ (List.finRange 64).flatMap fun l =>
        if (s.line l).state = .incoming ∧ ((s.line l).cfg.kind = .ringdown ∨ (s.line l).cfg.kind = .automatic) then
          [.line l] else []
      fromLcu := s.chan.fromLcu
        ++ (if r.ptb = false then [] else (List.finRange 64).flatMap fun l =>
          if (s.line l).state ≠ .outOfService ∧ ((s.line l).cfg.kind = .ringdown ∨ (s.line l).cfg.kind = .automatic) then
            (s.line l).connected.map fun c => .released c.pos c.hs (.line l)
          else [])
        ++ (s.lcu.waiting.filter fun w => w.ended.isNone).map fun w => .outcome w.pos w.hs w.via (.inr .handsetBusy)
      toRtu := s.chan.toRtu ++ (List.finRange 64).flatMap fun l =>
        if (s.line l).state ≠ .outOfService ∧ ((s.line l).cfg.kind = .ringdown ∨ (s.line l).cfg.kind = .automatic) then
          ((s.line l).connected.filter fun c => c.covered).map fun c => .release c.pos c.hs l true
        else [] } := by
  have leaves (l : Line) : ((s.line l).clearedByReset && decide ((s.line l).state = .incoming)) = true ↔
      (s.line l).state = .incoming ∧ ((s.line l).cfg.kind = .ringdown ∨ (s.line l).cfg.kind = .automatic) := by
    simp only [Bool.and_eq_true, LineRec.clearedByReset_iff, decide_eq_true_eq]
    constructor
    · rintro ⟨⟨-, hk⟩, hs⟩
      exact ⟨hs, hk⟩
    · rintro ⟨hs, hk⟩
      exact ⟨⟨by simp [hs], hk⟩, hs⟩
  have told : ((List.finRange 64).flatMap fun l => if (s.line l).clearedByReset && r.ptb then
        (s.line l).connected.map fun c => ToPtb.released c.pos c.hs (.line l) else []) =
      if r.ptb = false then [] else (List.finRange 64).flatMap fun l =>
        if (s.line l).clearedByReset then (s.line l).connected.map fun c => .released c.pos c.hs (.line l) else [] := by
    cases r.ptb <;> simp
  simp only [State.lcuReset, State.endWaiting, State.behindPtb_of_due hr (o := .lcu) h, Sends.all_softLines, told, leaves,
    LineRec.clearedByReset_iff, State.emit, Chan.add, Bool.true_and, List.append_nil]

/-! ### GFU (R57, R67, R69, R77, R95) -/

/-- The notices that end the tone and the voice of the ALERTING calls (R69). -/
theorem Sends.all_alertEnds (cs : List CallNo) (r : CallNo → CallRec) :
    Sends.all (cs.map fun c => (r c).alertEnds) =
      { notices := cs.flatMap fun c => match r c with
          | .alerting _ _ callee _ _ => [.position callee]
          | _ => [] } := by
  rw [← Sends.all_notices]
  refine congrArg Sends.all (congrArg (List.map · cs) (funext fun c => ?_))
  cases r c <;> rfl

/-- The release notices of every handset that GFU holds (R36). -/
theorem State.gfuReleases_of_all (s : State) :
    s.gfuReleases (fun _ => true) =
      ((List.finRange 16).flatMap fun g => (s.group g).joined.map fun m => .released m.1 m.2 (.group g))
      ++ (List.finRange 8).flatMap fun c => match s.call c with
        | .free => []
        | .alerting q k _ _ _ => [.released q k (.call c)]
        | .active q k a i _ => [.released q k (.call c), .released a i (.call c)] := by
  unfold State.gfuReleases
  refine congrArg₂ (· ++ ·) (by simp only [List.filter_true]) (congrArg (List.flatMap · _) (funext fun c => ?_))
  cases s.call c <;> rfl

theorem State.gfuReset_group (s : State) (g : Grp) :
    s.gfuReset.group g = { s.group g with joined := [], floor := Floor.empty } := Table.look_build ..

theorem State.gfuReset_call (s : State) (c : CallNo) : s.gfuReset.call c = .free := Table.look_fill ..

/-- The paths after GFU has taken the reset: the notices of the ALERTING callees, then those of the floors, and the release notices to
a PTB that has taken it before. -/
theorem State.gfuReset_chan {s : State} {r : ResetProgress} (hr : s.lki.softReset = some r) (h : r.gfu = false)
    {leaving : Grp → List Pos}
    (hl : ∀ g, leaving g = (s.group g).floor.holderPos.toList ++ (s.group g).floor.talkers.map fun k => k.pos) :
    s.gfuReset.chan = { s.chan with
      notices := s.chan.notices
        ++ ((List.finRange 8).flatMap fun c => match s.call c with
          | .alerting _ _ callee _ _ => [.position callee]
          | _ => [])
        ++ (List.finRange 16).flatMap fun g =>
          if leaving g = [] then [] else .group g :: (leaving g).map .position
      fromGfu := s.chan.fromGfu ++ if r.ptb = false then [] else
        ((List.finRange 16).flatMap fun g => (s.group g).joined.map fun m => .released m.1 m.2 (.group g))
        ++ (List.finRange 8).flatMap fun c => match s.call c with
          | .free => []
          | .alerting q k _ _ _ => [.released q k (.call c)]
          | .active q k a i _ => [.released q k (.call c), .released a i (.call c)] } := by
  have told (l : List ToPtb) : (if r.ptb = true then l else []) = if r.ptb = false then [] else l := by cases r.ptb <;> rfl
  simp only [State.gfuReset, State.behindPtb_of_due hr (o := .gfu) h, Sends.all_alertEnds, Floor.clears_eq, ← hl,
    Sends.all_notices, State.gfuReleases_of_all, told, Sends.and, State.emit, Chan.add, List.append_nil, List.nil_append,
    List.append_assoc]

/-! ### The completion (R27, R98, R134, R174) -/

theorem lcuCompletes_of_rise {l : Line} {row : Table 16 Appearance} {r : LineRec} (hi : r.resetIdle = true)
    (hs : r.state = .idle) (hq : r.qualified = true) (hk : r.cfg.kind = .ringdown ∨ r.cfg.kind = .automatic) :
    lcuCompletes l row r =
      let y := toIncoming { r with resetIdle := false }
      ⟨y, { given := lineStates l row y .none, notices := [.line l] }⟩ := by
  rw [lcuCompletes, if_pos hi, readFarSeize_of_high (r := { r with resetIdle := false }) hs hq hk]

/-- A line that the reset has not put in IDLE, that is no longer there, or whose far end is silent or not heard, stays as it is but
for the mark of the reset. -/
theorem lcuCompletes_of_no_rise {l : Line} {row : Table 16 Appearance} {r : LineRec}
    (h : ¬(r.resetIdle = true ∧ r.state = .idle ∧ r.qualified = true ∧ (r.cfg.kind = .ringdown ∨ r.cfg.kind = .automatic))) :
    lcuCompletes l row r = ⟨{ r with resetIdle := false }, {}⟩ := by
  cases hi : r.resetIdle with
  | false =>
    rw [lcuCompletes, if_neg (by simp [hi]), ← hi]
  | true =>
    rw [lcuCompletes, if_pos hi, readFarSeize]
    split
    · next hq =>
      have hk : ¬(r.cfg.kind = .ringdown ∨ r.cfg.kind = .automatic) := fun hk => h ⟨hi, hq.1, hq.2, hk⟩
      have deaf : r.cfg.kind = .hoot ∨ r.cfg.kind = .unused := by cases e : r.cfg.kind <;> simp [e] at hk ⊢
      exact qualifiedRise_of_deaf (.inr deaf)
    · rfl

/-- What LCU does to each of some lines, one after another, each once: every line moves by its own record, and the sends follow in
order. -/
theorem State.foldl_applyLine (fx : Line → Table 16 Appearance → LineRec → LineFx) {ls : List Line} (h : ls.Nodup) (s : State) :
    ls.foldl (fun u l => u.applyLine l (fx l (u.row l) (u.line l))) s =
      State.emit { s with lcu := { s.lcu with
          lines := Table.build fun l => if l ∈ ls then (fx l (s.row l) (s.line l)).line else s.line l } }
        (Sends.all (ls.map fun l => (fx l (s.row l) (s.line l)).out)) := by
  induction ls generalizing s with
  | nil =>
    have e : (Table.build fun l => s.line l) = s.lcu.lines := Table.ext_look fun l => Table.look_build ..
    simp [e]
  | cons k ls ih =>
    obtain ⟨hk, hls⟩ := List.nodup_cons.mp h
    rw [List.foldl_cons]
    generalize hu : s.applyLine k (fx k (s.row k) (s.line k)) = u
    have hrow (l : Line) : u.row l = s.row l := by rw [← hu, State.applyLine_row]
    have hline {l : Line} (hl : l ∈ ls) : u.line l = s.line l := by
      rw [← hu, State.applyLine_line, if_neg (ne_of_mem_of_not_mem hl hk).symm]
    have hfx {l : Line} (hl : l ∈ ls) : fx l (u.row l) (u.line l) = fx l (s.row l) (s.line l) := by rw [hrow, hline hl]
    have hlines : (Table.build fun l => if l ∈ ls then (fx l (u.row l) (u.line l)).line else u.line l) =
        Table.build fun l => if l ∈ k :: ls then (fx l (s.row l) (s.line l)).line else s.line l := by
      refine congrArg Table.build (funext fun l => ?_)
      by_cases hl : l ∈ ls
      · simp [hl, hfx]
      · by_cases e : k = l
        · simp [← e, ← hu, hk]
        · simp [hl, ← hu, e, Ne.symm e]
    rw [ih hls, hlines, List.map_congr_left fun l hl => congrArg LineFx.out (hfx hl), List.map_cons, Sends.all_cons,
      ← State.emit_emit, ← hu]
    rfl

/-- A line once the reset has completed: INCOMING where its far seize rises, and without the mark of the reset (R27). -/
def LineRec.completed (r : LineRec) (rises : Bool) : LineRec :=
  if rises then toIncoming { r with resetIdle := false } else { r with resetIdle := false }

theorem lcuCompletes_eq {l : Line} {row : Table 16 Appearance} {r : LineRec} {rises : Bool}
    (h : rises = true ↔
      r.resetIdle = true ∧ r.state = .idle ∧ r.qualified = true ∧ (r.cfg.kind = .ringdown ∨ r.cfg.kind = .automatic)) :
    lcuCompletes l row r = ⟨r.completed rises,
      { given := if rises = true then lineStates l row (r.completed rises) .none else []
        notices := if rises = true then [.line l] else [] }⟩ := by
  cases rises with
  | true =>
    obtain ⟨hi, hs, hq, hk⟩ := h.mp rfl
    exact lcuCompletes_of_rise hi hs hq hk
  | false => exact lcuCompletes_of_no_rise fun hr => Bool.false_ne_true (h.mpr hr)

/-- The part once the reset has completed, but for the reply: the lines and what they give, and every leg to be derived. -/
def State.completed (s : State) (rises : Line → Bool) : State := { s with
  cmx := s.cmx.await fun _ => true
  lcu := { s.lcu with lines := Table.build fun l => (s.line l).completed (rises l) }
  lki := { s.lki with softReset := none }
  chan := { s.chan with
    given := s.chan.given ++ (List.finRange 64).flatMap fun l =>
      if rises l = true then lineStates l (s.row l) ((s.line l).completed (rises l)) .none else []
    notices := s.chan.notices ++ ((List.finRange 64).filter rises).map Subject.line ++ (List.finRange 16).map Subject.tap } }

theorem State.completeReset_eq {s : State} {rises : Line → Bool}
    (h : ∀ l, rises l = true ↔ (s.line l).resetIdle = true ∧ (s.line l).state = .idle ∧ (s.line l).qualified = true
      ∧ ((s.line l).cfg.kind = .ringdown ∨ (s.line l).cfg.kind = .automatic)) :
    s.completeReset = (s.completed rises).answer (.port mgmt) .accepted := by
  have hnil (α : Type) : (List.finRange 64).flatMap (fun _ => ([] : List α)) = [] := by simp
  simp only [State.completeReset, State.lcuComplete, State.foldl_applyLine lcuCompletes (List.nodup_finRange 64),
    List.mem_finRange, if_true, lcuCompletes_eq (h _), Sends.all_eq, List.flatMap_map, hnil, flatMap_if, State.emit, Chan.add,
    tapNotices, List.append_nil]
  rfl

theorem ResetProgress.complete_iff {r : ResetProgress} : r.complete = true ↔ r = ⟨true, true, true, true, true, true⟩ := by
  cases r
  simp [ResetProgress.complete, and_assoc]

end Sys2Proof.Machine
end

section
/-! The shelf's commands (R173 to R176), and O53. -/

namespace Sys2Proof.Machine

section
variable {s : State} {n : Port} {f : Frame}

theorem exec_resetArm_of_offers (h : s.Offers n .resetArm f) :
    exec (.resetArm n) s = .next ((s.takeFrame n f).answer (.port n) .accepted) :=
  congrArg Host.Outcome.next (State.dispatch_of_offers h _)

theorem exec_identify_of_offers (h : s.Offers n .identify f) :
    exec (.identify n) s = .next
      ({ s.takeFrame n f with lki := { (s.takeFrame n f).lki with powerOn := false } }.answer (.port n) .accepted
        [0x3A#8, 0x71#8, 0x12#8, 0xD0#8, 0x01#8, onByte s.lki.powerOn]) :=
  congrArg Host.Outcome.next (State.dispatch_of_offers h _)

theorem exec_resetExecute_of_disarmed (h : s.Offers n .resetExecute f) (ha : s.lki.armed = false) :
    exec (.resetExecute n) s = .next ((s.takeFrame n f).answer (.port n) .notPermitted) := by
  change execResetExecute n s = _
  simp only [execResetExecute, State.dispatch_of_offers h, ha, Bool.false_eq_true, if_false]

theorem exec_resetExecute_of_armed (h : s.Offers n .resetExecute f) (ha : s.lki.armed = true) :
    exec (.resetExecute n) s = .next (s.takeFrame n f).startReset := by
  change execResetExecute n s = _
  simp only [execResetExecute, State.dispatch_of_offers h, ha, if_true]

end

/-! ### An owner that has the reset to take (R174) -/

section
variable {s : State} {r : ResetProgress} (hr : s.lki.softReset = some r)
include hr

theorem exec_softResetAtPtb_of_due (h : r.ptb = false) :
    exec .softResetAtPtb s = .next (s.ptbReset.setReset (some { r with ptb := true })) :=
  congrArg Host.Outcome.next (State.ownerReset_of_due hr h)

theorem exec_softResetAtLcu_of_due (h : r.lcu = false) :
    exec .softResetAtLcu s = .next (s.lcuReset.setReset (some { r with lcu := true })) :=
  congrArg Host.Outcome.next (State.ownerReset_of_due hr h)

theorem exec_softResetAtGfu_of_due (h : r.gfu = false) :
    exec .softResetAtGfu s = .next (s.gfuReset.setReset (some { r with gfu := true })) :=
  congrArg Host.Outcome.next (State.ownerReset_of_due hr h)

theorem exec_softResetAtCmx_of_due (h : r.cmx = false) :
    exec .softResetAtCmx s = .next (s.cmxReset.setReset (some { r with cmx := true })) :=
  congrArg Host.Outcome.next (State.ownerReset_of_due hr h)

theorem exec_softResetAtRtu_of_due (h : r.rtu = false) :
    exec .softResetAtRtu s = .next (s.setReset (some { r with rtu := true })) :=
  congrArg Host.Outcome.next (State.ownerReset_of_due hr h)

theorem exec_softResetAtSqu_of_due (h : r.squ = false) :
    exec .softResetAtSqu s = .next (s.squReset.setReset (some { r with squ := true })) :=
  congrArg Host.Outcome.next (State.ownerReset_of_due hr h)

end

/-! ### The completion at the command (R174) -/

theorem exec_softResetCompletion_of_all {s : State} {rises : Line → Bool}
    (hr : s.lki.softReset = some ⟨true, true, true, true, true, true⟩)
    (h : ∀ l, rises l = true ↔ (s.line l).resetIdle = true ∧ (s.line l).state = .idle ∧ (s.line l).qualified = true
      ∧ ((s.line l).cfg.kind = .ringdown ∨ (s.line l).cfg.kind = .automatic)) :
    exec .softResetCompletion s = .next ((s.completed rises).answer (.port mgmt) .accepted) := by
  change execSoftResetCompletion s = _
  simp only [execSoftResetCompletion, hr, ResetProgress.complete, Bool.and_self, if_true, State.completeReset_eq h]

theorem exec_softResetCompletion_of_not_all {s : State} (h : s.lki.softReset ≠ some ⟨true, true, true, true, true, true⟩) :
    exec .softResetCompletion s = .next s := by
  change execSoftResetCompletion s = _
  unfold execSoftResetCompletion
  split
  · next r hr => rw [if_neg fun hc => h (hr.trans (congrArg some (ResetProgress.complete_iff.mp hc)))]
  · rfl

/-! ### The records that move, read back -/

theorem State.startReset_events (s : State) (m : Port) : s.startReset.events m = (s.events m).soft := Table.look_build ..

theorem State.cmxReset_leg (s : State) (k : Leg) :
    s.cmxReset.leg k = { s.leg k with list := [], idle := s.idleOf k, clip := 0 } := Table.look_build ..

theorem State.completed_line (s : State) (rises : Line → Bool) (l : Line) :
    (s.completed rises).line l = (s.line l).completed (rises l) := Table.look_build ..

/-- Settles O53: the requests, then each owner by the one equation of its reset and of its paths, then the completion. -/
theorem softResetGoesThroughItsPhases : Obligations.SoftResetGoesThroughItsPhases := by
  intro s
  refine ⟨fun n f => ⟨exec_resetArm_of_offers, exec_identify_of_offers, exec_resetExecute_of_disarmed, fun h ha => ?execute⟩,
    fun h => congrArg _ (State.ownerReset_of_taken h), fun h => congrArg _ (State.ownerReset_of_taken h),
    fun h => congrArg _ (State.ownerReset_of_taken h), fun h => congrArg _ (State.ownerReset_of_taken h),
    fun h => congrArg _ (State.ownerReset_of_taken h), fun h => congrArg _ (State.ownerReset_of_taken h),
    exec_softResetCompletion_of_not_all, fun r hr => ⟨fun h => ?ptb, fun h => ?lcu, fun leaving h hl => ?gfu, fun h => ?cmx,
      exec_softResetAtRtu_of_due hr, exec_softResetAtSqu_of_due hr,
      fun hall rises hrises => ?completion⟩⟩
  case execute =>
    exact ⟨_, exec_resetExecute_of_armed h ha, rfl, State.startReset_events _, rfl⟩
  case ptb =>
    exact ⟨_, exec_softResetAtPtb_of_due hr h, rfl, rfl, rfl, rfl, rfl, rfl, rfl, State.ptbReset_chan hr h, s.ptbReset_pos⟩
  case lcu =>
    refine ⟨_, exec_softResetAtLcu_of_due hr h, rfl, rfl, rfl, rfl, rfl, rfl, rfl, s.lcuReset_waiting,
      State.lcuReset_chan hr h, s.lcuReset_row, fun l x hx => ?_⟩
    subst hx
    exact ⟨fun hs hk => (s.lcuReset_line l).trans (softLine_of_cleared hs hk),
      fun hk => (s.lcuReset_line l).trans (softLine_of_kept hk)⟩
  case gfu =>
    exact ⟨_, exec_softResetAtGfu_of_due hr h, rfl, rfl, rfl, rfl, rfl, rfl, rfl, State.gfuReset_chan hr h hl,
      s.gfuReset_call, rfl, s.gfuReset_group⟩
  case cmx =>
    exact ⟨_, exec_softResetAtCmx_of_due hr h, rfl, rfl, s.cmxReset_leg⟩
  case completion =>
    subst hall
    refine ⟨_, exec_softResetCompletion_of_all hr hrises, ?_⟩
    simp only [State.answer_cmx, State.answer_lcu, State.answer_line, State.completed_line]
    refine ⟨rfl, rfl, fun k => ?_, rfl, fun l x hx => ⟨fun h => ?_, fun h => ?_⟩⟩
    · simp [State.completed, Cmx.await]
    · rw [hx, h, LineRec.completed, if_pos rfl, toIncoming_eq]
    · rw [hx, h]
      rfl

end Sys2Proof.Machine
end

section
/-! What each block does with one thing leaves the queue of waiting commands as it was: only a tick puts something in it, and only
the step takes something out. -/

namespace Sys2Proof.Machine

/-! ### The shared operations -/

theorem State.nextForHandset_pending {s t : State} {o : Owner} {p : Pos} {h : Handset} {m : ToOwner}
    (e : s.nextForHandset o p h = some (m, t)) : t.pending = s.pending := by
  obtain ⟨-, _, _, -, rfl, -⟩ := State.nextForHandset_some e
  simp
theorem State.nextForSpeaker_pending {s t : State} {o : Owner} {p : Pos} {k : Spk} {m : ToOwner}
    (e : s.nextForSpeaker o p k = some (m, t)) : t.pending = s.pending := by
  obtain ⟨-, _, _, -, rfl, -⟩ := State.nextForSpeaker_some e
  simp
theorem State.heardOfHandset_pending {s t : State} {o : Owner} {p : Pos} {h : Handset} {m : ToPtb}
    (e : s.heardOfHandset o p h = some (m, t)) : t.pending = s.pending := by
  obtain ⟨-, _, _, -, rfl, -⟩ := State.heardOfHandset_some e
  simp
theorem State.heardOfSpeakers_pending {s t : State} {o : Owner} {p : Pos} {m : ToPtb}
    (e : s.heardOfSpeakers o p = some (m, t)) : t.pending = s.pending := by
  obtain ⟨-, _, _, -, rfl, -⟩ := State.heardOfSpeakers_some e
  simp

theorem foldl_pending {α : Type} {f : State → α → State} (h : ∀ u a, (f u a).pending = u.pending) (l : List α) (s : State) :
    (l.foldl f s).pending = s.pending := by
  induction l generalizing s with
  | nil => rfl
  | cons a l ih => exact (ih _).trans (h s a)

theorem State.dispatchIf_pending {k : ReqKind} {n : Port} {ok : List Byte → Bool} {own : List Byte → State → State}
    (h : ∀ b t, (own b t).pending = t.pending) (s : State) : (s.dispatchIf k n ok own).pending = s.pending :=
  State.dispatchIf_keeps State.pending (fun _ _ _ => rfl) State.answer_pending h s

theorem State.request_pending {k : ReqKind} {r : Requester} {own : Pos → Via → List Byte → State → State}
    (h : ∀ p v b t, (own p v b t).pending = t.pending) (s : State) : (s.request k r own).pending = s.pending :=
  State.request_keeps State.pending (fun _ _ _ => rfl) State.answer_pending (fun _ _ => rfl) h s

theorem State.portRequest_pending {n : Port} {b : Byte} {own : Port → State → State}
    (h : ∀ m t, (own m t).pending = t.pending) (s : State) : (s.portRequest n b own).pending = s.pending := by
  unfold State.portRequest
  repeat' split
  all_goals simp [h]

theorem State.tapRequest_pending {k : ReqKind} {n : Port} {own : TapNo → List Byte → State → State}
    (h : ∀ r b t, (own r b t).pending = t.pending) (s : State) : (s.tapRequest k n own).pending = s.pending := by
  refine State.dispatchIf_pending (fun b t => ?_) s
  split
  · exact State.answer_pending ..
  · exact h _ b t

/-! ### LCU -/

@[simp] theorem State.dropGrant_pending (s : State) (w : Waiting) (granted ofReset : Bool) :
    (s.dropGrant w granted ofReset).pending = s.pending := by
  unfold State.dropGrant
  split <;> rfl

@[simp] theorem State.refuseTake_pending (s : State) (p : Pos) (h : Handset) (v : Via) (c : Code) :
    (s.refuseTake p h v c).pending = s.pending := rfl
@[simp] theorem State.askCoverage_pending (s : State) (p : Pos) (h : Handset) (v : Via) (l : Line) :
    (s.askCoverage p h v l).pending = s.pending := rfl
@[simp] theorem State.finishTake_pending (s : State) (p : Pos) (h : Handset) (v : Via) (l : Line) (covered : Bool) :
    (s.finishTake p h v l covered).pending = s.pending := rfl

@[simp] theorem State.lcuTake_pending (s : State) (p : Pos) (h : Handset) (v : Via) (l : Line) :
    (s.lcuTake p h v l).pending = s.pending := by
  unfold State.lcuTake
  repeat' split
  all_goals rfl

@[simp] theorem State.lcuAnswer_pending (s : State) (w : Waiting) (granted : Bool) : (s.lcuAnswer w granted).pending = s.pending := by
  unfold State.lcuAnswer
  repeat' split
  all_goals simp

@[simp] theorem State.lcuHold_pending (s : State) (p : Pos) (h : Handset) (v : Via) (l : Line) :
    (s.lcuHold p h v l).pending = s.pending := by
  unfold State.lcuHold
  repeat' split
  all_goals simp

@[simp] theorem State.lineConfig_pending (s : State) (n : Port) (b : List Byte) : (s.lineConfig n b).pending = s.pending := by
  unfold State.lineConfig
  repeat' split
  all_goals simp

@[simp] theorem State.lineOut_pending (s : State) (l : Line) : (s.lineOut l).pending = s.pending := by
  simp only [State.lineOut]
  repeat' split
  all_goals rfl

@[simp] theorem State.lineIn_pending (s : State) (n : Port) (l : Line) : (s.lineIn n l).pending = s.pending := by
  unfold State.lineIn
  repeat' split
  all_goals simp

@[simp] theorem State.changeApp_pending (s : State) (l : Line) (p : Pos) (m : AppMode) :
    (s.changeApp l p m).pending = s.pending := by
  simp only [State.changeApp]
  repeat' split
  all_goals rfl

@[simp] theorem State.setBars_pending (s : State) (q : Line → Pos → Bool) (on : Bool) :
    (s.setBars q on).pending = s.pending := by
  simp only [State.setBars]
  split <;> rfl

@[simp] theorem State.lineDetach_pending (s : State) (l : Line) (g : Grp) : (s.lineDetach l g).pending = s.pending := by
  unfold State.lineDetach
  split <;> rfl

@[simp] theorem State.lcuComplete_pending (s : State) : s.lcuComplete.pending = s.pending :=
  foldl_pending (fun u l => u.applyLine_pending l _) _ s

/-! ### GFU -/

@[simp] theorem State.actFloor_pending (s : State) (g : Grp) (act : FloorAct → FloorAct) :
    (s.actFloor g act).pending = s.pending := rfl
@[simp] theorem State.takeFloor_pending (s : State) (p : Pos) (g : Grp) (latched : Bool) (o : Origin) :
    (s.takeFloor p g latched o).pending = s.pending := rfl
@[simp] theorem State.setAttached_pending (s : State) (g : Grp) (ls : List Line) : (s.setAttached g ls).pending = s.pending := rfl
@[simp] theorem State.setListening_pending (s : State) (m : Listening) : (s.setListening m).pending = s.pending := rfl
@[simp] theorem State.tellLcu_pending (s : State) (m : AttachToLcu) : (s.tellLcu m).pending = s.pending := rfl
@[simp] theorem State.voxActive_pending (s : State) (p : Pos) : (s.voxActive p).pending = s.pending := by
  unfold State.voxActive
  repeat' split
  all_goals rfl

@[simp] theorem State.voxQuiet_pending (s : State) (p : Pos) : (s.voxQuiet p).pending = s.pending := by
  unfold State.voxQuiet
  split <;> rfl

theorem State.nextVox_pending {s t : State} {p : Pos} {on : Bool} (h : s.nextVox p on = some t) : t.pending = s.pending := by
  unfold State.nextVox at h
  repeat' split at h
  · obtain rfl := Option.some.inj h
    rfl
  all_goals simp at h

theorem State.nextListening_pending {s t : State} {on : Bool} {m : Listening} (h : s.nextListening on = some (m, t)) :
    t.pending = s.pending := by
  unfold State.nextListening at h
  repeat' split at h
  case h_2.isTrue =>
    obtain ⟨-, rfl⟩ := Prod.ext_iff.mp (Option.some.inj h)
    rfl
  all_goals simp at h

theorem State.nextAttach_pending {s t : State} {l : Line} {m : AttachToGfu} (h : s.nextAttach l = some (m, t)) :
    t.pending = s.pending := by
  obtain ⟨_, -, e⟩ := Option.map_eq_some_iff.mp h
  obtain ⟨-, rfl⟩ := Prod.ext_iff.mp e
  rfl

@[simp] theorem State.loseStanding_pending (s : State) (kind : GroupKind) (g : Grp) (p : Pos) :
    (s.loseStanding kind g p).pending = s.pending := by
  unfold State.loseStanding
  repeat' split
  all_goals rfl

@[simp] theorem State.configGroup_pending (s : State) (g : Grp) (c : GroupConfig) : (s.configGroup g c).pending = s.pending := by
  have h (ps : List Pos) : (ps.foldl (fun u p => u.loseStanding (s.group g).kind g p)
      (s.setGroup g ((s.group g).configured c))).pending = s.pending :=
    foldl_pending (fun u p => u.loseStanding_pending _ g p) ps _
  simp only [State.configGroup]
  repeat' split
  all_goals simp [h]

@[simp] theorem State.gfuJoin_pending (s : State) (p : Pos) (h : Handset) (v : Via) (g : Grp) :
    (s.gfuJoin p h v g).pending = s.pending := by
  unfold State.gfuJoin
  split <;> rfl

@[simp] theorem State.gfuCall_pending (s : State) (p : Pos) (h : Handset) (v : Via) (callee : Byte) (voice : Bool) :
    (s.gfuCall p h v callee voice).pending = s.pending := by
  unfold State.gfuCall
  split <;> rfl

@[simp] theorem State.gfuAnswer_pending (s : State) (p : Pos) (h : Handset) (v : Via) (c : CallNo) :
    (s.gfuAnswer p h v c).pending = s.pending := by
  unfold State.gfuAnswer
  repeat' split
  all_goals rfl

@[simp] theorem State.endCall_pending (s : State) (c : CallNo) (p q : Pos) (o : Sends) : (s.endCall c p q o).pending = s.pending := rfl

@[simp] theorem State.queryGroupRec_pending (s : State) (n : Port) (b : Byte) (body : GroupRec → List Byte) :
    (s.queryGroupRec n b body).pending = s.pending := by
  unfold State.queryGroupRec
  repeat' split
  all_goals simp

@[simp] theorem State.gfuDown_pending (s : State) (p : Pos) : (s.gfuDown p).pending = s.pending := by
  rw [s.gfuDown_whole p]
  rfl

/-! ### Either owner -/

theorem State.leave_pending {s t : State} {p : Pos} {h : Handset} {c : Claim} (e : s.leave p h c = some t) : t.pending = s.pending := by
  cases c with
  | none | pending => simp [State.leave] at e
  | line l =>
    obtain ⟨_, -, rfl⟩ := Option.map_eq_some_iff.mp e
    rfl
  | group g =>
    obtain ⟨-, rfl⟩ : _ ∧ s.leaveGroup g p = t := by simpa [State.leave, State.leaveJoined] using e
    rfl
  | call n =>
    simp only [State.leave, State.leaveCall] at e
    repeat' split at e
    all_goals cases e
    all_goals rfl

@[simp] theorem State.ownerRelease_pending (s : State) (p : Pos) (h : Handset) (v : Via) (c : Claim) :
    (s.ownerRelease p h v c).pending = s.pending := by
  unfold State.ownerRelease
  split
  · simp
  · next e => simp [State.leave_pending e]

@[simp] theorem State.ownerReturn_pending (s : State) (o : Owner) (p : Pos) (h : Handset) (c : Claim) :
    (s.ownerReturn o p h c).pending = s.pending := by
  unfold State.ownerReturn
  split
  · rfl
  · next e => simp [State.leave_pending e]

@[simp] theorem State.answerSpeaker_pending (s : State) (p : Pos) (k : Spk) (t : Target) :
    (s.answerSpeaker p k t).pending = s.pending := by
  cases t <;> rfl

/-! ### PTB -/

@[simp] theorem State.takeOutcome_pending (s : State) (o : Owner) (p : Pos) (h : Handset) (v : Via) (x : Claim ⊕ Code) :
    (s.takeOutcome o p h v x).pending = s.pending := by
  cases x
  · simp only [State.takeOutcome]
    split <;> simp
  · simp [State.takeOutcome]

@[simp] theorem State.assignTo_pending (s : State) (p : Pos) (k : Spk) (t : Target) : (s.assignTo p k t).pending = s.pending := rfl
@[simp] theorem State.setAsking_pending (s : State) (p : Pos) (k : Spk) (m : Option Asking) :
    (s.setAsking p k m).pending = s.pending := rfl
@[simp] theorem State.askSpeaker_pending (s : State) (p : Pos) (v : Via) (k : Spk) (o : Owner) (t : Target) :
    (s.askSpeaker p v k o t).pending = s.pending := State.forward_pending ..

@[simp] theorem State.takeAnswer_pending (s : State) (p : Pos) (k : Spk) (t : Target) (x : Option Code) (early : Bool) :
    (s.takeAnswer p k t x early).pending = s.pending := by
  cases h : (s.pos p).asking.look k with
  | none => simp [State.takeAnswer, h]
  | some m =>
    obtain ⟨c, e, -⟩ | ⟨-, -, -, -, -, e⟩ := State.takeAnswer_cases s h t x early <;> rw [e] <;> simp

@[simp] theorem State.offTarget_pending (s : State) (p : Pos) (t : Target) : (s.offTarget p t).pending = s.pending := by
  simp only [State.offTarget]
  split <;> rfl

theorem State.setVolume_pending (s : State) (r : Requester) (p : Option Pos) (b : List Byte) :
    (s.setVolume r p b).pending = s.pending := by
  unfold State.setVolume
  split <;> simp

@[simp] theorem State.ptbDown_pending (s : State) (p : Pos) : (s.ptbDown p).pending = s.pending := rfl

/-! ### EVU and LKI -/

@[simp] theorem State.evuDown_pending (s : State) (n : Port) : (s.evuDown n).pending = s.pending := by
  unfold State.evuDown
  split <;> simp

@[simp] theorem State.portDown_pending (s : State) (n : Port) : (s.portDown n).pending = s.pending := by
  simp only [State.portDown]
  split <;> rfl

@[simp] theorem State.ptbCatchUp_pending (s : State) (p : Pos) : (s.ptbCatchUp p).pending = s.pending := by
  unfold State.ptbCatchUp
  split <;> simp

@[simp] theorem State.portUp_pending (s : State) (n : Port) : (s.portUp n).pending = s.pending := by
  simp only [State.portUp, State.ptbUp]
  split <;> simp

@[simp] theorem State.changeMode_pending (s : State) (n : Port) (m : PortMode) : (s.changeMode n m).pending = s.pending := by
  simp only [State.changeMode]
  split <;> simp

@[simp] theorem State.endTest_pending (s : State) (n : Port) (o : LoopOutcome) : (s.endTest n o).pending = s.pending := by
  unfold State.endTest
  repeat' split
  all_goals simp

@[simp] theorem State.rxEvent_pending (s : State) (n : Port) (e : RxEvent) : (s.rxEvent n e).pending = s.pending := by
  cases e <;> simp [State.rxEvent]

@[simp] theorem State.takeLoop_pending (s : State) (n : Port) (bytes : List Byte) (named : RxEvent → Bool) :
    (s.takeLoop n bytes named).pending = s.pending := by
  simp only [State.takeLoop]
  repeat' split
  case h_1.isTrue => exact foldl_pending (fun u a => State.rxEvent_pending u n a) _ _
  all_goals rfl

@[simp] theorem State.takeOpen_pending (s : State) (n : Port) : (s.takeOpen n).pending = s.pending := by
  unfold State.takeOpen
  split <;> simp

@[simp] theorem State.hear_pending (s : State) (n : Port) (due : RxState) (bytes : List Byte) (named : RxEvent → Bool) :
    (s.hear n due bytes named).pending = s.pending := by
  simp only [State.hear]
  repeat' split
  · exact State.takeLoop_pending ..
  · exact foldl_pending (fun u a => State.rxEvent_pending u n a) _ _
  · rfl

@[simp] theorem State.resetPort_pending (s : State) (m : Port) : (s.resetPort m).pending = s.pending := rfl

/-! ### SQU -/

@[simp] theorem State.endRun_pending (s : State) (p : Pos) (e : Event) : (s.endRun p e).pending = s.pending := rfl
@[simp] theorem State.submit_pending (s : State) (p : Pos) (q : Submission) : (s.submit p q).pending = s.pending := rfl

@[simp] theorem State.seqStep_pending (s : State) (p : Pos) (k : StepNo) (done : Nat) : (s.seqStep p k done).pending = s.pending := by
  unfold State.seqStep
  split <;> simp

@[simp] theorem State.beginStep_pending (s : State) (p : Pos) (k first : StepNo) (done fuel : Nat) :
    (s.beginStep p k first done fuel).pending = s.pending := by
  induction fuel generalizing s k done with
  | zero => rfl
  | succ n ih =>
    simp only [State.beginStep]
    repeat' split
    all_goals simp [ih]

@[simp] theorem State.begin_pending (s : State) (p : Pos) (k first : StepNo) (done : Nat) :
    (s.begin p k first done).pending = s.pending := State.beginStep_pending ..

@[simp] theorem State.goOn_pending (s : State) (p : Pos) (k first : StepNo) (done : Nat) :
    (s.goOn p k first done).pending = s.pending := by
  unfold State.goOn
  split <;> simp

@[simp] theorem State.stepOutcome_pending (s : State) (p : Pos) (k first : StepNo) (abort : Bool) (done : Nat) (c : Code) :
    (s.stepOutcome p k first abort done c).pending = s.pending := by
  simp only [State.stepOutcome]
  repeat' split
  all_goals simp

/-! ### CMX and RTU -/

@[simp] theorem State.install_pending (s : State) (d : Derivation) : (s.install d).pending = s.pending := by
  rw [State.install_eq]
  rfl

@[simp] theorem State.answerLcu_pending (s : State) (p : Pos) (h : Handset) (granted : Bool) :
    (s.answerLcu p h granted).pending = s.pending := rfl
@[simp] theorem State.lockTo_pending (s : State) (n : Port) (r : TapNo) (l : Lock) :
    (s.lockTo n r l).pending = s.pending := State.answer_pending ..
@[simp] theorem State.moveFaults_pending (s : State) (r : TapNo) (cs : List Cover) (on quiet : Bool) :
    (s.moveFaults r cs on quiet).pending = s.pending := by
  obtain ⟨f, c, e⟩ := s.moveFaults_frame r cs on quiet
  rw [e]

@[simp] theorem State.reserve_pending (s : State) (p : Pos) (h : Handset) (l : Line) (d : Direction) :
    (s.reserve p h l d).pending = s.pending := by
  simp only [State.reserve]
  repeat' split
  all_goals simp

@[simp] theorem State.releaseCover_pending (s : State) (c : Cover) (ofReset : Bool) :
    (s.releaseCover c ofReset).pending = s.pending := by
  unfold State.releaseCover
  split <;> simp

@[simp] theorem State.recorderChange_pending (s : State) (r : TapNo) (present : Bool) :
    (s.recorderChange r present).pending = s.pending := by
  simp only [State.recorderChange]
  split <;> simp

@[simp] theorem State.tapSet_pending (s : State) (n : Port) (r : TapNo) (b : List Byte) :
    (s.tapSet n r b).pending = s.pending := by
  unfold State.tapSet
  repeat' split
  all_goals simp

/-! ### The soft reset -/

@[simp] theorem State.startReset_pending (s : State) : s.startReset.pending = s.pending := rfl

@[simp] theorem State.completeReset_pending (s : State) : s.completeReset.pending = s.pending := by
  unfold State.completeReset
  rw [State.answer_pending]
  exact s.lcuComplete_pending

theorem State.ownerReset_pending {taken : ResetProgress → Bool} {mark : ResetProgress → ResetProgress} {act : State → State}
    (h : ∀ t, (act t).pending = t.pending) (s : State) : (s.ownerReset taken mark act).pending = s.pending := by
  unfold State.ownerReset
  repeat' split
  case h_2.isFalse => exact h s
  all_goals rfl

end Sys2Proof.Machine
end

section
/-! No command stops, and none touches the queue of waiting commands. -/

namespace Sys2Proof.Machine

/-- Every command answers a next state, and the queue is not its to move (spec/00_scope.md section 4). -/
theorem exec_pending (i : Instr) (s : State) : ∃ t, exec i s = .next t ∧ t.pending = s.pending := by
  cases i with
  -- A reset, or an expiry, a notice or a report, that replaces records.
  | farSeizeChange | qualifyExpiry | answerExpiry | ringOutExpiry | holdRecallExpiry | guardExpiry | talkReport
  | positionDownAtLcu | attachQuestion | attachOutcome | holdTimerExpiry | positionDownAtPtb | positionDownAtSqu | syncFound
  | replySend | eventFrame | testFrameSend | frameSent | recordPlacement | callAlertExpiry | standingUpNotice | changeNotice
  | derivationStart | audioFrame | powerOnReset =>
    simp only [exec, execFarSeizeChange, execQualifyExpiry, execAnswerExpiry, execRingOutExpiry, execHoldRecallExpiry,
      execGuardExpiry, execTalkReport, execPositionDownAtLcu, execAttachQuestion, execAttachOutcome, execHoldTimerExpiry,
      execPositionDownAtPtb, execPositionDownAtSqu, execSyncFound, execReplySend, execEventFrame, execTestFrameSend,
      execFrameSent, execRecordPlacement, execCallAlertExpiry, execStandingUpNotice, execChangeNotice, execDerivationStart,
      execAudioFrame, execPowerOnReset]
    repeat' split
    all_goals exact ⟨_, rfl, rfl⟩
  | linkLossTimerExpiry | linkUpTimerExpiry | positionDownAtEvu | positionDownAtGfu | frameOpen | receiverHunt | frameClose
  | frameAbort | frameError | unknownRequest | reservationAnswer | pauseExpiry | listInstall | softResetCompletion
  | coverageReservation | coverageRelease | recorderPresentChange =>
    simp only [exec, execLinkLossTimerExpiry, execLinkUpTimerExpiry, execPositionDownAtEvu, execPositionDownAtGfu,
      execFrameOpen, execReceiverHunt, execFrameClose, execFrameAbort, execFrameError, execUnknownRequest,
      execReservationAnswer, execPauseExpiry, execListInstall, execSoftResetCompletion,
      execCoverageReservation, execCoverageRelease, execRecorderPresentChange]
    repeat' split
    all_goals exact ⟨_, rfl, by simp⟩
  | stepOutcome p =>
    change ∃ t, execStepOutcome p s = .next t ∧ _
    cases ho : s.chan.outcomes.look p with
    | none => exact ⟨s, by simp only [execStepOutcome, ho], rfl⟩
    | some c =>
      rcases hr : (s.runOf p).state with _ | ⟨k, first, abort⟩ | _ | _ <;> simp only [execStepOutcome, ho, hr]
      case waiting => exact ⟨_, rfl, State.stepOutcome_pending ..⟩
      all_goals exact ⟨_, rfl, rfl⟩
  -- A message that is taken from its path.
  | takeLineAtLcu | holdAtLcu | joinGroupAtGfu | callPositionAtGfu | answerCallAtGfu | releaseAtOwner | returnNotice =>
    simp only [exec, execTakeLineAtLcu, execHoldAtLcu, execJoinGroupAtGfu, execCallPositionAtGfu, execAnswerCallAtGfu,
      execReleaseAtOwner, execReturnNotice]
    split
    · next e =>
      have ht := State.nextForHandset_pending e
      repeat' split
      all_goals exact ⟨_, rfl, by simp [ht]⟩
    · exact ⟨_, rfl, rfl⟩
  | speakerQuestion =>
    simp only [exec, execSpeakerQuestion]
    split
    · next e => exact ⟨_, rfl, by simp [State.nextForSpeaker_pending e]⟩
    · exact ⟨_, rfl, rfl⟩
  | finalClaim | releaseNotice =>
    simp only [exec, execFinalClaim, execReleaseNotice]
    split
    · next e => exact ⟨_, rfl, by simp [State.heardOfHandset_pending e]⟩
    · exact ⟨_, rfl, rfl⟩
  | assignmentAnswer | removalNotice =>
    simp only [exec, execAssignmentAnswer, execRemovalNotice]
    split
    · next e => exact ⟨_, rfl, by simp [State.heardOfSpeakers_pending e]⟩
    · exact ⟨_, rfl, rfl⟩
  | attachAnswer | hootLineRemoval =>
    simp only [exec, execAttachAnswer, execHootLineRemoval]
    split
    · next e =>
      have ht := State.nextAttach_pending e
      repeat' split
      all_goals exact ⟨_, rfl, by simp [ht]⟩
    · exact ⟨_, rfl, rfl⟩
  | listenOn | listenOff =>
    simp only [exec, execListenOn, execListenOff]
    split
    · next e =>
      have ht := State.nextListening_pending e
      repeat' split
      all_goals exact ⟨_, rfl, by simp [ht]⟩
    · exact ⟨_, rfl, rfl⟩
  | voxActiveReport | voxQuietReport =>
    simp only [exec, execVoxActiveReport, execVoxQuietReport]
    split
    · next e => exact ⟨_, rfl, by simp [State.nextVox_pending e]⟩
    · exact ⟨_, rfl, rfl⟩
  -- A request of a position.
  | takeLine | joinGroup | callPosition | answerCall | declineCall | release | hold | mute | assignSpeaker | setPrivacy | signalLine
  | floorRequest | floorRelease | abortSequence =>
    refine ⟨_, rfl, State.request_pending (fun p v b t => ?_) s⟩
    simp only [State.ptbTake, State.ptbJoin, State.ptbCall, State.ptbAnswer, State.declineCall, State.ptbRelease, State.ptbHold,
      State.ptbMute, State.ptbAssign, State.setPrivacy, State.signalLine, State.floorRequest, State.floorRelease, State.abortRun]
    repeat' split
    all_goals simp
  | runSequence =>
    refine ⟨_, rfl, State.request_pending (fun p v b t => ?_) s⟩
    split <;> simp
  | setVolume r =>
    cases r with
    | port n => exact ⟨_, rfl, State.dispatchIf_pending (fun b t => t.setVolume_pending ..) s⟩
    | run p =>
      refine ⟨_, rfl, ?_⟩
      unfold State.takeStep
      repeat' split
      case isTrue => exact State.setVolume_pending ..
      all_goals rfl
  -- A request of a port.
  | statusRead | eventSetup | portReset =>
    refine ⟨_, rfl, State.dispatchIf_pending (fun b t => State.portRequest_pending (fun m u => ?_) t) s⟩
    repeat' split
    all_goals simp
  | lineConfig | lineServiceOut | lineServiceIn | appearanceSet | appearanceBar | queryPosition | positionConfig | groupConfig
  | hootAttach | hootDetach | queryGroup | pinFloor | unpin | querySource | stepRead | portMode | testFrame | fetchEvents
  | summary | resetArm | resetExecute | legLevel | queryLeg =>
    refine ⟨_, rfl, State.dispatchIf_pending (fun b t => ?_) s⟩
    repeat' split
    all_goals simp
  | queryLine | callConfig | stepWrite | identify | detectorConfig =>
    refine ⟨_, rfl, State.dispatchIf_pending (fun b t => ?_) s⟩
    dsimp only
    repeat' split
    all_goals exact State.answer_pending ..
  | tapSet | tapDisable | tapLock | tapUnlock | tapFix | queryTap =>
    refine ⟨_, rfl, State.tapRequest_pending (fun r b t => ?_) s⟩
    repeat' split
    all_goals simp
  | tapEnable =>
    refine ⟨_, rfl, State.tapRequest_pending (fun r b t => ?_) s⟩
    dsimp only
    repeat' split
    all_goals simp
  -- The soft reset at its owners.
  | softResetAtPtb | softResetAtLcu | softResetAtGfu | softResetAtCmx | softResetAtRtu | softResetAtSqu =>
    refine ⟨_, rfl, State.ownerReset_pending ?_ s⟩
    exact fun _ => rfl

/-- Settles O2: `exec_pending` says it command by command, from what each operation leaves of the queue. -/
theorem noCommandStops : Obligations.NoCommandStops := exec_pending

end Sys2Proof.Machine
end
